-- ==== Sys2Proof/Word.lean ====
section
/-! DEFINITION. The word types of the Taltil 9400 (00 R4, 03 R61, 01 R16): bit 0 is the least significant bit of every value. -/
namespace Sys2Proof

/-- A byte of memory. -/
abbrev Byte := BitVec 8
/-- A per-lane register, a 32-bit special register or a mask word (06 R156). -/
abbrev W32 := BitVec 32
/-- A uniform register, an address or a program counter (06 R138, R156). -/
abbrev W64 := BitVec 64
/-- A lane mask: bit l is lane l (01 R16). -/
abbrev Mask := BitVec 1024
/-- One instruction word (06 R137). -/
abbrev Word96 := BitVec 96

/-- The lane mask that holds lanes 0 to w − 1 (01 R19). -/
def laneMask (w : Nat) : Mask := BitVec.ofNat 1024 (2 ^ w - 1)

/-- The least whole number q with q · d at least n. -/
def ceilDiv (n d : Nat) : Nat := (n + d - 1) / d

end Sys2Proof
end

