-- ==== Sys2Proof/Syntax.lean ====
section
/-! DEFINITION. The abstract syntax: operands, the six word formats (06 R146-R154) and one constructor per row of the
opcode table (06 R169, and the device events, monitor requests and messages of the other chapters). -/
namespace Sys2Proof

/-- Element types, by the TYPE codes of 06 R162. -/
inductive Ty where
  | i8 | i16 | i32 | i64 | w8 | w16 | w32 | w64 | b32
  | f16 | bf16 | f32 | f64 | f8e4 | f8e5 | f4 | e8 | t2 | i4 | f16x2 | bf16x2
  deriving DecidableEq, Repr

/-- Rounding modes, by the RND codes of 06 R163 (0b110 is reserved). -/
inductive Rnd where
  | rne | rz | rd | ru | rna | sr | dyn
  deriving DecidableEq, Repr

/-- Memory orders (06 R163). -/
inductive Ord4 where
  | rlx | acq | rel | ar
  deriving DecidableEq, Repr

/-- Scopes (06 R163). -/
inductive Scope where
  | team | crew | squad | device | system
  deriving DecidableEq, Repr

/-- Elements per lane of an M-format access (06 R163). -/
inductive Vec where
  | one | two | four
  deriving DecidableEq, Repr

/-- The guard fields GNEG and GP (06 R147). -/
structure Guard where
  neg : Bool
  p   : BitVec 4
  deriving DecidableEq, Repr

/-- The operands of the 9-bit codes of 06 R156. The reserved codes have no constructor. -/
inductive Operand where
  | v (r : BitVec 8)      -- v0 to v254; r = 255 is vz, see `WellFormed`
  | s (r : BitVec 6)      -- a uniform register
  | imm (c : BitVec 5)    -- a small immediate of value c - 16
  | idx (k o : BitVec 3)  -- v[xk + o]
  deriving DecidableEq, Repr

/-- The code 0x0FF, vz: reads zero, discards writes, and fills every field that an instruction does not use. -/
abbrev Operand.vz : Operand := .v 255

/-- R format (06 R149). -/
structure RArgs where
  g : Guard
  yield : Bool
  d : Operand
  a : Operand
  b : Operand
  c : Operand
  ty : Ty
  rnd : Rnd
  ftzi : Bool
  ftzo : Bool
  sat : Bool
  na : Bool
  aa : Bool
  nb : Bool
  ab : Bool
  nc : Bool
  ac : Bool
  fn : BitVec 20
  deriving DecidableEq, Repr

/-- I format (06 R150), MOVI alone: A is 0x0FF, B is 0x1FF, RND, FTZI, FTZO and SAT are zero and FN3 is the row's. -/
structure IArgs where
  g : Guard
  yield : Bool
  d : Operand
  ty : Ty
  imm : W32
  deriving DecidableEq, Repr

/-- M format (06 R151). -/
structure MArgs where
  g : Guard
  cc : BitVec 2
  yield : Bool
  d : Operand
  a : Operand
  b : Operand
  br : BitVec 4
  ord : Ord4
  scope : Scope
  vec : Vec
  ty : Ty
  mfn : BitVec 4
  disp : BitVec 24
  deriving DecidableEq, Repr

/-- B format (06 R152); B, bit 48 and FN are fixed (07 R190). -/
structure BArgs where
  g : Guard
  yield : Bool
  d : Operand
  a : Operand
  disp : W32
  deriving DecidableEq, Repr

/-- T format (06 R153); TYPE is absent where the instruction does not use it. -/
structure TArgs where
  g : Guard
  cc : BitVec 2
  yield : Bool
  d : Operand
  a : Operand
  b : Operand
  ta : BitVec 6
  tb : BitVec 6
  acc : BitVec 2
  ty : Option Ty
  rnd : Rnd
  sat : Bool
  br : BitVec 4
  ftzo : Bool
  tfn : BitVec 18
  deriving DecidableEq, Repr

/-- S format (06 R154); the whole HINT field is zero (06 R148). -/
structure SArgs where
  g : Guard
  d : Operand
  a : Operand
  b : Operand
  pd : BitVec 4
  sfn : BitVec 45
  deriving DecidableEq, Repr


/-- A unit with a suspicion score (18 R458). -/
inductive UnitName where
  | core (n : Nat) | slice (n : Nat) | channel (n : Nat) | laneGroup (n : Nat)
  deriving DecidableEq, Repr

/-- An inbound PCIe AtomicOp (15 R383): FetchAdd, Swap and compare-and-swap on `size` bytes. -/
inductive PcieAtomic where
  | fetchAdd (size operand : Nat) | swap (size operand : Nat) | cas (size compare new : Nat)
  deriving DecidableEq, Repr

/-- What an inbound request goes to (15 R383): an address of DMA (a VF's BAR2, the PF's BAR0, or any address below port D), an
offset in a VF's BAR0, or nothing, when it uses a feature that the port lacks (ATS, PRI, PASID). -/
inductive PcieTarget where
  | dma (va : Nat) | vfBar0 (offset : Nat) | lacking
  deriving DecidableEq, Repr

/-- An atomic of another package (15 R395): an operation of 12 R306 by its code, or a compare-and-swap of `size` bytes. -/
inductive BurraAtom where
  | arith (mfn : Nat) (ty : Ty) (operand : Nat)
  | cas (size compare new : Nat)
  deriving DecidableEq, Repr

/-- An access of another package to a physical address of this one (15 R390). -/
inductive BurraAcc where
  | read (pa len : Nat)
  | write (pa : Nat) (data : List Byte)
  | atomic (pa : Nat) (op : BurraAtom)
  deriving DecidableEq, Repr

/-- A request of a Burra stream after its authentication (15 R392, R394, R395). A release carries its sequence number.
`forged` is a flit whose authentication fails. -/
inductive BurraReq where
  | access (a : BurraAcc)
  | release (seq : Nat) (a : BurraAcc)
  | forged
  deriving DecidableEq, Repr

/-- A TDISP message to the device security manager (15 R383, R385). -/
inductive TdispReq where
  | lock | startIface | stopIface
  deriving DecidableEq, Repr

/-- One constructor per row of spec/opcode_table.json, in the table's order. An event constructor carries what the
event names: the agent (see `Machine.State.teams` for the numbering), the operation, the partition, the unit or the
message. -/
inductive Instr where
  | nop (a : SArgs)  -- R198
  | bra (a : BArgs)  -- R192
  | brx (a : BArgs)  -- R192
  | call (a : BArgs)  -- R193
  | callx (a : BArgs)  -- R193
  | ret (a : BArgs)  -- R193
  | split (a : BArgs)  -- R194
  | join (a : BArgs)  -- R183
  | exit (a : BArgs)  -- R196
  | yield (a : SArgs)  -- R199
  | pcmpi (a : RArgs)  -- R205
  | pcmpf (a : RArgs)  -- R206
  | plog (a : RArgs)  -- R207
  | pmovPack (a : RArgs)  -- R208
  | pmovUnpack (a : RArgs)  -- R208
  | pmovSet (a : RArgs)  -- R208
  | voteAll (a : RArgs)  -- R209
  | voteAny (a : RArgs)  -- R209
  | voteUni (a : RArgs)  -- R209
  | voteBallot (a : RArgs)  -- R209
  | voteCount (a : RArgs)  -- R209
  | rdsr (a : SArgs)  -- R200
  | wrsr (a : SArgs)  -- R201
  | grow (a : SArgs)  -- R133
  | growGrant (agent : Nat)  -- R133
  | shrink (a : SArgs)  -- R133
  | clock (a : SArgs)  -- R202
  | bpt (a : SArgs)  -- R203
  | mov (a : RArgs)  -- R241
  | movi (a : IArgs)  -- R241
  | moviHi (a : IArgs)  -- R241
  | sel (a : RArgs)  -- R241
  | iadd (a : RArgs)  -- R243
  | isub (a : RArgs)  -- R243
  | imul (a : RArgs)  -- R244
  | imulh (a : RArgs)  -- R244
  | imad (a : RArgs)  -- R244
  | imin (a : RArgs)  -- R245
  | imax (a : RArgs)  -- R245
  | iabs (a : RArgs)  -- R245
  | idiv (a : RArgs)  -- R246
  | irem (a : RArgs)  -- R246
  | lop3 (a : RArgs)  -- R248
  | and (a : RArgs)  -- R248
  | or (a : RArgs)  -- R248
  | xor (a : RArgs)  -- R248
  | not (a : RArgs)  -- R248
  | shl (a : RArgs)  -- R249
  | shr (a : RArgs)  -- R249
  | sar (a : RArgs)  -- R249
  | rotl (a : RArgs)  -- R249
  | funsh (a : RArgs)  -- R250
  | bfx (a : RArgs)  -- R251
  | bfi (a : RArgs)  -- R251
  | popc (a : RArgs)  -- R252
  | clz (a : RArgs)  -- R252
  | brev (a : RArgs)  -- R252
  | idot4 (a : RArgs)  -- R254
  | prmt (a : RArgs)  -- R253
  | xset (a : RArgs)  -- R255
  | xadd (a : RArgs)  -- R255
  | xget (a : RArgs)  -- R255
  | shfl (a : RArgs)  -- R257
  | redux (a : RArgs)  -- R258
  | scan (a : RArgs)  -- R259
  | matchLanes (a : RArgs)  -- R260
  | fadd (a : RArgs)  -- R267
  | fsub (a : RArgs)  -- R267
  | fmul (a : RArgs)  -- R267
  | ffma (a : RArgs)  -- R267
  | fmin (a : RArgs)  -- R269
  | fmax (a : RArgs)  -- R269
  | fclass (a : RArgs)  -- R272
  | frcp (a : RArgs)  -- R275
  | frsq (a : RArgs)  -- R275
  | fsqrt (a : RArgs)  -- R268
  | fdiv (a : RArgs)  -- R268
  | fexp2 (a : RArgs)  -- R275
  | flog2 (a : RArgs)  -- R275
  | fsin (a : RArgs)  -- R275
  | fcos (a : RArgs)  -- R275
  | ftanh (a : RArgs)  -- R275
  | hadd2 (a : RArgs)  -- R270
  | hmul2 (a : RArgs)  -- R270
  | hfma2 (a : RArgs)  -- R270
  | hmin2 (a : RArgs)  -- R270
  | hmax2 (a : RArgs)  -- R270
  | dadd (a : RArgs)  -- R267
  | dmul (a : RArgs)  -- R267
  | dfma (a : RArgs)  -- R267
  | cvt (a : RArgs)  -- R277
  | cvtpk (a : RArgs)  -- R281
  | frnd (a : RArgs)  -- R273
  | fscl (a : RArgs)  -- R274
  | fdot2 (a : RArgs)  -- R271
  | brset (a : SArgs)  -- R300
  | brget (a : SArgs)  -- R300
  | ld (a : MArgs)  -- R304
  | st (a : MArgs)  -- R304
  | ldx (a : MArgs)  -- R109
  | atom (a : MArgs)  -- R307
  | atomc (a : MArgs)  -- R307
  | red (a : MArgs)  -- R307
  | cellSlotGrant (agent : Nat)  -- R95
  | tagexhTimeout (agent : Nat)  -- R95
  | lds (a : MArgs)  -- R308
  | sts (a : MArgs)  -- R308
  | atoms (a : MArgs)  -- R308
  | ldq (a : MArgs)  -- R308
  | stq (a : MArgs)  -- R308
  | pref (a : MArgs)  -- R309
  | pin (a : MArgs)  -- R296
  | unpin (a : MArgs)  -- R309
  | cinv (a : MArgs)  -- R309
  | cflush (a : MArgs)  -- R309
  | icinv (a : MArgs)  -- R309
  | tdecl (a : TArgs)  -- R315
  | tfree (a : TArgs)  -- R315
  | tfill (a : TArgs)  -- R316
  | tmcast (a : TArgs)  -- R317
  | tdrain (a : TArgs)  -- R316
  | tstat (a : TArgs)  -- R315
  | tileStateWaitEnd (agent : Nat)  -- R289
  | tfillComplete (op : Nat)  -- R316
  | tdrainComplete (op : Nat)  -- R316
  | tmcastDelivery (op dest : Nat)  -- R290
  | tmcastRetire (op : Nat)  -- R290
  | cpyt (a : TArgs)  -- R319
  | cpyz (a : TArgs)  -- R322
  | copyOpRetire (op : Nat)  -- R320
  | wsld (a : TArgs)  -- R324
  | wswin (a : SArgs)  -- R325
  | weightStoreRefresh (die : Nat)  -- R298
  | ldw (a : TArgs)  -- R337
  | ldwWs (a : TArgs)  -- R337
  | swpw (a : TArgs)  -- R338
  | mma (a : TArgs)  -- R339
  | mmas (a : TArgs)  -- R339
  | aclr (a : TArgs)  -- R341
  | ald (a : TArgs)  -- R341
  | amov (a : TArgs)  -- R342
  | amovTile (a : TArgs)  -- R342
  | scacc (a : TArgs)  -- R343
  | wstat (a : TArgs)  -- R344
  | matrixOpRetire (op : Nat)  -- R332
  | fence (a : SArgs)  -- R371
  | bar (a : SArgs)  -- R372
  | barq (a : SArgs)  -- R372
  | arrive (a : SArgs)  -- R372
  | await (a : SArgs)  -- R372
  | awaitWake (agent : Nat)  -- R372
  | stgrel (a : SArgs)  -- R373
  | stgacq (a : SArgs)  -- R373
  | stgacqWake (agent : Nat)  -- R373
  | wait (a : SArgs)  -- R374
  | waitWake (agent : Nat)  -- R374
  | cntrd (a : SArgs)  -- R374
  | sleep (a : SArgs)  -- R375
  | sleepEnd (agent : Nat)  -- R375
  | tagnew (a : SArgs)  -- R104
  | tagnewGrant (agent : Nat)  -- R90
  | tagnewTimeout (agent : Nat)  -- R90
  | tagset (a : SArgs)  -- R105
  | tagget (a : SArgs)  -- R106
  | tagret (a : SArgs)  -- R107
  | tagCellFree (part : Nat) (tag : BitVec 16)  -- R99
  | tagqryFree (a : SArgs)  -- R108
  | tagqryTag (a : SArgs)  -- R108
  | tagqryPool (a : SArgs)  -- R108
  | msdecl (a : SArgs)  -- R443
  | msdeclRec (a : SArgs)  -- R443
  | msdrop (a : SArgs)  -- R444
  | msqryCap (a : SArgs)  -- R445
  | msqryItem (a : SArgs)  -- R445
  | msqryRst (a : SArgs)  -- R445
  | msqryLost (a : SArgs)  -- R445
  | pfret (a : SArgs)  -- R446
  | syscall (a : SArgs)  -- R421
  | queueTailPoll (part : Nat)  -- R382
  | trap (a : SArgs)  -- R421
  | eretRetry (a : SArgs)  -- R422
  | eretSkip (a : SArgs)  -- R422
  | eretKill (a : SArgs)  -- R422
  | eretResume (a : SArgs)  -- R423
  | eretDecline (a : SArgs)  -- R423
  | eretAbort (a : SArgs)  -- R423
  | launch (a : SArgs)  -- R128
  | evsig (a : SArgs)  -- R129
  | evsigClr (a : SArgs)  -- R129
  | evwait (a : SArgs)  -- R130
  | evwaitTry (a : SArgs)  -- R130
  | evwaitWake (agent : Nat)  -- R130
  | lease (a : SArgs)  -- R131
  | unlease (a : SArgs)  -- R131
  | tlbinv (a : SArgs)  -- R82
  | tlbinvAll (a : SArgs)  -- R82
  | tlbinvAp (a : SArgs)  -- R82
  | encreate (a : SArgs)  -- R51
  | enadd (a : SArgs)  -- R52
  | enseal (a : SArgs)  -- R53
  | enenter (a : SArgs)  -- R54
  | enexit (a : SArgs)  -- R54
  | enpgout (a : SArgs)  -- R418
  | enpgin (a : SArgs)  -- R418
  | enkill (a : SArgs)  -- R425
  | enclaveDeparture (eid : Nat)  -- R454
  | tsavePart (a : SArgs)  -- R426
  | tsaveExport (a : SArgs)  -- R426
  | trestPart (a : SArgs)  -- R426
  | trestImport (a : SArgs)  -- R426
  | crewPlacement (part : Nat)  -- R125
  | placementAged (fx : Nat)  -- R125
  | teamAged (agent : Nat)  -- R135
  | teamRetire (agent : Nat)  -- R184
  | fixtureRetire (fx : Nat)  -- R448
  | deadlineExpiry (fx : Nat)  -- R118
  | calendarSlotStart (part entry : Nat)  -- R119
  | leasePeriodBoundary  -- R123
  | walkBatchAged (batch : Nat)  -- R80
  | collectiveRetire (ring : Nat)  -- R398
  | uwcAck (agent : Nat)  -- R365
  | apertureRequestFail (part entry : Nat)  -- R386
  | controlThreadNotice (agent : Nat)  -- R411
  | correctedError (u : UnitName)  -- R458
  | unitTestComplete (u : UnitName) (passed : Bool)  -- R459
  | scoreHalving  -- R458
  | pcfg (arg : W64)  -- R41
  | prel (arg : W64)  -- R43
  | pqry (arg : W64)  -- R43
  | spdmx (arg : W64)  -- R56
  | pmapMap (arg : W64)  -- R74
  | pmapUnmap (arg : W64)  -- R74
  | pmapAddAlias (arg : W64)  -- R73
  | pmapRemoveAlias (arg : W64)  -- R74
  | apset (arg : W64)  -- R78
  | cpoolAdd (arg : W64)  -- R91
  | cpoolRemove (arg : W64)  -- R91
  | calsetArm (arg : W64)  -- R115
  | calsetDisarm (arg : W64)  -- R116
  | lpset (arg : W64)  -- R122
  | cqset (arg : W64)  -- R381
  | pdbindBind (arg : W64)  -- R385
  | pdbindUnbind (arg : W64)  -- R385
  | bssetCreate (arg : W64)  -- R391
  | bssetDestroy (arg : W64)  -- R391
  | crset (arg : W64)  -- R396
  | fqset (arg : W64)  -- R406
  | ctset (arg : W64)  -- R409
  | osfatal (arg : W64)  -- R419
  | bbrd (arg : W64)  -- R457
  | hqry (arg : W64)  -- R460
  | monitorRequestUnknown (code arg : W64)  -- R43
  | getVersion (who : Nat)  -- R56
  | getCapabilities (who : Nat)  -- R56
  | negotiateAlgorithms (who : Nat)  -- R56
  | getDigests (who : Nat)  -- R56
  | getCertificate (who slot off len : Nat)  -- R56
  | challenge (who slot : Nat) (nonce : BitVec 256)  -- R59
  | getMeasurements (who index : Nat) (signed : Bool) (nonce : BitVec 256)  -- R57
  | keyExchange (who : Nat) (share : BitVec 768)  -- R56
  | finish (who session : Nat)  -- R56
  | endSession (who session : Nat)  -- R56
  | chunkSend (who handle seq : Nat) (last : Bool) (data : List Byte)  -- R56
  | chunkGet (who handle seq : Nat)  -- R56
  | encreport (who eid : Nat) (nonce : BitVec 256)  -- R58
  | spdmUnsupported (who code : Nat)  -- R56
  | fwmWrite (world index : Nat) (value : W32)  -- R38
  | fwlockWrite (world : Nat) (value : W32)  -- R37
  | pcieInboundRead (port rid : Nat) (va : PcieTarget) (len : Nat)  -- R384
  | pcieInboundWrite (port rid : Nat) (va : PcieTarget) (data : List Byte)  -- R384
  | pcieInboundAtomic (port rid : Nat) (va : PcieTarget) (op : PcieAtomic)  -- R384
  | portUHotReset  -- R387
  | vfFlr (vf : Nat)  -- R387
  | tdiLeaveRun (port rid : Nat)  -- R385
  | burraFlitReceive (group : Nat) (crcOk : Bool)  -- R390
  | burraInboundRequest (part stream ctr : Nat) (req : BurraReq)  -- R394
  | burraLaneGroupFail (group : Nat)  -- R390
  | burraRekeyRequest (part stream : Nat)  -- R392
  | burraSendStop (part stream : Nat)  -- R392
  | burraKeyInstalled (part stream : Nat)  -- R392
  | burraStreamFail (part stream : Nat)  -- R393
  | ptpTimestamp (master : Nat)  -- R113
  | ppsPulse  -- R113
  | timeStep (target : Nat)  -- R113
  | syncLoss  -- R113
  | powerUp (energy : Nat) (imagesOk railsOk : Bool)  -- R478
  | bankCharged  -- R478
  | resetN  -- R484
  | powerFail  -- R429
  | pfHandlerEntry (agent : Nat)  -- R432
  | pfHandlerBudget (agent : Nat)  -- R433
  | quiesceComplete  -- R430
  | saveComplete  -- R435
  | bankExhausted  -- R480
  | thermalTrip (die : Nat)  -- R483
  | throttleDown (cluster power temp : Nat)  -- R481
  | throttleUp (cluster power temp : Nat)  -- R481
  | bankLow  -- R480
  | modstatWrite (value : W32)  -- R485
  | plimWrite (watts : Nat)  -- R481
  | yieldEnd (agent : Nat)  -- R199
  | portULinkDown  -- R387
  | tdispRequest (port rid : Nat) (req : TdispReq)  -- R383
  | ideKmRequest (port stream : Nat) (enable : Bool)  -- R383
  | controlThreadRestart (agent : Nat) (pc : W64)  -- R196
  deriving DecidableEq, Repr

end Sys2Proof
end

