-- ==== Sys2Proof/WellFormed.lean ====
section
/-! DEFINITION. Which terms of the syntax are instructions: every check of an instruction word that needs the word
alone (06 R155, R165 step 2). A word that fails one raises ILLENC. The checks that need the crew, the ring, the record
or the slot are made at issue (`Machine/Issue.lean`). An event is always well formed: the meanings of the events test
their own conditions. -/
namespace Sys2Proof

namespace Operand

/-- A uniform register. -/
def isUni : Operand → Bool
  | .s _ => true
  | _ => false

/-- A uniform register or a small immediate. -/
def isUniImm : Operand → Bool
  | .s _ => true
  | .imm _ => true
  | _ => false

/-- A uniform register, a small immediate or vz: a source that a uniform destination allows (09 R236). -/
def isScalar : Operand → Bool
  | .v r => r == 255
  | .s _ => true
  | .imm _ => true
  | .idx _ _ => false

/-- v0 to v254, direct or indexed. -/
def isLane : Operand → Bool
  | .v r => r != 255
  | .idx _ _ => true
  | _ => false

/-- v0 to v254, direct. -/
def isDirect : Operand → Bool
  | .v r => r != 255
  | _ => false

/-- A per-lane register, direct or indexed, or vz. -/
def isLaneVz : Operand → Bool
  | .v _ => true
  | .idx _ _ => true
  | _ => false

/-- A per-lane register, a uniform register or a small immediate (12 R301; vz is none of them, log 20). -/
def isIndex (o : Operand) : Bool := o.isLane || o.isUniImm

/-- The first register of a range of `r` registers: even when `r` is 2 or more, and at most 252 for 64-bit elements
(06 R157, 12 R301). -/
def rangeOk (wide : Bool) (r : Nat) : Operand → Bool
  | .v k => r < 2 || (k != 255 && k.toNat % 2 == 0 && (!wide || k.toNat ≤ 252))
  | _ => true

/-- A 64-bit operand (06 R157): an even direct register up to 252, vz, or another kind. -/
def pairOk : Operand → Bool
  | .v k => k == 255 || k.toNat % 2 == 0 && k.toNat ≤ 252
  | _ => true

/-- `wide` asks for a 64-bit operand. -/
def sizeOk (wide : Bool) (o : Operand) : Bool := !wide || o.pairOk

/-- A uniform register with room for `n` registers. -/
def uniRange (n : Nat) : Operand → Bool
  | .s r => r.toNat + n ≤ 64
  | _ => false

/-- Not an immediate below zero (05 R129). -/
def immNonNeg : Operand → Bool
  | .imm c => 16 ≤ c.toNat
  | _ => true

end Operand

namespace Ty

/-- Bits of an element (06 R162). -/
def bits : Ty → Nat
  | .i8 | .w8 | .f8e4 | .f8e5 | .e8 => 8
  | .i16 | .w16 | .f16 | .bf16 => 16
  | .i32 | .w32 | .b32 | .f32 | .f16x2 | .bf16x2 => 32
  | .i64 | .w64 | .f64 => 64
  | .f4 | .i4 => 4
  | .t2 => 2

/-- A 64-bit type. -/
def wide (t : Ty) : Bool := t.bits == 64

/-- i4, i8, i16, i32, i64: two's complement. -/
def isI : Ty → Bool
  | .i4 | .i8 | .i16 | .i32 | .i64 => true
  | _ => false

/-- w8, w16, w32, w64: unsigned. -/
def isW : Ty → Bool
  | .w8 | .w16 | .w32 | .w64 => true
  | _ => false

/-- The floating formats of 08 R211. -/
def isF : Ty → Bool
  | .f64 | .f32 | .f16 | .bf16 | .f8e4 | .f8e5 | .f4 => true
  | _ => false

/-- The eight types "all" of 09 R242. -/
def isArith (t : Ty) : Bool := (t.isI && t != .i4) || t.isW

/-- The load types of 12 R301. -/
def isLoad : Ty → Bool
  | .i8 | .i16 | .w8 | .w16 | .f16 | .bf16 | .b32 | .i32 | .w32 | .f32 | .f16x2 | .bf16x2 | .i64 | .w64 | .f64 => true
  | _ => false

end Ty

/-- Elements per lane. -/
def Vec.n : Vec → Nat
  | .one => 1
  | .two => 2
  | .four => 4

/-- GP 0 with GNEG 1 is illegal (06 R147). -/
def Guard.ok (g : Guard) : Bool := !(g.neg && g.p == 0)

/-- The unconditional guard. -/
def Guard.isTrue (g : Guard) : Bool := !g.neg && g.p == 0

/-- Bits [lo + n − 1 : lo] of FN, MFN, TFN or SFN as a number. -/
def fnBits {w : Nat} (x : BitVec w) (lo n : Nat) : Nat := x.toNat / 2 ^ lo % 2 ^ n

/-! ## R format -/

/-- What an R-format instruction reads and admits (06 R149, 09 R234, 10 R261). -/
structure RAdmit where
  ua : Bool := false      -- reads A
  ub : Bool := false
  uc : Bool := false
  rnd : Bool := false     -- has a rounding step
  ftzi : Bool := false
  ftzo : Bool := false
  sat : Bool := false
  ma : Bool := false      -- admits NA and AA
  mb : Bool := false
  mc : Bool := false

/-- The guard, the unused sources and the fields that the instruction does not allow. -/
def RArgs.ok (a : RArgs) (k : RAdmit) : Bool :=
  a.g.ok && (k.ua || a.a == .vz) && (k.ub || a.b == .vz) && (k.uc || a.c == .vz) &&
  (k.rnd || a.rnd == .rne) && (k.ftzi || !a.ftzi) && (k.ftzo || !a.ftzo) && (k.sat || !a.sat) &&
  (k.ma || (!a.na && !a.aa)) && (k.mb || (!a.nb && !a.ab)) && (k.mc || (!a.nc && !a.ac))

/-- Every source that the instruction reads allows a uniform destination (09 R236). -/
def RArgs.uniSrc (a : RArgs) (k : RAdmit) : Bool :=
  (!k.ua || a.a.isScalar) && (!k.ub || a.b.isScalar) && (!k.uc || a.c.isScalar)

/-- A destination of 09 R236: per-lane, vz, or uniform when the sources are; never an immediate. -/
def RArgs.destOk (a : RArgs) (k : RAdmit) (wide : Bool) : Bool :=
  match a.d with
  | .imm _ => false
  | .s _ => a.uniSrc k
  | d => d.sizeOk wide

/-- A per-lane destination or vz. -/
def Operand.laneDest (o : Operand) (wide : Bool) : Bool := o.isLaneVz && o.sizeOk wide

/-- Two predicate destinations may not be one predicate other than p0 (07 R204). -/
def predPair (p q : Nat) : Bool := p != q || p == 0

/-- The compare layout of 07 R204. -/
def cmpOk (fn : BitVec 20) (maxCmp : Nat) : Bool :=
  fnBits fn 0 4 ≤ maxCmp && predPair (fnBits fn 4 4) (fnBits fn 8 4) &&
  (fnBits fn 16 2 != 0 || (fnBits fn 12 4 == 0 && fnBits fn 18 1 == 0)) && fnBits fn 19 1 == 0

def srcA : RAdmit := { ua := true }
def srcAB : RAdmit := { ua := true, ub := true }
def srcABC : RAdmit := { ua := true, ub := true, uc := true }

/-- An integer instruction with data sources of the type's width (09 R242, R247). -/
def intOk (a : RArgs) (k : RAdmit) (tys : Bool) (fnMax : Nat) : Bool :=
  a.ok k && tys && a.destOk k a.ty.wide && a.a.sizeOk a.ty.wide && a.b.sizeOk a.ty.wide && a.c.sizeOk a.ty.wide &&
  a.fn.toNat < 2 ^ fnMax

/-- An integer instruction whose last source is a control operand of 32 bits (09 R235). -/
def ctlOk (a : RArgs) (k : RAdmit) (tys bData : Bool) (fnMax : Nat) : Bool :=
  a.ok k && tys && a.destOk k a.ty.wide && a.a.sizeOk a.ty.wide && (!bData || a.b.sizeOk a.ty.wide) &&
  a.fn.toNat < 2 ^ fnMax

/-- IADD and ISUB (09 R242). -/
def addOk (a : RArgs) : Bool :=
  intOk a { srcAB with sat := true } a.ty.isArith 9 && (fnBits a.fn 8 1 == 1 || fnBits a.fn 4 4 == 0) &&
  (fnBits a.fn 0 4 == 0 || !a.sat)

/-- The operation types of REDUX and SCAN (09 R258). -/
def reduxTy (op : Nat) (t : Ty) : Bool :=
  match op with
  | 0 | 1 | 2 | 6 => t == .i32 || t == .w32 || t == .i64 || t == .w64
  | 3 | 4 | 5 => t == .b32 || t == .w64
  | _ => false

/-- A floating instruction whose sources and result have the width of TYPE (10 R261, R266). -/
def fltOk (a : RArgs) (k : RAdmit) (tys : Bool) (fnMax : Nat) : Bool := intOk a k tys fnMax

/-- rnd all, both flushes and SAT. -/
def RAdmit.full (k : RAdmit) : RAdmit := { k with rnd := true, ftzi := true, ftzo := true, sat := true }

def fA : RAdmit := { ua := true, ma := true }
def fAB : RAdmit := { ua := true, ub := true, ma := true, mb := true }
def fABC : RAdmit := { ua := true, ub := true, uc := true, ma := true, mb := true, mc := true }

/-- The approximate functions: RNE alone (10 R266). -/
def approxOk (a : RArgs) : Bool := intOk a { fA with ftzi := true, ftzo := true, sat := true } (a.ty == .f32) 0

def isH (t : Ty) : Bool := t == .f16 || t == .bf16
def isH2 (t : Ty) : Bool := t == .f16x2 || t == .bf16x2

/-- The type of a TYPE code (06 R162). -/
def Ty.ofCode : Nat → Option Ty
  | 0x01 => some .i8 | 0x02 => some .i16 | 0x03 => some .i32 | 0x04 => some .i64
  | 0x05 => some .w8 | 0x06 => some .w16 | 0x07 => some .w32 | 0x08 => some .w64 | 0x09 => some .b32
  | 0x10 => some .f16 | 0x11 => some .bf16 | 0x12 => some .f32 | 0x13 => some .f64
  | 0x14 => some .f8e4 | 0x15 => some .f8e5 | 0x16 => some .f4 | 0x17 => some .e8
  | 0x18 => some .t2 | 0x19 => some .i4 | 0x1A => some .f16x2 | 0x1B => some .bf16x2
  | _ => none

/-- The code of a type (06 R162). -/
def Ty.code : Ty → Nat
  | .i8 => 0x01 | .i16 => 0x02 | .i32 => 0x03 | .i64 => 0x04
  | .w8 => 0x05 | .w16 => 0x06 | .w32 => 0x07 | .w64 => 0x08 | .b32 => 0x09
  | .f16 => 0x10 | .bf16 => 0x11 | .f32 => 0x12 | .f64 => 0x13
  | .f8e4 => 0x14 | .f8e5 => 0x15 | .f4 => 0x16 | .e8 => 0x17
  | .t2 => 0x18 | .i4 => 0x19 | .f16x2 => 0x1A | .bf16x2 => 0x1B

/-- The controls that a conversion from `st` to `dt` admits (10 R278); none for a pair that is not admitted. -/
def convAdmit (dt st : Ty) : Option RAdmit :=
  let int := fun t : Ty => t.isI || t.isW
  if st.isF && dt.isF then some { rnd := true, ftzi := true, ftzo := true, sat := true, ma := true, mb := true }
  else if st.isF && dt == .e8 then some { rnd := true, ftzi := true, sat := true, ma := true, mb := true }
  else if st == .e8 && dt.isF then some { rnd := true, ftzo := true, sat := true }
  else if st.isF && int dt then some { rnd := true, ftzi := true, ma := true, mb := true }
  else if (int st || st == .t2) && dt.isF then some { rnd := true, ftzo := true, sat := true }
  else if (int st || st == .t2) && int dt then some { sat := true }
  else none

/-- Source elements per word (10 R277). -/
def Ty.perWord (t : Ty) : Nat := if t.bits == 64 then 1 else 32 / t.bits

/-- CVT (10 R277, R278). -/
def cvtOk (a : RArgs) : Bool :=
  match Ty.ofCode (fnBits a.fn 0 8) with
  | none => false
  | some st =>
    match convAdmit a.ty st with
    | none => false
    | some k =>
      a.ok { k with ua := true, mb := false } && fnBits a.fn 8 4 < st.perWord && fnBits a.fn 12 8 == 0 &&
      a.destOk { k with ua := true } a.ty.wide && a.a.sizeOk st.wide

/-- POS of CVTPK (10 R281). -/
def posOk (t : Ty) (pos : Nat) : Bool :=
  match t with
  | .f16 | .bf16 | .i16 | .w16 => pos == 0
  | .f8e4 | .f8e5 | .e8 | .i8 | .w8 => pos == 0 || pos == 2
  | .f4 | .i4 => pos == 0 || pos == 2 || pos == 4 || pos == 6
  | _ => false

/-- CVTPK (10 R281). -/
def cvtpkOk (a : RArgs) : Bool :=
  match Ty.ofCode (fnBits a.fn 0 8) with
  | none => false
  | some st =>
    match convAdmit a.ty st with
    | none => false
    | some k =>
      a.ok { k with ua := true, ub := true, uc := true } && posOk a.ty (fnBits a.fn 8 3) && fnBits a.fn 11 9 == 0 &&
      a.destOk { k with ua := true, ub := true, uc := true } false && a.a.sizeOk st.wide && a.b.sizeOk st.wide

/-- PMOV (07 R204, R208). -/
def pmovOk (a : RArgs) (mode : Nat) : Bool :=
  a.ok { ua := mode == 1 } && a.ty == .b32 && fnBits a.fn 0 2 == mode && fnBits a.fn 18 2 == 0 &&
  (if mode == 0 then a.d.isDirect && fnBits a.fn 3 15 == 0 else a.d == .vz) &&
  (mode == 2 || fnBits a.fn 2 1 == 0)

/-- VOTE (07 R204, R209). -/
def voteOk (a : RArgs) (mode : Nat) : Bool :=
  a.ok {} && a.ty == .b32 && fnBits a.fn 0 3 == mode && fnBits a.fn 18 2 == 0 &&
  (if mode ≤ 2 then a.d == .vz else (a.d.isLaneVz || a.d.isUni) && fnBits a.fn 8 4 == 0) &&
  (if mode == 3 then (fnBits a.fn 17 1 == 0 || (fnBits a.fn 12 5 == 0 && !a.d.isUni))
   else fnBits a.fn 12 5 == 0 && fnBits a.fn 17 1 == 0)

/-- SHFL, REDUX, SCAN and MATCH (09 R257-R260). -/
def shflOk (a : RArgs) : Bool :=
  a.ok srcAB && (a.ty == .b32 || a.ty == .w64) && a.d.laneDest a.ty.wide && a.a.sizeOk a.ty.wide &&
  fnBits a.fn 2 4 ≤ 10 && fnBits a.fn 10 10 == 0

def reduxOk (a : RArgs) : Bool :=
  a.ok { srcA with sat := fnBits a.fn 0 3 == 0 } && reduxTy (fnBits a.fn 0 3) a.ty && a.a.sizeOk a.ty.wide &&
  fnBits a.fn 3 4 ≤ 10 && fnBits a.fn 7 13 == 0 &&
  (a.d.laneDest a.ty.wide || (a.d.isUni && (fnBits a.fn 3 4 == 0 || fnBits a.fn 3 4 == 10)))

def scanOk (a : RArgs) : Bool :=
  a.ok { srcA with sat := fnBits a.fn 0 3 == 0 } && reduxTy (fnBits a.fn 0 3) a.ty && a.a.sizeOk a.ty.wide &&
  fnBits a.fn 3 4 ≤ 10 && fnBits a.fn 8 12 == 0 && a.d.laneDest a.ty.wide

def matchOk (a : RArgs) : Bool :=
  a.ok srcA && (a.ty == .b32 || a.ty == .w64) && a.a.sizeOk a.ty.wide && a.d.isLaneVz &&
  (fnBits a.fn 0 2 == 1 || fnBits a.fn 2 5 == 0) && fnBits a.fn 11 4 ≤ 10 && fnBits a.fn 15 5 == 0

/-! ## M format -/

/-- A range of registers moved by an access of `v` elements of type `t` (12 R301). -/
def accRegs (v : Vec) (t : Ty) : Nat := if t.wide then 2 * v.n else v.n

/-- Narrow types have one element (12 R301). -/
def loadOk (a : MArgs) : Bool := a.ty.isLoad && (a.vec == .one || 32 ≤ a.ty.bits)

/-- A load's destination (12 R301). -/
def ldDest (a : MArgs) (uniOk : Bool) : Bool :=
  match a.d with
  | .s _ => uniOk && a.a.isUniImm && a.vec == .one
  | .imm _ => false
  | d => d.rangeOk a.ty.wide (accRegs a.vec a.ty)

/-- A store's data operand (12 R301, R304). -/
def stData (a : MArgs) : Bool :=
  match a.d with
  | .s r => r.toNat + a.vec.n ≤ 64
  | .imm _ => true
  | .v k => k != 255 && (Operand.v k).rangeOk a.ty.wide (accRegs a.vec a.ty)
  | .idx _ _ => true

def isLdOrd (o : Ord4) : Bool := o == .rlx || o == .acq
def isStOrd (o : Ord4) : Bool := o == .rlx || o == .rel
def isCrewScope (s : Scope) : Bool := s == .team || s == .crew

/-- The operations and types of 12 R306. -/
def atomTy (mfn : Nat) (t : Ty) : Bool :=
  match mfn with
  | 0 | 1 | 2 => t == .i32 || t == .w32 || t == .i64 || t == .w64
  | 3 | 4 | 5 | 6 => t == .b32 || t == .w64
  | 7 | 8 => t == .w32
  | 9 => t == .f32 || t == .f64 || t == .f16x2 || t == .bf16x2
  | _ => false

/-- An atomic of one element: D receives the old value, B is the operand. -/
def atomOk (a : MArgs) : Bool :=
  a.g.ok && a.vec == .one && atomTy a.mfn.toNat a.ty && a.a.isIndex && a.b.isIndex && a.b.sizeOk a.ty.wide &&
  a.d.isLaneVz && a.d.sizeOk a.ty.wide

/-- ATOMC (12 R301, R307): the 128-bit form names four registers, the first a multiple of 4. -/
def atomcOk (a : MArgs) : Bool :=
  a.g.ok && a.a.isIndex && (a.ty == .b32 || a.ty == .w64) &&
  (a.vec == .one || (a.vec == .two && a.ty == .w64)) && a.d.isLane && a.b.isLane &&
  (if a.vec == .two then
     (match a.d with | .v k => k.toNat % 4 == 0 | _ => true) && (match a.b with | .v k => k.toNat % 4 == 0 | _ => true)
   else a.d.sizeOk a.ty.wide && a.b.sizeOk a.ty.wide)

/-- PREF to ICINV: one b32 element, no data. -/
def lineOk (a : MArgs) (mfnMax : Nat) (anyScope : Bool) : Bool :=
  a.g.ok && a.d == .vz && a.b == .vz && a.a.isIndex && a.ord == .rlx && (anyScope || a.scope == .team) &&
  a.vec == .one && a.ty == .b32 && a.mfn.toNat ≤ mfnMax

/-- The access size of a scratchpad load or store is at most 16 bytes (12 R301). -/
def spSize (a : MArgs) : Bool := a.vec.n * a.ty.bits ≤ 128

/-! ## T format -/

/-- The fields that a T-format instruction uses (12 R310, 13 R334). -/
structure TAdmit where
  cc : Bool := false
  ta : Bool := false
  tb : Bool := false
  acc : Bool := false
  rnd : Bool := false
  sat : Bool := false
  br : Bool := false
  ftzo : Bool := false
  d : Bool := false     -- D is not fixed to 0x0FF here
  a : Bool := false
  b : Bool := false

def TArgs.ok (a : TArgs) (k : TAdmit) : Bool :=
  a.g.ok && (k.cc || a.cc == 0) && (k.ta || a.ta == 0) && (k.tb || a.tb == 0) && (k.acc || a.acc == 0) &&
  (k.rnd || a.rnd == .rne) && (k.sat || !a.sat) && (k.br || a.br == 0) && (k.ftzo || !a.ftzo) &&
  (k.d || a.d == .vz) && (k.a || a.a == .vz) && (k.b || a.b == .vz)

/-- A matrix row range: AR0 + M at most 128 (13 R334). -/
def rowsOk (tfn : BitVec 18) : Bool := fnBits tfn 7 7 + fnBits tfn 0 7 + 1 ≤ 128

/-- The activation and weight types of 13 R327 and R334. -/
def isActTy (t : Option Ty) : Bool :=
  match t with
  | some .f16 | some .bf16 | some .f8e4 | some .f8e5 | some .f4 | some .i8 | some .i4 => true
  | _ => false

def isWtTy (t : Option Ty) : Bool := isActTy t || t == some .t2

/-- The TYPE and controls of AMOV (13 R342): those of a conversion from f32 or i32. -/
def amovTy (a : TArgs) : Bool :=
  match a.ty with
  | none => false
  | some t =>
    let si := fnBits a.tfn 15 1 == 1
    (if si then t == .i32 || t == .i16 || t == .i8 || t == .i4 || t == .f32 || t == .f16 || t == .bf16
     else t == .f32 || t == .f16 || t == .bf16 || t == .f8e4 || t == .f8e5 || t == .f4 || t == .i32 || t == .i16 || t == .i8) &&
    (match convAdmit t (if si then .i32 else .f32) with
     | none => false
     | some k => (k.rnd || a.rnd == .rne) && (k.ftzo || !a.ftzo) && (k.sat || !a.sat))

def mmaOk (a : TArgs) : Bool :=
  a.ok { ta := true, acc := true, ftzo := a.ty != some .i8 && a.ty != some .i4, a := true } && a.a.isUniImm &&
  isActTy a.ty && fnBits a.tfn 15 3 == 0 && rowsOk a.tfn

/-! ## S format -/

/-- The fields that an S-format instruction uses. `sfn` is the number of low bits of SFN that it defines. -/
structure SAdmit where
  d : Bool := false
  a : Bool := false
  b : Bool := false
  pd : Bool := false
  sfn : Nat := 0

def SArgs.ok (a : SArgs) (k : SAdmit) : Bool :=
  a.g.ok && (k.d || a.d == .vz) && (k.a || a.a == .vz) && (k.b || a.b == .vz) && (k.pd || a.pd == 0) &&
  a.sfn.toNat < 2 ^ k.sfn

/-- A uniform register or 0x0FF. -/
def Operand.uniOrNone (o : Operand) : Bool := o.isUni || o == .vz

/-- The special registers of 06 R161: number, width 64, per lane. -/
def srInfo : Nat → Option (Bool × Bool)
  | 0x00 => some (false, true)
  | 0x01 | 0x02 | 0x03 | 0x04 | 0x05 | 0x06 | 0x07 | 0x08 | 0x09 | 0x0A | 0x0B => some (false, false)
  | 0x10 | 0x11 | 0x12 | 0x13 | 0x14 => some (false, false)
  | 0x18 | 0x19 | 0x1B | 0x21 => some (true, false)
  | 0x1A | 0x20 | 0x22 | 0x28 | 0x29 => some (false, false)
  | _ => none

/-- RDSR (07 R197, R200). -/
def rdsrOk (a : SArgs) : Bool :=
  a.ok { d := true, sfn := 13 } &&
  (match srInfo (fnBits a.sfn 0 8) with
   | none => false
   | some (w, lane) =>
     (match a.d with
      | .s _ => !lane
      | .v k => (Operand.v k).sizeOk w
      | _ => false) &&
     (fnBits a.sfn 0 8 == 0x08 || fnBits a.sfn 0 8 == 0x22 || fnBits a.sfn 8 5 == 0))

/-- The layout that TAGNEW to TAGQRY share (04 R102): RV and SEL as given. -/
def tagOk (a : SArgs) (k : SAdmit) (sel : Nat) (recOk : Bool) : Bool :=
  a.ok { k with sfn := 45 } && fnBits a.sfn 0 38 == 0 && fnBits a.sfn 38 2 == sel && (recOk || fnBits a.sfn 40 5 == 0)

/-- TLBINV (03 R82, R83). -/
def tlbOk (a : SArgs) (kind : Nat) : Bool :=
  a.ok { d := true, a := true, b := kind == 0, pd := true, sfn := 45 } && a.d.isUni && a.a.isUni &&
  (kind != 0 || a.b.isUni) && a.sfn.toNat == kind * 2 ^ 42

/-- The enclave and system instructions with a result, an operand and no second operand. -/
def sysOk (a : SArgs) : Bool := a.ok { d := true, a := true, pd := true } && a.d.isUni && a.a.isUni

/-- ERET with TOK 1 (16 R420). -/
def eretTok (a : SArgs) (mode : Nat) : Bool :=
  a.ok { d := true, a := true, b := true, pd := true, sfn := 3 } && a.d.isUni && a.a.isUni &&
  (a.b == .vz || a.b.uniRange 4) && a.sfn.toNat == 4 + mode

/-- Every check of a word that the word alone decides; events are well formed. -/
def wellFormed : Instr → Bool
  | .nop a => a.ok {}
  | .bra a => a.g.ok && a.d == .vz && a.a == .vz
  | .brx a => a.g.ok && a.d == .vz && a.a.isUni
  | .call a => a.g.ok && a.d.isUni && a.a == .vz
  | .callx a => a.g.ok && a.d.isUni && a.a.isUni
  | .ret a => a.g.ok && a.d == .vz && a.a.isUni && a.disp == 0
  | .split a => a.g.isTrue && a.d == .vz && a.a == .vz
  | .join a => a.g.isTrue && a.d == .vz && a.a == .vz && a.disp == 0
  | .exit a => a.g.ok && a.d == .vz && a.a == .vz && a.disp == 0
  | .yield a => a.ok { sfn := 10 }
  | .pcmpi a => a.ok srcAB && a.d == .vz && (a.ty.isArith || a.ty == .b32) && a.a.sizeOk a.ty.wide &&
      a.b.sizeOk a.ty.wide && cmpOk a.fn (if a.ty == .b32 then 1 else 5)
  | .pcmpf a => a.ok { fAB with ftzi := true } && a.d == .vz && (a.ty == .f32 || a.ty == .f64 || isH a.ty) &&
      a.a.sizeOk a.ty.wide && a.b.sizeOk a.ty.wide && cmpOk a.fn 13
  | .plog a => a.ok {} && a.d == .vz && a.ty == .b32 && predPair (fnBits a.fn 0 4) (fnBits a.fn 12 4)
  | .pmovPack a => pmovOk a 0
  | .pmovUnpack a => pmovOk a 1
  | .pmovSet a => pmovOk a 2
  | .voteAll a => voteOk a 0
  | .voteAny a => voteOk a 1
  | .voteUni a => voteOk a 2
  | .voteBallot a => voteOk a 3
  | .voteCount a => voteOk a 4
  | .rdsr a => rdsrOk a
  | .wrsr a => a.ok { a := true, sfn := 8 } && a.a.isUniImm && 0x10 ≤ a.sfn.toNat && a.sfn.toNat ≤ 0x14
  | .grow a => a.ok { a := true } && a.a.isUniImm
  | .shrink a => a.ok { a := true } && a.a.isUniImm
  | .clock a => a.ok { d := true, sfn := 2 } && a.d.isUni
  | .bpt a => a.ok { sfn := 16 }
  | .mov a => a.ok srcA && (a.ty == .b32 || a.ty == .w64) && a.a.sizeOk a.ty.wide && a.fn.toNat < 2 &&
      (if a.fn.toNat == 1 then a.d.isUni else a.destOk srcA a.ty.wide)
  | .movi a => a.g.ok && (a.ty == .b32 || a.ty == .i32 || a.ty == .w32 || a.ty == .f32 || a.ty == .i64 || a.ty == .w64) &&
      (a.d.isUni || a.d.laneDest a.ty.wide)
  | .moviHi a => a.g.ok && a.ty == .w64 && (a.d.isUni || a.d.laneDest true)
  | .sel a => a.ok srcAB && (a.ty == .b32 || a.ty == .w64) && a.d.laneDest a.ty.wide && a.a.sizeOk a.ty.wide &&
      a.b.sizeOk a.ty.wide && a.fn.toNat < 32
  | .iadd a => addOk a
  | .isub a => addOk a
  | .imul a => intOk a { srcAB with sat := true } a.ty.isArith 0
  | .imulh a => intOk a srcAB (a.ty == .i32 || a.ty == .w32 || a.ty == .i64 || a.ty == .w64) 0
  | .imad a =>
      if a.fn.toNat == 1 then a.ok { srcABC with sat := true } && (a.ty == .i32 || a.ty == .w32) &&
        a.destOk srcABC true && a.c.sizeOk true
      else intOk a { srcABC with sat := true } a.ty.isArith 0
  | .imin a => intOk a srcAB a.ty.isArith 0
  | .imax a => intOk a srcAB a.ty.isArith 0
  | .iabs a => intOk a { srcA with sat := true } (a.ty.isI && a.ty != .i4) 0
  | .idiv a => intOk a { srcAB with sat := a.ty.isI } a.ty.isArith 0
  | .irem a => intOk a srcAB a.ty.isArith 0
  | .lop3 a => intOk a srcABC (a.ty == .b32 || a.ty == .w64) 8
  | .and a => intOk a srcAB (a.ty == .b32 || a.ty == .w64) 0
  | .or a => intOk a srcAB (a.ty == .b32 || a.ty == .w64) 0
  | .xor a => intOk a srcAB (a.ty == .b32 || a.ty == .w64) 0
  | .not a => intOk a srcA (a.ty == .b32 || a.ty == .w64) 0
  | .shl a => ctlOk a srcAB (a.ty == .b32 || a.ty == .i32 || a.ty == .w32 || a.ty == .i64 || a.ty == .w64) false 1
  | .shr a => ctlOk a srcAB (a.ty == .b32 || a.ty == .i32 || a.ty == .w32 || a.ty == .i64 || a.ty == .w64) false 1
  | .sar a => ctlOk a srcAB (a.ty == .b32 || a.ty == .i32 || a.ty == .w32 || a.ty == .i64 || a.ty == .w64) false 1
  | .rotl a => ctlOk a srcAB (a.ty == .b32 || a.ty == .i32 || a.ty == .w32 || a.ty == .i64 || a.ty == .w64) false 0
  | .funsh a => ctlOk a srcABC (a.ty == .b32) true 2
  | .bfx a => ctlOk a srcAB (a.ty == .i32 || a.ty == .w32 || a.ty == .i64 || a.ty == .w64) false 0
  | .bfi a => ctlOk a srcABC (a.ty == .b32 || a.ty == .w64) true 0
  | .popc a => a.ok srcA && (a.ty == .b32 || a.ty == .w64) && a.destOk srcA false && a.a.sizeOk a.ty.wide && a.fn == 0
  | .clz a => a.ok srcA && (a.ty == .b32 || a.ty == .w64) && a.destOk srcA false && a.a.sizeOk a.ty.wide && a.fn == 0
  | .brev a => intOk a srcA (a.ty == .b32 || a.ty == .w64) 0
  | .idot4 a => intOk a { srcABC with sat := true } (a.ty == .i32 || a.ty == .w32) 3
  | .xset a => a.ok { srcA with sat := true } && a.d == .vz && a.ty == .i16 && a.fn.toNat < 8
  | .xadd a => a.ok { srcA with sat := true } && a.d == .vz && a.ty == .i16 && a.fn.toNat < 8
  | .xget a => a.ok {} && a.d.isLaneVz && a.ty == .i16 && a.fn.toNat < 8
  | .shfl a => shflOk a
  | .redux a => reduxOk a
  | .scan a => scanOk a
  | .matchLanes a => matchOk a
  | .prmt a => ctlOk a srcABC (a.ty == .b32) true 0
  | .fadd a => fltOk a fAB.full (a.ty == .f32 || isH a.ty) 0
  | .fsub a => fltOk a fAB.full (a.ty == .f32 || isH a.ty) 0
  | .fmul a => fltOk a fAB.full (a.ty == .f32 || isH a.ty) 0
  | .ffma a => fltOk a fABC.full (a.ty == .f32 || isH a.ty) 0
  | .fmin a => fltOk a { fAB with ftzi := true } (a.ty == .f64 || a.ty == .f32 || isH a.ty) 0
  | .fmax a => fltOk a { fAB with ftzi := true } (a.ty == .f64 || a.ty == .f32 || isH a.ty) 0
  | .fclass a => a.ok srcA && (a.ty == .f64 || a.ty == .f32 || isH a.ty || a.ty == .f8e4 || a.ty == .f8e5) &&
      a.destOk srcA false && a.a.sizeOk a.ty.wide && fnBits a.fn 14 6 == 0 &&
      (fnBits a.fn 10 4 != 0 || fnBits a.fn 0 10 == 0)
  | .frcp a => approxOk a
  | .frsq a => approxOk a
  | .fsqrt a => fltOk a fA.full (a.ty == .f64 || a.ty == .f32) 0
  | .fdiv a => fltOk a fAB.full (a.ty == .f64 || a.ty == .f32) 0
  | .fexp2 a => approxOk a
  | .flog2 a => approxOk a
  | .fsin a => approxOk a
  | .fcos a => approxOk a
  | .ftanh a => approxOk a
  | .hadd2 a => fltOk a fAB.full (isH2 a.ty) 2
  | .hmul2 a => fltOk a fAB.full (isH2 a.ty) 2
  | .hfma2 a => fltOk a fABC.full (isH2 a.ty) 2
  | .hmin2 a => fltOk a { fAB with ftzi := true } (isH2 a.ty) 2
  | .hmax2 a => fltOk a { fAB with ftzi := true } (isH2 a.ty) 2
  | .dadd a => fltOk a fAB.full (a.ty == .f64) 0
  | .dmul a => fltOk a fAB.full (a.ty == .f64) 0
  | .dfma a => fltOk a fABC.full (a.ty == .f64) 0
  | .cvt a => cvtOk a
  | .cvtpk a => cvtpkOk a
  | .frnd a => fltOk a { fA with rnd := true, ftzi := true } (a.ty == .f64 || a.ty == .f32 || isH a.ty) 0
  | .fscl a => ctlOk a ({ fA with ub := true } : RAdmit).full (a.ty == .f64 || a.ty == .f32 || isH a.ty) false 1
  | .fdot2 a => fltOk a fABC.full (isH2 a.ty) 0
  | .brset a => a.ok { a := true, pd := true, sfn := 4 } && a.a.uniRange 4
  | .brget a => a.ok { d := true, sfn := 4 } && a.d.uniRange 4
  | .ld a => a.g.ok && isLdOrd a.ord && loadOk a && a.mfn == 0 && a.b == .vz && a.a.isIndex && ldDest a true
  | .st a => a.g.ok && isStOrd a.ord && loadOk a && a.mfn == 0 && a.b == .vz && a.a.isIndex && stData a
  | .ldx a => a.g.ok && isLdOrd a.ord && loadOk a && a.mfn == 0 && a.b.isIndex && a.a.isIndex && ldDest a true
  | .atom a => atomOk a
  | .atomc a => atomcOk a
  | .red a => a.g.ok && isStOrd a.ord && a.vec == .one && a.mfn != 6 && atomTy a.mfn.toNat a.ty && a.d == .vz &&
      a.a.isIndex && a.b.isIndex && a.b.sizeOk a.ty.wide
  | .lds a => a.g.ok && isLdOrd a.ord && isCrewScope a.scope && loadOk a && spSize a && a.mfn == 0 && a.br == 0 &&
      a.b == .vz && a.a.isIndex && ldDest a true
  | .sts a => a.g.ok && isStOrd a.ord && isCrewScope a.scope && loadOk a && spSize a && a.mfn == 0 && a.br == 0 &&
      a.b == .vz && a.a.isIndex && stData a
  | .atoms a => atomOk a && isCrewScope a.scope && a.br == 0
  | .ldq a => a.g.ok && isLdOrd a.ord && (isCrewScope a.scope || a.scope == .squad) && loadOk a && spSize a &&
      a.mfn == 0 && a.br == 0 && a.b.isUniImm && a.a.isIndex && ldDest a false
  | .stq a => a.g.ok && isStOrd a.ord && (isCrewScope a.scope || a.scope == .squad) && loadOk a && spSize a &&
      a.mfn == 0 && a.br == 0 && a.b.isUniImm && a.a.isIndex && stData a
  | .pref a => lineOk a 2 false
  | .pin a => lineOk a 15 false
  | .unpin a => lineOk a 0 false
  | .cinv a => lineOk a 0 false
  | .cflush a => lineOk a 1 false
  | .icinv a => lineOk a 1 true
  | .tdecl a => a.ok { ta := true, a := true } && a.a.isUni && a.ty.isSome && a.tfn == 0
  | .tfree a => a.ok { ta := true } && a.ty == none && a.tfn == 0
  | .tfill a => a.ok { ta := true, a := true, b := true, br := true, cc := true } && a.a.isUniImm && a.b.isUniImm &&
      a.ty == none && a.tfn == 0
  | .tmcast a => a.ok { ta := true, a := true, b := true, d := true, br := true, cc := true } && a.d.uniRange 3 &&
      a.a.isUniImm && a.b.isUniImm && a.ty == none && a.tfn == 0
  | .tdrain a => a.ok { ta := true, a := true, b := true, br := true, cc := true } && a.a.isUniImm && a.b.isUniImm &&
      a.ty == none && a.tfn == 0
  | .tstat a => a.ok { ta := true, d := true } && a.d.isUni && a.ty == none && a.tfn.toNat < 2
  | .cpyt a => a.ok { a := true, br := true, cc := true } && a.a.isUni && a.ty == none && a.tfn.toNat < 16
  | .cpyz a => a.ok { a := true, br := true, cc := true } && a.a.isUni && a.ty == none && a.tfn.toNat < 16
  | .wsld a => a.ok { d := true, a := true } && a.d.isUni && a.a.isUni && a.ty == none && a.tfn == 0
  | .wswin a => a.ok { d := true, a := a.sfn == 1, sfn := 1 } && a.d.isUni && (a.sfn == 0 || a.a.isUniImm)
  | .ldw a => a.ok { ta := true, a := true } && a.a.isUniImm && isWtTy a.ty && fnBits a.tfn 0 1 == 0 &&
      fnBits a.tfn 2 16 == 0
  | .ldwWs a => a.ok { a := true } && a.a.isUni && isWtTy a.ty && fnBits a.tfn 0 1 == 1 && fnBits a.tfn 2 16 == 0
  | .swpw a => a.ok {} && a.ty == none && a.tfn == 0
  | .mma a => mmaOk a
  | .mmas a => mmaOk a
  | .aclr a => a.ok { acc := true } && a.ty == none && fnBits a.tfn 14 4 == 0 && rowsOk a.tfn
  | .ald a => a.ok { ta := true, acc := true, a := true } && a.a.isUniImm && a.ty == none && fnBits a.tfn 14 4 == 0 &&
      rowsOk a.tfn
  | .amov a => a.ok { acc := true, d := true, rnd := true, sat := true, ftzo := true } && a.d.isLaneVz &&
      amovTy a && fnBits a.tfn 0 7 == 0 && fnBits a.tfn 14 1 == 0 && fnBits a.tfn 17 1 == 0
  | .amovTile a => a.ok { ta := true, acc := true, a := true, rnd := true, sat := true, ftzo := true } &&
      a.a.isUniImm && amovTy a && fnBits a.tfn 14 1 == 1 && fnBits a.tfn 17 1 == 0 && rowsOk a.tfn
  | .scacc a => a.ok { ta := true, tb := true, acc := true, ftzo := true } && (a.ty == some .e8 || a.ty == some .f32) &&
      rowsOk a.tfn
  | .wstat a => a.ok { d := true } && a.d.isUni && a.ty == none && a.tfn.toNat < 2
  | .fence a => a.ok { sfn := 5 } && fnBits a.sfn 0 2 != 0 && fnBits a.sfn 2 3 ≤ 4
  | .bar a => a.ok {}
  | .barq a => a.ok {}
  | .arrive a => a.ok { d := true, sfn := 1 } && a.d.uniOrNone
  | .await a => a.ok { a := true, pd := fnBits a.sfn 1 1 == 1, sfn := 2 } && a.a.isUni
  | .stgrel a => a.ok { a := true, sfn := 2 } && a.a.isUniImm
  | .stgacq a => a.ok { a := true, b := true, pd := fnBits a.sfn 2 1 == 1, sfn := 3 } && a.a.isUniImm && a.b.isUniImm
  | .wait a => a.ok { a := true, sfn := 13 } && a.a.uniOrNone && fnBits a.sfn 0 5 != 0 &&
      (a.a == .vz || fnBits a.sfn 5 8 == 0)
  | .cntrd a => a.ok { d := true, sfn := 3 } && a.d.isUni && a.sfn.toNat ≤ 5
  | .sleep a => a.ok { a := true, pd := true, sfn := 1 } && a.a.isUniImm
  | .tagnew a => tagOk a { d := true, pd := true } 0 false && a.d.isUni
  | .tagset a => tagOk a { a := true } 0 false && a.a.isUniImm
  | .tagget a => tagOk a { d := true } 0 true && a.d.isUni
  | .tagret a => tagOk a { a := true } 0 false && a.a.isUniImm
  | .tagqryFree a => tagOk a { d := true } 0 false && a.d.isUni
  | .tagqryTag a => tagOk a { d := true, a := true } 1 false && a.d.isUni && a.a.isUniImm
  | .tagqryPool a => tagOk a { d := true, a := true } 2 false && a.d.isUni && a.a.isUniImm
  | .msdecl a => a.ok { d := true, a := true, b := true, pd := true } && a.d.isUni && a.a.uniRange 2 && a.b.isUniImm
  | .msdeclRec a => a.ok { d := true, b := true, pd := true, sfn := 5 } && a.d.isUni && a.b.isUniImm &&
      fnBits a.sfn 0 1 == 1
  | .msdrop a => a.ok { d := true, a := true, pd := true } && a.d.uniOrNone && a.a.isUniImm
  | .msqryCap a => a.ok { d := true, sfn := 2 } && a.d.isUni && a.sfn == 0
  | .msqryItem a => a.ok { d := true, a := true, sfn := 2 } && a.d.isUni && a.a.isUniImm && a.sfn == 1
  | .msqryRst a => a.ok { d := true, a := true, sfn := 2 } && a.d.isUni && a.a.isUniImm && a.sfn == 2
  | .msqryLost a => a.ok { d := true, sfn := 2 } && a.d.isUni && a.sfn == 3
  | .pfret a => a.ok {}
  | .syscall a => a.ok {}
  | .trap a => a.ok { sfn := 16 }
  | .eretRetry a => a.ok { sfn := 3 } && a.sfn == 0
  | .eretSkip a => a.ok { sfn := 3 } && a.sfn == 1
  | .eretKill a => a.ok { sfn := 3 } && a.sfn == 2
  | .eretResume a => eretTok a 0
  | .eretDecline a => eretTok a 1
  | .eretAbort a => eretTok a 2
  | .launch a => a.ok { d := true, a := true, b := true, pd := true } && a.d.isUni && a.a.isUniImm && a.b.isUni
  | .evsig a => a.ok { a := true, b := true, sfn := 45 } && a.sfn == 0 && a.a.isUniImm && a.a.immNonNeg && a.b.isUniImm
  | .evsigClr a => a.ok { a := true, sfn := 45 } && a.sfn.toNat == 2 ^ 44 && a.a.isUniImm && a.a.immNonNeg
  | .evwait a => a.ok { d := true, a := true, b := true, pd := true, sfn := 45 } && a.sfn == 0 && a.d.uniOrNone &&
      a.a.isUniImm && a.a.immNonNeg && a.b.isUniImm
  | .evwaitTry a => a.ok { d := true, a := true, b := true, pd := true, sfn := 45 } && a.sfn.toNat == 2 ^ 44 &&
      a.d.uniOrNone && a.a.isUniImm && a.a.immNonNeg && a.b.isUniImm && a.pd != 0
  | .lease a => a.ok { d := true, b := true, sfn := 45 } && fnBits a.sfn 0 44 == 0 && a.d.uniOrNone && a.b.isUniImm
  | .unlease a => a.ok { sfn := 45 } && fnBits a.sfn 0 44 == 0
  | .tlbinv a => tlbOk a 0
  | .tlbinvAll a => tlbOk a 1
  | .tlbinvAp a => tlbOk a 2
  | .encreate a => sysOk a
  | .enadd a => a.ok { d := true, a := true, b := true, pd := true } && a.d.isUni && a.a.isUni && a.b.isUni
  | .enseal a => sysOk a
  | .enenter a => a.ok { d := true, a := true, b := true, pd := true } && a.d.isUni && a.a.isUni && a.b.isUniImm
  | .enexit a => a.ok {}
  | .enpgout a => sysOk a
  | .enpgin a => sysOk a
  | .enkill a => sysOk a
  | .tsavePart a => a.ok { d := true, a := true, pd := true, sfn := 1 } && a.d.isUni && a.a.isUniImm && a.sfn == 0
  | .tsaveExport a => a.ok { d := true, a := true, pd := true, sfn := 1 } && a.d.isUni && a.a.isUni && a.sfn == 1
  | .trestPart a => a.ok { d := true, a := true, pd := true, sfn := 1 } && a.d.isUni && a.a.isUniImm && a.sfn == 0
  | .trestImport a => a.ok { d := true, a := true, pd := true, sfn := 1 } && a.d.isUni && a.a.isUni && a.sfn == 1
  | .growGrant _ => true
  | .cellSlotGrant _ => true
  | .tagexhTimeout _ => true
  | .tileStateWaitEnd _ => true
  | .tfillComplete _ => true
  | .tdrainComplete _ => true
  | .tmcastDelivery _ _ => true
  | .tmcastRetire _ => true
  | .copyOpRetire _ => true
  | .weightStoreRefresh _ => true
  | .matrixOpRetire _ => true
  | .awaitWake _ => true
  | .stgacqWake _ => true
  | .waitWake _ => true
  | .sleepEnd _ => true
  | .tagnewGrant _ => true
  | .tagnewTimeout _ => true
  | .tagCellFree _ _ => true
  | .queueTailPoll _ => true
  | .evwaitWake _ => true
  | .enclaveDeparture _ => true
  | .crewPlacement _ => true
  | .placementAged _ => true
  | .teamAged _ => true
  | .teamRetire _ => true
  | .fixtureRetire _ => true
  | .deadlineExpiry _ => true
  | .calendarSlotStart _ _ => true
  | .leasePeriodBoundary => true
  | .walkBatchAged _ => true
  | .collectiveRetire _ => true
  | .uwcAck _ => true
  | .apertureRequestFail _ _ => true
  | .controlThreadNotice _ => true
  | .correctedError _ => true
  | .unitTestComplete _ _ => true
  | .scoreHalving => true
  | .pcfg _ => true
  | .prel _ => true
  | .pqry _ => true
  | .spdmx _ => true
  | .pmapMap _ => true
  | .pmapUnmap _ => true
  | .pmapAddAlias _ => true
  | .pmapRemoveAlias _ => true
  | .apset _ => true
  | .cpoolAdd _ => true
  | .cpoolRemove _ => true
  | .calsetArm _ => true
  | .calsetDisarm _ => true
  | .lpset _ => true
  | .cqset _ => true
  | .pdbindBind _ => true
  | .pdbindUnbind _ => true
  | .bssetCreate _ => true
  | .bssetDestroy _ => true
  | .crset _ => true
  | .fqset _ => true
  | .ctset _ => true
  | .osfatal _ => true
  | .bbrd _ => true
  | .hqry _ => true
  | .monitorRequestUnknown _ _ => true
  | .getVersion _ => true
  | .getCapabilities _ => true
  | .negotiateAlgorithms _ => true
  | .getDigests _ => true
  | .getCertificate _ _ _ _ => true
  | .challenge _ _ _ => true
  | .getMeasurements _ _ _ _ => true
  | .keyExchange _ _ => true
  | .finish _ _ => true
  | .endSession _ _ => true
  | .chunkSend _ _ _ _ _ => true
  | .chunkGet _ _ _ => true
  | .encreport _ _ _ => true
  | .spdmUnsupported _ _ => true
  | .fwmWrite _ _ _ => true
  | .fwlockWrite _ _ => true
  | .pcieInboundRead _ _ _ _ => true
  | .pcieInboundWrite _ _ _ _ => true
  | .pcieInboundAtomic _ _ _ _ => true
  | .portUHotReset => true
  | .vfFlr _ => true
  | .tdiLeaveRun _ _ => true
  | .burraFlitReceive _ _ => true
  | .burraInboundRequest _ _ _ _ => true
  | .burraLaneGroupFail _ => true
  | .burraRekeyRequest _ _ => true
  | .burraSendStop _ _ => true
  | .burraKeyInstalled _ _ => true
  | .burraStreamFail _ _ => true
  | .ptpTimestamp _ => true
  | .ppsPulse => true
  | .timeStep _ => true
  | .syncLoss => true
  | .powerUp _ _ _ => true
  | .bankCharged => true
  | .resetN => true
  | .powerFail => true
  | .pfHandlerEntry _ => true
  | .pfHandlerBudget _ => true
  | .quiesceComplete => true
  | .saveComplete => true
  | .bankExhausted => true
  | .thermalTrip _ => true
  | .throttleDown _ _ _ => true
  | .throttleUp _ _ _ => true
  | .bankLow => true
  | .modstatWrite _ => true
  | .plimWrite _ => true
  | .yieldEnd _ => true
  | .portULinkDown => true
  | .tdispRequest _ _ _ => true
  | .ideKmRequest _ _ _ => true
  | .controlThreadRestart _ _ => true

end Sys2Proof
end

