-- ==== Sys2Proof/Decode.lean ====
section
/-! DEFINITION. From instruction words to instructions and back (06 R146-R156, R169). Decoding is total: an opcode that
the map does not list is rejected as ILLOP, every other word that is no instruction as ILLENC (06 R165, R167). Which
opcodes a core's profile lacks is in `Machine/Issue.lean`. -/
namespace Sys2Proof

/-- The two ways in which a word fails to decode (06 R165). -/
inductive DecErr where
  | illop | illenc
  deriving DecidableEq, Repr

/-! ## Codes -/

/-- The operand of a 9-bit code (06 R156); the codes 0x160 to 0x1BF are reserved. -/
def Operand.ofCode (c : Nat) : Option Operand :=
  if c < 0x100 then some (.v (BitVec.ofNat 8 c))
  else if c < 0x140 then some (.s (BitVec.ofNat 6 (c - 0x100)))
  else if c < 0x160 then some (.imm (BitVec.ofNat 5 (c - 0x140)))
  else if c < 0x1C0 then none
  else if c < 0x200 then some (.idx (BitVec.ofNat 3 ((c - 0x1C0) / 8)) (BitVec.ofNat 3 ((c - 0x1C0) % 8)))
  else none

/-- The code of an operand. -/
def Operand.code : Operand → Nat
  | .v r => r.toNat
  | .s r => 0x100 + r.toNat
  | .imm c => 0x140 + c.toNat
  | .idx k o => 0x1C0 + 8 * k.toNat + o.toNat

/-- RND codes (06 R163). -/
def Rnd.ofCode : Nat → Option Rnd
  | 0 => some .rne | 1 => some .rz | 2 => some .rd | 3 => some .ru | 4 => some .rna | 5 => some .sr | 7 => some .dyn
  | _ => none

def Rnd.code : Rnd → Nat
  | .rne => 0 | .rz => 1 | .rd => 2 | .ru => 3 | .rna => 4 | .sr => 5 | .dyn => 7

/-- ORD codes (06 R163). -/
def Ord4.ofCode : Nat → Option Ord4
  | 0 => some .rlx | 1 => some .acq | 2 => some .rel | 3 => some .ar
  | _ => none

def Ord4.code : Ord4 → Nat
  | .rlx => 0 | .acq => 1 | .rel => 2 | .ar => 3

/-- SCOPE codes (06 R163). -/
def Scope.ofCode : Nat → Option Scope
  | 0 => some .team | 1 => some .crew | 2 => some .squad | 3 => some .device | 4 => some .system
  | _ => none

def Scope.code : Scope → Nat
  | .team => 0 | .crew => 1 | .squad => 2 | .device => 3 | .system => 4

/-- VEC codes (06 R163). -/
def Vec.ofCode : Nat → Option Vec
  | 1 => some .one | 2 => some .two | 4 => some .four
  | _ => none

def Vec.code : Vec → Nat
  | .one => 1 | .two => 2 | .four => 4

/-- An element type, or none for the code 0 of a T-format word that uses no type. -/
def Ty.ofCode? (c : Nat) : Option (Option Ty) := if c = 0 then some none else (Ty.ofCode c).map some

def Ty.code? : Option Ty → Nat
  | none => 0
  | some t => t.code

/-! ## Fields of a word -/

/-- Bits [lo + n − 1 : lo] of a word. -/
def fld (w : Word96) (lo n : Nat) : Nat := fnBits w lo n

/-- One bit of a word. -/
def flag (w : Word96) (lo : Nat) : Bool := fld w lo 1 == 1

/-- A Bool as a bit. -/
def bit (b : Bool) : Nat := if b then 1 else 0

/-- The guard fields (06 R146). -/
def parseGuard (w : Word96) : Guard := { neg := flag w 85, p := BitVec.ofNat 4 (fld w 81 4) }

/-- R format (06 R149); HINT.CC and HINT.Z are zero (06 R148). -/
def parseR (w : Word96) : Option RArgs :=
  match Operand.ofCode (fld w 67 9), Operand.ofCode (fld w 58 9), Operand.ofCode (fld w 49 9),
        Operand.ofCode (fld w 40 9), Ty.ofCode (fld w 32 8), Rnd.ofCode (fld w 29 3) with
  | some d, some a, some b, some c, some ty, some rnd =>
    if fld w 79 2 = 0 && fld w 76 2 = 0 then
      some { g := parseGuard w, yield := flag w 78, d := d, a := a, b := b, c := c, ty := ty, rnd := rnd,
             ftzi := flag w 28, ftzo := flag w 27, sat := flag w 26, na := flag w 25, aa := flag w 24,
             nb := flag w 23, ab := flag w 22, nc := flag w 21, ac := flag w 20, fn := BitVec.ofNat 20 (fld w 0 20) }
    else none
  | _, _, _, _, _, _ => none

/-- I format of MOVI (06 R150, 09 R241): everything but FN3. -/
def parseI (w : Word96) : Option IArgs :=
  match Operand.ofCode (fld w 67 9), Ty.ofCode (fld w 32 8) with
  | some d, some ty =>
    if fld w 79 2 = 0 && fld w 76 2 = 0 && fld w 58 9 = 0xFF && fld w 49 9 = 0x1FF && fld w 43 6 = 0 then
      some { g := parseGuard w, yield := flag w 78, d := d, ty := ty, imm := BitVec.ofNat 32 (fld w 0 32) }
    else none
  | _, _ => none

/-- M format (06 R151). -/
def parseM (w : Word96) : Option MArgs :=
  match Operand.ofCode (fld w 67 9), Operand.ofCode (fld w 58 9), Operand.ofCode (fld w 49 9),
        Ord4.ofCode (fld w 42 3), Scope.ofCode (fld w 39 3), Vec.ofCode (fld w 36 3), Ty.ofCode (fld w 28 8) with
  | some d, some a, some b, some ord, some scope, some vec, some ty =>
    if fld w 76 2 = 0 then
      some { g := parseGuard w, cc := BitVec.ofNat 2 (fld w 79 2), yield := flag w 78, d := d, a := a, b := b,
             br := BitVec.ofNat 4 (fld w 45 4), ord := ord, scope := scope, vec := vec, ty := ty,
             mfn := BitVec.ofNat 4 (fld w 24 4), disp := BitVec.ofNat 24 (fld w 0 24) }
    else none
  | _, _, _, _, _, _, _ => none

/-- B format (06 R152, 07 R190): B is 0x0FF, bit 48 and FN are zero. -/
def parseB (w : Word96) : Option BArgs :=
  match Operand.ofCode (fld w 67 9), Operand.ofCode (fld w 58 9) with
  | some d, some a =>
    if fld w 79 2 = 0 && fld w 76 2 = 0 && fld w 49 9 = 0xFF && fld w 48 1 = 0 && fld w 0 16 = 0 then
      some { g := parseGuard w, yield := flag w 78, d := d, a := a, disp := BitVec.ofNat 32 (fld w 16 32) }
    else none
  | _, _ => none

/-- T format (06 R153). -/
def parseT (w : Word96) : Option TArgs :=
  match Operand.ofCode (fld w 67 9), Operand.ofCode (fld w 58 9), Operand.ofCode (fld w 49 9),
        Ty.ofCode? (fld w 27 8), Rnd.ofCode (fld w 24 3) with
  | some d, some a, some b, some ty, some rnd =>
    if fld w 76 2 = 0 then
      some { g := parseGuard w, cc := BitVec.ofNat 2 (fld w 79 2), yield := flag w 78, d := d, a := a, b := b,
             ta := BitVec.ofNat 6 (fld w 43 6), tb := BitVec.ofNat 6 (fld w 37 6), acc := BitVec.ofNat 2 (fld w 35 2),
             ty := ty, rnd := rnd, sat := flag w 23, br := BitVec.ofNat 4 (fld w 19 4), ftzo := flag w 18,
             tfn := BitVec.ofNat 18 (fld w 0 18) }
    else none
  | _, _, _, _, _ => none

/-- S format (06 R154); the whole HINT field is zero (06 R148). -/
def parseS (w : Word96) : Option SArgs :=
  match Operand.ofCode (fld w 67 9), Operand.ofCode (fld w 58 9), Operand.ofCode (fld w 49 9) with
  | some d, some a, some b =>
    if fld w 76 5 = 0 then
      some { g := parseGuard w, d := d, a := a, b := b, pd := BitVec.ofNat 4 (fld w 45 4),
             sfn := BitVec.ofNat 45 (fld w 0 45) }
    else none
  | _, _, _ => none

/-! ## Words -/

/-- OP, the guard, HINT and the three operand fields (06 R146), above the extension `ext`. -/
def packHead (op : Nat) (g : Guard) (cc : Nat) (yield : Bool) (d a b ext : Nat) : Word96 :=
  BitVec.ofNat 96 (op * 2 ^ 86 + bit g.neg * 2 ^ 85 + g.p.toNat * 2 ^ 81 + cc * 2 ^ 79 + bit yield * 2 ^ 78 +
    d * 2 ^ 67 + a * 2 ^ 58 + b * 2 ^ 49 + ext)

def packR (op : Nat) (a : RArgs) : Word96 :=
  packHead op a.g 0 a.yield a.d.code a.a.code a.b.code
    (a.c.code * 2 ^ 40 + a.ty.code * 2 ^ 32 + a.rnd.code * 2 ^ 29 + bit a.ftzi * 2 ^ 28 + bit a.ftzo * 2 ^ 27 +
     bit a.sat * 2 ^ 26 + bit a.na * 2 ^ 25 + bit a.aa * 2 ^ 24 + bit a.nb * 2 ^ 23 + bit a.ab * 2 ^ 22 +
     bit a.nc * 2 ^ 21 + bit a.ac * 2 ^ 20 + a.fn.toNat)

def packI (op fn3 : Nat) (a : IArgs) : Word96 :=
  packHead op a.g 0 a.yield a.d.code 0xFF 0x1FF (fn3 * 2 ^ 40 + a.ty.code * 2 ^ 32 + a.imm.toNat)

def packM (op : Nat) (a : MArgs) : Word96 :=
  packHead op a.g a.cc.toNat a.yield a.d.code a.a.code a.b.code
    (a.br.toNat * 2 ^ 45 + a.ord.code * 2 ^ 42 + a.scope.code * 2 ^ 39 + a.vec.code * 2 ^ 36 + a.ty.code * 2 ^ 28 +
     a.mfn.toNat * 2 ^ 24 + a.disp.toNat)

def packB (op : Nat) (a : BArgs) : Word96 :=
  packHead op a.g 0 a.yield a.d.code a.a.code 0xFF (a.disp.toNat * 2 ^ 16)

def packT (op : Nat) (a : TArgs) : Word96 :=
  packHead op a.g a.cc.toNat a.yield a.d.code a.a.code a.b.code
    (a.ta.toNat * 2 ^ 43 + a.tb.toNat * 2 ^ 37 + a.acc.toNat * 2 ^ 35 + Ty.code? a.ty * 2 ^ 27 + a.rnd.code * 2 ^ 24 +
     bit a.sat * 2 ^ 23 + a.br.toNat * 2 ^ 19 + bit a.ftzo * 2 ^ 18 + a.tfn.toNat)

def packS (op : Nat) (a : SArgs) : Word96 :=
  packHead op a.g 0 false a.d.code a.a.code a.b.code (a.pd.toNat * 2 ^ 45 + a.sfn.toNat)

/-! ## The opcode map (06 R169) -/

/-- A decoded word is an instruction when it is well formed, and ILLENC otherwise. -/
def finish (i : Option Instr) : Except DecErr Instr :=
  match i with
  | none => .error .illenc
  | some i => if wellFormed i then .ok i else .error .illenc

/-- PMOV: the sub-operation by its mode bits. -/
def pickPmov (a : RArgs) : Option Instr :=
  match fnBits a.fn 0 2 with
  | 0 => some (.pmovPack a)
  | 1 => some (.pmovUnpack a)
  | 2 => some (.pmovSet a)
  | _ => none

/-- VOTE: the sub-operation by its mode bits. -/
def pickVote (a : RArgs) : Option Instr :=
  match fnBits a.fn 0 3 with
  | 0 => some (.voteAll a)
  | 1 => some (.voteAny a)
  | 2 => some (.voteUni a)
  | 3 => some (.voteBallot a)
  | 4 => some (.voteCount a)
  | _ => none

/-- LDW: the sub-operation by its mode bits. -/
def pickLdw (a : TArgs) : Option Instr :=
  match fnBits a.tfn 0 1 with
  | 0 => some (.ldw a)
  | 1 => some (.ldwWs a)
  | _ => none

/-- AMOV: the sub-operation by its mode bits. -/
def pickAmov (a : TArgs) : Option Instr :=
  match fnBits a.tfn 14 1 with
  | 0 => some (.amov a)
  | 1 => some (.amovTile a)
  | _ => none

/-- TAGQRY: the sub-operation by its mode bits. -/
def pickTagqry (a : SArgs) : Option Instr :=
  match fnBits a.sfn 38 2 with
  | 0 => some (.tagqryFree a)
  | 1 => some (.tagqryTag a)
  | 2 => some (.tagqryPool a)
  | _ => none

/-- MSDECL: the sub-operation by its mode bits. -/
def pickMsdecl (a : SArgs) : Option Instr :=
  match fnBits a.sfn 0 1 with
  | 0 => some (.msdecl a)
  | 1 => some (.msdeclRec a)
  | _ => none

/-- MSQRY: the sub-operation by its mode bits. -/
def pickMsqry (a : SArgs) : Option Instr :=
  match fnBits a.sfn 0 2 with
  | 0 => some (.msqryCap a)
  | 1 => some (.msqryItem a)
  | 2 => some (.msqryRst a)
  | 3 => some (.msqryLost a)
  | _ => none

/-- ERET: the sub-operation by its mode bits. -/
def pickEret (a : SArgs) : Option Instr :=
  match fnBits a.sfn 0 3 with
  | 0 => some (.eretRetry a)
  | 1 => some (.eretSkip a)
  | 2 => some (.eretKill a)
  | 4 => some (.eretResume a)
  | 5 => some (.eretDecline a)
  | 6 => some (.eretAbort a)
  | _ => none

/-- EVSIG: the sub-operation by its mode bits. -/
def pickEvsig (a : SArgs) : Option Instr :=
  match fnBits a.sfn 44 1 with
  | 0 => some (.evsig a)
  | 1 => some (.evsigClr a)
  | _ => none

/-- EVWAIT: the sub-operation by its mode bits. -/
def pickEvwait (a : SArgs) : Option Instr :=
  match fnBits a.sfn 44 1 with
  | 0 => some (.evwait a)
  | 1 => some (.evwaitTry a)
  | _ => none

/-- TLBINV: the sub-operation by its mode bits. -/
def pickTlbinv (a : SArgs) : Option Instr :=
  match fnBits a.sfn 42 3 with
  | 0 => some (.tlbinv a)
  | 1 => some (.tlbinvAll a)
  | 2 => some (.tlbinvAp a)
  | _ => none

/-- TSAVE: the sub-operation by its mode bits. -/
def pickTsave (a : SArgs) : Option Instr :=
  match fnBits a.sfn 0 1 with
  | 0 => some (.tsavePart a)
  | 1 => some (.tsaveExport a)
  | _ => none

/-- TREST: the sub-operation by its mode bits. -/
def pickTrest (a : SArgs) : Option Instr :=
  match fnBits a.sfn 0 1 with
  | 0 => some (.trestPart a)
  | 1 => some (.trestImport a)
  | _ => none

/-- MOVI by FN3 (09 R241). -/
def pickMovi (fn3 : Nat) (a : IArgs) : Option Instr :=
  match fn3 with
  | 0 => some (.movi a)
  | 1 => some (.moviHi a)
  | _ => none

/-- The instruction that a word encodes. -/
def decodeWord (w : Word96) : Except DecErr Instr :=
  match fld w 86 10 with
  | 0x001 => finish ((parseS w).map .nop)
  | 0x002 => finish ((parseB w).map .bra)
  | 0x003 => finish ((parseB w).map .brx)
  | 0x004 => finish ((parseB w).map .call)
  | 0x005 => finish ((parseB w).map .callx)
  | 0x006 => finish ((parseB w).map .ret)
  | 0x007 => finish ((parseB w).map .split)
  | 0x008 => finish ((parseB w).map .join)
  | 0x009 => finish ((parseB w).map .exit)
  | 0x00A => finish ((parseS w).map .yield)
  | 0x00B => finish ((parseR w).map .pcmpi)
  | 0x00C => finish ((parseR w).map .pcmpf)
  | 0x00D => finish ((parseR w).map .plog)
  | 0x00E => finish ((parseR w).bind pickPmov)
  | 0x00F => finish ((parseR w).bind pickVote)
  | 0x010 => finish ((parseS w).map .rdsr)
  | 0x011 => finish ((parseS w).map .wrsr)
  | 0x012 => finish ((parseS w).map .grow)
  | 0x013 => finish ((parseS w).map .shrink)
  | 0x014 => finish ((parseS w).map .clock)
  | 0x015 => finish ((parseS w).map .bpt)
  | 0x040 => finish ((parseR w).map .mov)
  | 0x041 => finish ((parseI w).bind (pickMovi (fld w 40 3)))
  | 0x042 => finish ((parseR w).map .sel)
  | 0x043 => finish ((parseR w).map .iadd)
  | 0x044 => finish ((parseR w).map .isub)
  | 0x045 => finish ((parseR w).map .imul)
  | 0x046 => finish ((parseR w).map .imulh)
  | 0x047 => finish ((parseR w).map .imad)
  | 0x048 => finish ((parseR w).map .imin)
  | 0x049 => finish ((parseR w).map .imax)
  | 0x04A => finish ((parseR w).map .iabs)
  | 0x04B => finish ((parseR w).map .idiv)
  | 0x04C => finish ((parseR w).map .irem)
  | 0x04D => finish ((parseR w).map .lop3)
  | 0x04E => finish ((parseR w).map .and)
  | 0x04F => finish ((parseR w).map .or)
  | 0x050 => finish ((parseR w).map .xor)
  | 0x051 => finish ((parseR w).map .not)
  | 0x052 => finish ((parseR w).map .shl)
  | 0x053 => finish ((parseR w).map .shr)
  | 0x054 => finish ((parseR w).map .sar)
  | 0x055 => finish ((parseR w).map .rotl)
  | 0x056 => finish ((parseR w).map .funsh)
  | 0x057 => finish ((parseR w).map .bfx)
  | 0x058 => finish ((parseR w).map .bfi)
  | 0x059 => finish ((parseR w).map .popc)
  | 0x05A => finish ((parseR w).map .clz)
  | 0x05B => finish ((parseR w).map .brev)
  | 0x05C => finish ((parseR w).map .idot4)
  | 0x05D => finish ((parseR w).map .xset)
  | 0x05E => finish ((parseR w).map .xadd)
  | 0x05F => finish ((parseR w).map .xget)
  | 0x060 => finish ((parseR w).map .shfl)
  | 0x061 => finish ((parseR w).map .redux)
  | 0x062 => finish ((parseR w).map .scan)
  | 0x063 => finish ((parseR w).map .matchLanes)
  | 0x064 => finish ((parseR w).map .prmt)
  | 0x0C0 => finish ((parseR w).map .fadd)
  | 0x0C1 => finish ((parseR w).map .fsub)
  | 0x0C2 => finish ((parseR w).map .fmul)
  | 0x0C3 => finish ((parseR w).map .ffma)
  | 0x0C4 => finish ((parseR w).map .fmin)
  | 0x0C5 => finish ((parseR w).map .fmax)
  | 0x0C6 => finish ((parseR w).map .fclass)
  | 0x0C7 => finish ((parseR w).map .frcp)
  | 0x0C8 => finish ((parseR w).map .frsq)
  | 0x0C9 => finish ((parseR w).map .fsqrt)
  | 0x0CA => finish ((parseR w).map .fdiv)
  | 0x0CB => finish ((parseR w).map .fexp2)
  | 0x0CC => finish ((parseR w).map .flog2)
  | 0x0CD => finish ((parseR w).map .fsin)
  | 0x0CE => finish ((parseR w).map .fcos)
  | 0x0CF => finish ((parseR w).map .ftanh)
  | 0x0D0 => finish ((parseR w).map .hadd2)
  | 0x0D1 => finish ((parseR w).map .hmul2)
  | 0x0D2 => finish ((parseR w).map .hfma2)
  | 0x0D3 => finish ((parseR w).map .hmin2)
  | 0x0D4 => finish ((parseR w).map .hmax2)
  | 0x0D5 => finish ((parseR w).map .dadd)
  | 0x0D6 => finish ((parseR w).map .dmul)
  | 0x0D7 => finish ((parseR w).map .dfma)
  | 0x0D8 => finish ((parseR w).map .cvt)
  | 0x0D9 => finish ((parseR w).map .cvtpk)
  | 0x0DA => finish ((parseR w).map .frnd)
  | 0x0DB => finish ((parseR w).map .fscl)
  | 0x0DC => finish ((parseR w).map .fdot2)
  | 0x140 => finish ((parseS w).map .brset)
  | 0x141 => finish ((parseS w).map .brget)
  | 0x142 => finish ((parseM w).map .ld)
  | 0x143 => finish ((parseM w).map .st)
  | 0x144 => finish ((parseM w).map .ldx)
  | 0x145 => finish ((parseM w).map .atom)
  | 0x146 => finish ((parseM w).map .atomc)
  | 0x147 => finish ((parseM w).map .red)
  | 0x148 => finish ((parseM w).map .lds)
  | 0x149 => finish ((parseM w).map .sts)
  | 0x14A => finish ((parseM w).map .atoms)
  | 0x14B => finish ((parseM w).map .ldq)
  | 0x14C => finish ((parseM w).map .stq)
  | 0x14D => finish ((parseM w).map .pref)
  | 0x14E => finish ((parseM w).map .pin)
  | 0x14F => finish ((parseM w).map .unpin)
  | 0x150 => finish ((parseM w).map .cinv)
  | 0x151 => finish ((parseM w).map .cflush)
  | 0x152 => finish ((parseM w).map .icinv)
  | 0x153 => finish ((parseT w).map .tdecl)
  | 0x154 => finish ((parseT w).map .tfree)
  | 0x155 => finish ((parseT w).map .tfill)
  | 0x156 => finish ((parseT w).map .tmcast)
  | 0x157 => finish ((parseT w).map .tdrain)
  | 0x158 => finish ((parseT w).map .tstat)
  | 0x159 => finish ((parseT w).map .cpyt)
  | 0x15A => finish ((parseT w).map .cpyz)
  | 0x15B => finish ((parseT w).map .wsld)
  | 0x15C => finish ((parseS w).map .wswin)
  | 0x1C0 => finish ((parseT w).bind pickLdw)
  | 0x1C1 => finish ((parseT w).map .swpw)
  | 0x1C2 => finish ((parseT w).map .mma)
  | 0x1C3 => finish ((parseT w).map .mmas)
  | 0x1C4 => finish ((parseT w).map .aclr)
  | 0x1C5 => finish ((parseT w).bind pickAmov)
  | 0x1C6 => finish ((parseT w).map .ald)
  | 0x1C7 => finish ((parseT w).map .scacc)
  | 0x1C8 => finish ((parseT w).map .wstat)
  | 0x200 => finish ((parseS w).map .fence)
  | 0x201 => finish ((parseS w).map .bar)
  | 0x202 => finish ((parseS w).map .barq)
  | 0x203 => finish ((parseS w).map .arrive)
  | 0x204 => finish ((parseS w).map .await)
  | 0x205 => finish ((parseS w).map .stgrel)
  | 0x206 => finish ((parseS w).map .stgacq)
  | 0x207 => finish ((parseS w).map .wait)
  | 0x208 => finish ((parseS w).map .cntrd)
  | 0x209 => finish ((parseS w).map .sleep)
  | 0x240 => finish ((parseS w).map .tagnew)
  | 0x241 => finish ((parseS w).map .tagset)
  | 0x242 => finish ((parseS w).map .tagget)
  | 0x243 => finish ((parseS w).map .tagret)
  | 0x244 => finish ((parseS w).bind pickTagqry)
  | 0x245 => finish ((parseS w).bind pickMsdecl)
  | 0x246 => finish ((parseS w).map .msdrop)
  | 0x247 => finish ((parseS w).bind pickMsqry)
  | 0x248 => finish ((parseS w).map .pfret)
  | 0x280 => finish ((parseS w).map .syscall)
  | 0x281 => finish ((parseS w).map .trap)
  | 0x282 => finish ((parseS w).bind pickEret)
  | 0x283 => finish ((parseS w).map .launch)
  | 0x284 => finish ((parseS w).bind pickEvsig)
  | 0x285 => finish ((parseS w).bind pickEvwait)
  | 0x286 => finish ((parseS w).bind pickTlbinv)
  | 0x287 => finish ((parseS w).map .encreate)
  | 0x288 => finish ((parseS w).map .enadd)
  | 0x289 => finish ((parseS w).map .enseal)
  | 0x28A => finish ((parseS w).map .enenter)
  | 0x28B => finish ((parseS w).map .enexit)
  | 0x28C => finish ((parseS w).map .enpgout)
  | 0x28D => finish ((parseS w).map .enpgin)
  | 0x28E => finish ((parseS w).map .enkill)
  | 0x28F => finish ((parseS w).bind pickTsave)
  | 0x290 => finish ((parseS w).bind pickTrest)
  | 0x291 => finish ((parseS w).map .lease)
  | 0x292 => finish ((parseS w).map .unlease)
  | _ => .error .illop

/-- The opcode of an instruction (06 R169); none for an event. -/
def opcode : Instr → Option Nat
  | .nop _ => some 0x001
  | .bra _ => some 0x002
  | .brx _ => some 0x003
  | .call _ => some 0x004
  | .callx _ => some 0x005
  | .ret _ => some 0x006
  | .split _ => some 0x007
  | .join _ => some 0x008
  | .exit _ => some 0x009
  | .yield _ => some 0x00A
  | .pcmpi _ => some 0x00B
  | .pcmpf _ => some 0x00C
  | .plog _ => some 0x00D
  | .pmovPack _ => some 0x00E
  | .pmovUnpack _ => some 0x00E
  | .pmovSet _ => some 0x00E
  | .voteAll _ => some 0x00F
  | .voteAny _ => some 0x00F
  | .voteUni _ => some 0x00F
  | .voteBallot _ => some 0x00F
  | .voteCount _ => some 0x00F
  | .rdsr _ => some 0x010
  | .wrsr _ => some 0x011
  | .grow _ => some 0x012
  | .growGrant _ => none
  | .shrink _ => some 0x013
  | .clock _ => some 0x014
  | .bpt _ => some 0x015
  | .mov _ => some 0x040
  | .movi _ => some 0x041
  | .moviHi _ => some 0x041
  | .sel _ => some 0x042
  | .iadd _ => some 0x043
  | .isub _ => some 0x044
  | .imul _ => some 0x045
  | .imulh _ => some 0x046
  | .imad _ => some 0x047
  | .imin _ => some 0x048
  | .imax _ => some 0x049
  | .iabs _ => some 0x04A
  | .idiv _ => some 0x04B
  | .irem _ => some 0x04C
  | .lop3 _ => some 0x04D
  | .and _ => some 0x04E
  | .or _ => some 0x04F
  | .xor _ => some 0x050
  | .not _ => some 0x051
  | .shl _ => some 0x052
  | .shr _ => some 0x053
  | .sar _ => some 0x054
  | .rotl _ => some 0x055
  | .funsh _ => some 0x056
  | .bfx _ => some 0x057
  | .bfi _ => some 0x058
  | .popc _ => some 0x059
  | .clz _ => some 0x05A
  | .brev _ => some 0x05B
  | .idot4 _ => some 0x05C
  | .prmt _ => some 0x064
  | .xset _ => some 0x05D
  | .xadd _ => some 0x05E
  | .xget _ => some 0x05F
  | .shfl _ => some 0x060
  | .redux _ => some 0x061
  | .scan _ => some 0x062
  | .matchLanes _ => some 0x063
  | .fadd _ => some 0x0C0
  | .fsub _ => some 0x0C1
  | .fmul _ => some 0x0C2
  | .ffma _ => some 0x0C3
  | .fmin _ => some 0x0C4
  | .fmax _ => some 0x0C5
  | .fclass _ => some 0x0C6
  | .frcp _ => some 0x0C7
  | .frsq _ => some 0x0C8
  | .fsqrt _ => some 0x0C9
  | .fdiv _ => some 0x0CA
  | .fexp2 _ => some 0x0CB
  | .flog2 _ => some 0x0CC
  | .fsin _ => some 0x0CD
  | .fcos _ => some 0x0CE
  | .ftanh _ => some 0x0CF
  | .hadd2 _ => some 0x0D0
  | .hmul2 _ => some 0x0D1
  | .hfma2 _ => some 0x0D2
  | .hmin2 _ => some 0x0D3
  | .hmax2 _ => some 0x0D4
  | .dadd _ => some 0x0D5
  | .dmul _ => some 0x0D6
  | .dfma _ => some 0x0D7
  | .cvt _ => some 0x0D8
  | .cvtpk _ => some 0x0D9
  | .frnd _ => some 0x0DA
  | .fscl _ => some 0x0DB
  | .fdot2 _ => some 0x0DC
  | .brset _ => some 0x140
  | .brget _ => some 0x141
  | .ld _ => some 0x142
  | .st _ => some 0x143
  | .ldx _ => some 0x144
  | .atom _ => some 0x145
  | .atomc _ => some 0x146
  | .red _ => some 0x147
  | .cellSlotGrant _ => none
  | .tagexhTimeout _ => none
  | .lds _ => some 0x148
  | .sts _ => some 0x149
  | .atoms _ => some 0x14A
  | .ldq _ => some 0x14B
  | .stq _ => some 0x14C
  | .pref _ => some 0x14D
  | .pin _ => some 0x14E
  | .unpin _ => some 0x14F
  | .cinv _ => some 0x150
  | .cflush _ => some 0x151
  | .icinv _ => some 0x152
  | .tdecl _ => some 0x153
  | .tfree _ => some 0x154
  | .tfill _ => some 0x155
  | .tmcast _ => some 0x156
  | .tdrain _ => some 0x157
  | .tstat _ => some 0x158
  | .tileStateWaitEnd _ => none
  | .tfillComplete _ => none
  | .tdrainComplete _ => none
  | .tmcastDelivery _ _ => none
  | .tmcastRetire _ => none
  | .cpyt _ => some 0x159
  | .cpyz _ => some 0x15A
  | .copyOpRetire _ => none
  | .wsld _ => some 0x15B
  | .wswin _ => some 0x15C
  | .weightStoreRefresh _ => none
  | .ldw _ => some 0x1C0
  | .ldwWs _ => some 0x1C0
  | .swpw _ => some 0x1C1
  | .mma _ => some 0x1C2
  | .mmas _ => some 0x1C3
  | .aclr _ => some 0x1C4
  | .ald _ => some 0x1C6
  | .amov _ => some 0x1C5
  | .amovTile _ => some 0x1C5
  | .scacc _ => some 0x1C7
  | .wstat _ => some 0x1C8
  | .matrixOpRetire _ => none
  | .fence _ => some 0x200
  | .bar _ => some 0x201
  | .barq _ => some 0x202
  | .arrive _ => some 0x203
  | .await _ => some 0x204
  | .awaitWake _ => none
  | .stgrel _ => some 0x205
  | .stgacq _ => some 0x206
  | .stgacqWake _ => none
  | .wait _ => some 0x207
  | .waitWake _ => none
  | .cntrd _ => some 0x208
  | .sleep _ => some 0x209
  | .sleepEnd _ => none
  | .tagnew _ => some 0x240
  | .tagnewGrant _ => none
  | .tagnewTimeout _ => none
  | .tagset _ => some 0x241
  | .tagget _ => some 0x242
  | .tagret _ => some 0x243
  | .tagCellFree _ _ => none
  | .tagqryFree _ => some 0x244
  | .tagqryTag _ => some 0x244
  | .tagqryPool _ => some 0x244
  | .msdecl _ => some 0x245
  | .msdeclRec _ => some 0x245
  | .msdrop _ => some 0x246
  | .msqryCap _ => some 0x247
  | .msqryItem _ => some 0x247
  | .msqryRst _ => some 0x247
  | .msqryLost _ => some 0x247
  | .pfret _ => some 0x248
  | .syscall _ => some 0x280
  | .queueTailPoll _ => none
  | .trap _ => some 0x281
  | .eretRetry _ => some 0x282
  | .eretSkip _ => some 0x282
  | .eretKill _ => some 0x282
  | .eretResume _ => some 0x282
  | .eretDecline _ => some 0x282
  | .eretAbort _ => some 0x282
  | .launch _ => some 0x283
  | .evsig _ => some 0x284
  | .evsigClr _ => some 0x284
  | .evwait _ => some 0x285
  | .evwaitTry _ => some 0x285
  | .evwaitWake _ => none
  | .lease _ => some 0x291
  | .unlease _ => some 0x292
  | .tlbinv _ => some 0x286
  | .tlbinvAll _ => some 0x286
  | .tlbinvAp _ => some 0x286
  | .encreate _ => some 0x287
  | .enadd _ => some 0x288
  | .enseal _ => some 0x289
  | .enenter _ => some 0x28A
  | .enexit _ => some 0x28B
  | .enpgout _ => some 0x28C
  | .enpgin _ => some 0x28D
  | .enkill _ => some 0x28E
  | .enclaveDeparture _ => none
  | .tsavePart _ => some 0x28F
  | .tsaveExport _ => some 0x28F
  | .trestPart _ => some 0x290
  | .trestImport _ => some 0x290
  | .crewPlacement _ => none
  | .placementAged _ => none
  | .teamAged _ => none
  | .teamRetire _ => none
  | .fixtureRetire _ => none
  | .deadlineExpiry _ => none
  | .calendarSlotStart _ _ => none
  | .leasePeriodBoundary => none
  | .walkBatchAged _ => none
  | .collectiveRetire _ => none
  | .uwcAck _ => none
  | .apertureRequestFail _ _ => none
  | .controlThreadNotice _ => none
  | .correctedError _ => none
  | .unitTestComplete _ _ => none
  | .scoreHalving => none
  | .pcfg _ => none
  | .prel _ => none
  | .pqry _ => none
  | .spdmx _ => none
  | .pmapMap _ => none
  | .pmapUnmap _ => none
  | .pmapAddAlias _ => none
  | .pmapRemoveAlias _ => none
  | .apset _ => none
  | .cpoolAdd _ => none
  | .cpoolRemove _ => none
  | .calsetArm _ => none
  | .calsetDisarm _ => none
  | .lpset _ => none
  | .cqset _ => none
  | .pdbindBind _ => none
  | .pdbindUnbind _ => none
  | .bssetCreate _ => none
  | .bssetDestroy _ => none
  | .crset _ => none
  | .fqset _ => none
  | .ctset _ => none
  | .osfatal _ => none
  | .bbrd _ => none
  | .hqry _ => none
  | .monitorRequestUnknown _ _ => none
  | .getVersion _ => none
  | .getCapabilities _ => none
  | .negotiateAlgorithms _ => none
  | .getDigests _ => none
  | .getCertificate _ _ _ _ => none
  | .challenge _ _ _ => none
  | .getMeasurements _ _ _ _ => none
  | .keyExchange _ _ => none
  | .finish _ _ => none
  | .endSession _ _ => none
  | .chunkSend _ _ _ _ _ => none
  | .chunkGet _ _ _ => none
  | .encreport _ _ _ => none
  | .spdmUnsupported _ _ => none
  | .fwmWrite _ _ _ => none
  | .fwlockWrite _ _ => none
  | .pcieInboundRead _ _ _ _ => none
  | .pcieInboundWrite _ _ _ _ => none
  | .pcieInboundAtomic _ _ _ _ => none
  | .portUHotReset => none
  | .vfFlr _ => none
  | .tdiLeaveRun _ _ => none
  | .burraFlitReceive _ _ => none
  | .burraInboundRequest _ _ _ _ => none
  | .burraLaneGroupFail _ => none
  | .burraRekeyRequest _ _ => none
  | .burraSendStop _ _ => none
  | .burraKeyInstalled _ _ => none
  | .burraStreamFail _ _ => none
  | .ptpTimestamp _ => none
  | .ppsPulse => none
  | .timeStep _ => none
  | .syncLoss => none
  | .powerUp _ _ _ => none
  | .bankCharged => none
  | .resetN => none
  | .powerFail => none
  | .pfHandlerEntry _ => none
  | .pfHandlerBudget _ => none
  | .quiesceComplete => none
  | .saveComplete => none
  | .bankExhausted => none
  | .thermalTrip _ => none
  | .throttleDown _ _ _ => none
  | .throttleUp _ _ _ => none
  | .bankLow => none
  | .modstatWrite _ => none
  | .plimWrite _ => none
  | .yieldEnd _ => none
  | .portULinkDown => none
  | .tdispRequest _ _ _ => none
  | .ideKmRequest _ _ _ => none
  | .controlThreadRestart _ _ => none

/-- The word of an instruction, from the same tables; none for an event, which has no word. -/
def encode : Instr → Option Word96
  | .nop a => some (packS 0x001 a)
  | .bra a => some (packB 0x002 a)
  | .brx a => some (packB 0x003 a)
  | .call a => some (packB 0x004 a)
  | .callx a => some (packB 0x005 a)
  | .ret a => some (packB 0x006 a)
  | .split a => some (packB 0x007 a)
  | .join a => some (packB 0x008 a)
  | .exit a => some (packB 0x009 a)
  | .yield a => some (packS 0x00A a)
  | .pcmpi a => some (packR 0x00B a)
  | .pcmpf a => some (packR 0x00C a)
  | .plog a => some (packR 0x00D a)
  | .pmovPack a => some (packR 0x00E a)
  | .pmovUnpack a => some (packR 0x00E a)
  | .pmovSet a => some (packR 0x00E a)
  | .voteAll a => some (packR 0x00F a)
  | .voteAny a => some (packR 0x00F a)
  | .voteUni a => some (packR 0x00F a)
  | .voteBallot a => some (packR 0x00F a)
  | .voteCount a => some (packR 0x00F a)
  | .rdsr a => some (packS 0x010 a)
  | .wrsr a => some (packS 0x011 a)
  | .grow a => some (packS 0x012 a)
  | .growGrant _ => none
  | .shrink a => some (packS 0x013 a)
  | .clock a => some (packS 0x014 a)
  | .bpt a => some (packS 0x015 a)
  | .mov a => some (packR 0x040 a)
  | .movi a => some (packI 0x041 0 a)
  | .moviHi a => some (packI 0x041 1 a)
  | .sel a => some (packR 0x042 a)
  | .iadd a => some (packR 0x043 a)
  | .isub a => some (packR 0x044 a)
  | .imul a => some (packR 0x045 a)
  | .imulh a => some (packR 0x046 a)
  | .imad a => some (packR 0x047 a)
  | .imin a => some (packR 0x048 a)
  | .imax a => some (packR 0x049 a)
  | .iabs a => some (packR 0x04A a)
  | .idiv a => some (packR 0x04B a)
  | .irem a => some (packR 0x04C a)
  | .lop3 a => some (packR 0x04D a)
  | .and a => some (packR 0x04E a)
  | .or a => some (packR 0x04F a)
  | .xor a => some (packR 0x050 a)
  | .not a => some (packR 0x051 a)
  | .shl a => some (packR 0x052 a)
  | .shr a => some (packR 0x053 a)
  | .sar a => some (packR 0x054 a)
  | .rotl a => some (packR 0x055 a)
  | .funsh a => some (packR 0x056 a)
  | .bfx a => some (packR 0x057 a)
  | .bfi a => some (packR 0x058 a)
  | .popc a => some (packR 0x059 a)
  | .clz a => some (packR 0x05A a)
  | .brev a => some (packR 0x05B a)
  | .idot4 a => some (packR 0x05C a)
  | .prmt a => some (packR 0x064 a)
  | .xset a => some (packR 0x05D a)
  | .xadd a => some (packR 0x05E a)
  | .xget a => some (packR 0x05F a)
  | .shfl a => some (packR 0x060 a)
  | .redux a => some (packR 0x061 a)
  | .scan a => some (packR 0x062 a)
  | .matchLanes a => some (packR 0x063 a)
  | .fadd a => some (packR 0x0C0 a)
  | .fsub a => some (packR 0x0C1 a)
  | .fmul a => some (packR 0x0C2 a)
  | .ffma a => some (packR 0x0C3 a)
  | .fmin a => some (packR 0x0C4 a)
  | .fmax a => some (packR 0x0C5 a)
  | .fclass a => some (packR 0x0C6 a)
  | .frcp a => some (packR 0x0C7 a)
  | .frsq a => some (packR 0x0C8 a)
  | .fsqrt a => some (packR 0x0C9 a)
  | .fdiv a => some (packR 0x0CA a)
  | .fexp2 a => some (packR 0x0CB a)
  | .flog2 a => some (packR 0x0CC a)
  | .fsin a => some (packR 0x0CD a)
  | .fcos a => some (packR 0x0CE a)
  | .ftanh a => some (packR 0x0CF a)
  | .hadd2 a => some (packR 0x0D0 a)
  | .hmul2 a => some (packR 0x0D1 a)
  | .hfma2 a => some (packR 0x0D2 a)
  | .hmin2 a => some (packR 0x0D3 a)
  | .hmax2 a => some (packR 0x0D4 a)
  | .dadd a => some (packR 0x0D5 a)
  | .dmul a => some (packR 0x0D6 a)
  | .dfma a => some (packR 0x0D7 a)
  | .cvt a => some (packR 0x0D8 a)
  | .cvtpk a => some (packR 0x0D9 a)
  | .frnd a => some (packR 0x0DA a)
  | .fscl a => some (packR 0x0DB a)
  | .fdot2 a => some (packR 0x0DC a)
  | .brset a => some (packS 0x140 a)
  | .brget a => some (packS 0x141 a)
  | .ld a => some (packM 0x142 a)
  | .st a => some (packM 0x143 a)
  | .ldx a => some (packM 0x144 a)
  | .atom a => some (packM 0x145 a)
  | .atomc a => some (packM 0x146 a)
  | .red a => some (packM 0x147 a)
  | .cellSlotGrant _ => none
  | .tagexhTimeout _ => none
  | .lds a => some (packM 0x148 a)
  | .sts a => some (packM 0x149 a)
  | .atoms a => some (packM 0x14A a)
  | .ldq a => some (packM 0x14B a)
  | .stq a => some (packM 0x14C a)
  | .pref a => some (packM 0x14D a)
  | .pin a => some (packM 0x14E a)
  | .unpin a => some (packM 0x14F a)
  | .cinv a => some (packM 0x150 a)
  | .cflush a => some (packM 0x151 a)
  | .icinv a => some (packM 0x152 a)
  | .tdecl a => some (packT 0x153 a)
  | .tfree a => some (packT 0x154 a)
  | .tfill a => some (packT 0x155 a)
  | .tmcast a => some (packT 0x156 a)
  | .tdrain a => some (packT 0x157 a)
  | .tstat a => some (packT 0x158 a)
  | .tileStateWaitEnd _ => none
  | .tfillComplete _ => none
  | .tdrainComplete _ => none
  | .tmcastDelivery _ _ => none
  | .tmcastRetire _ => none
  | .cpyt a => some (packT 0x159 a)
  | .cpyz a => some (packT 0x15A a)
  | .copyOpRetire _ => none
  | .wsld a => some (packT 0x15B a)
  | .wswin a => some (packS 0x15C a)
  | .weightStoreRefresh _ => none
  | .ldw a => some (packT 0x1C0 a)
  | .ldwWs a => some (packT 0x1C0 a)
  | .swpw a => some (packT 0x1C1 a)
  | .mma a => some (packT 0x1C2 a)
  | .mmas a => some (packT 0x1C3 a)
  | .aclr a => some (packT 0x1C4 a)
  | .ald a => some (packT 0x1C6 a)
  | .amov a => some (packT 0x1C5 a)
  | .amovTile a => some (packT 0x1C5 a)
  | .scacc a => some (packT 0x1C7 a)
  | .wstat a => some (packT 0x1C8 a)
  | .matrixOpRetire _ => none
  | .fence a => some (packS 0x200 a)
  | .bar a => some (packS 0x201 a)
  | .barq a => some (packS 0x202 a)
  | .arrive a => some (packS 0x203 a)
  | .await a => some (packS 0x204 a)
  | .awaitWake _ => none
  | .stgrel a => some (packS 0x205 a)
  | .stgacq a => some (packS 0x206 a)
  | .stgacqWake _ => none
  | .wait a => some (packS 0x207 a)
  | .waitWake _ => none
  | .cntrd a => some (packS 0x208 a)
  | .sleep a => some (packS 0x209 a)
  | .sleepEnd _ => none
  | .tagnew a => some (packS 0x240 a)
  | .tagnewGrant _ => none
  | .tagnewTimeout _ => none
  | .tagset a => some (packS 0x241 a)
  | .tagget a => some (packS 0x242 a)
  | .tagret a => some (packS 0x243 a)
  | .tagCellFree _ _ => none
  | .tagqryFree a => some (packS 0x244 a)
  | .tagqryTag a => some (packS 0x244 a)
  | .tagqryPool a => some (packS 0x244 a)
  | .msdecl a => some (packS 0x245 a)
  | .msdeclRec a => some (packS 0x245 a)
  | .msdrop a => some (packS 0x246 a)
  | .msqryCap a => some (packS 0x247 a)
  | .msqryItem a => some (packS 0x247 a)
  | .msqryRst a => some (packS 0x247 a)
  | .msqryLost a => some (packS 0x247 a)
  | .pfret a => some (packS 0x248 a)
  | .syscall a => some (packS 0x280 a)
  | .queueTailPoll _ => none
  | .trap a => some (packS 0x281 a)
  | .eretRetry a => some (packS 0x282 a)
  | .eretSkip a => some (packS 0x282 a)
  | .eretKill a => some (packS 0x282 a)
  | .eretResume a => some (packS 0x282 a)
  | .eretDecline a => some (packS 0x282 a)
  | .eretAbort a => some (packS 0x282 a)
  | .launch a => some (packS 0x283 a)
  | .evsig a => some (packS 0x284 a)
  | .evsigClr a => some (packS 0x284 a)
  | .evwait a => some (packS 0x285 a)
  | .evwaitTry a => some (packS 0x285 a)
  | .evwaitWake _ => none
  | .lease a => some (packS 0x291 a)
  | .unlease a => some (packS 0x292 a)
  | .tlbinv a => some (packS 0x286 a)
  | .tlbinvAll a => some (packS 0x286 a)
  | .tlbinvAp a => some (packS 0x286 a)
  | .encreate a => some (packS 0x287 a)
  | .enadd a => some (packS 0x288 a)
  | .enseal a => some (packS 0x289 a)
  | .enenter a => some (packS 0x28A a)
  | .enexit a => some (packS 0x28B a)
  | .enpgout a => some (packS 0x28C a)
  | .enpgin a => some (packS 0x28D a)
  | .enkill a => some (packS 0x28E a)
  | .enclaveDeparture _ => none
  | .tsavePart a => some (packS 0x28F a)
  | .tsaveExport a => some (packS 0x28F a)
  | .trestPart a => some (packS 0x290 a)
  | .trestImport a => some (packS 0x290 a)
  | .crewPlacement _ => none
  | .placementAged _ => none
  | .teamAged _ => none
  | .teamRetire _ => none
  | .fixtureRetire _ => none
  | .deadlineExpiry _ => none
  | .calendarSlotStart _ _ => none
  | .leasePeriodBoundary => none
  | .walkBatchAged _ => none
  | .collectiveRetire _ => none
  | .uwcAck _ => none
  | .apertureRequestFail _ _ => none
  | .controlThreadNotice _ => none
  | .correctedError _ => none
  | .unitTestComplete _ _ => none
  | .scoreHalving => none
  | .pcfg _ => none
  | .prel _ => none
  | .pqry _ => none
  | .spdmx _ => none
  | .pmapMap _ => none
  | .pmapUnmap _ => none
  | .pmapAddAlias _ => none
  | .pmapRemoveAlias _ => none
  | .apset _ => none
  | .cpoolAdd _ => none
  | .cpoolRemove _ => none
  | .calsetArm _ => none
  | .calsetDisarm _ => none
  | .lpset _ => none
  | .cqset _ => none
  | .pdbindBind _ => none
  | .pdbindUnbind _ => none
  | .bssetCreate _ => none
  | .bssetDestroy _ => none
  | .crset _ => none
  | .fqset _ => none
  | .ctset _ => none
  | .osfatal _ => none
  | .bbrd _ => none
  | .hqry _ => none
  | .monitorRequestUnknown _ _ => none
  | .getVersion _ => none
  | .getCapabilities _ => none
  | .negotiateAlgorithms _ => none
  | .getDigests _ => none
  | .getCertificate _ _ _ _ => none
  | .challenge _ _ _ => none
  | .getMeasurements _ _ _ _ => none
  | .keyExchange _ _ => none
  | .finish _ _ => none
  | .endSession _ _ => none
  | .chunkSend _ _ _ _ _ => none
  | .chunkGet _ _ _ => none
  | .encreport _ _ _ => none
  | .spdmUnsupported _ _ => none
  | .fwmWrite _ _ _ => none
  | .fwlockWrite _ _ => none
  | .pcieInboundRead _ _ _ _ => none
  | .pcieInboundWrite _ _ _ _ => none
  | .pcieInboundAtomic _ _ _ _ => none
  | .portUHotReset => none
  | .vfFlr _ => none
  | .tdiLeaveRun _ _ => none
  | .burraFlitReceive _ _ => none
  | .burraInboundRequest _ _ _ _ => none
  | .burraLaneGroupFail _ => none
  | .burraRekeyRequest _ _ => none
  | .burraSendStop _ _ => none
  | .burraKeyInstalled _ _ => none
  | .burraStreamFail _ _ => none
  | .ptpTimestamp _ => none
  | .ppsPulse => none
  | .timeStep _ => none
  | .syncLoss => none
  | .powerUp _ _ _ => none
  | .bankCharged => none
  | .resetN => none
  | .powerFail => none
  | .pfHandlerEntry _ => none
  | .pfHandlerBudget _ => none
  | .quiesceComplete => none
  | .saveComplete => none
  | .bankExhausted => none
  | .thermalTrip _ => none
  | .throttleDown _ _ _ => none
  | .throttleUp _ _ _ => none
  | .bankLow => none
  | .modstatWrite _ => none
  | .plimWrite _ => none
  | .yieldEnd _ => none
  | .portULinkDown => none
  | .tdispRequest _ _ _ => none
  | .ideKmRequest _ _ _ => none
  | .controlThreadRestart _ _ => none

/-! ## Bytes of a fetch block (06 R136, R137) -/

/-- Little-endian bytes as a number (00 R4). -/
def leNat : List Byte → Nat
  | [] => 0
  | b :: bs => b.toNat + 256 * leNat bs

/-- The n little-endian bytes of a number. -/
def leBytes : Nat → Nat → List Byte
  | 0, _ => []
  | n + 1, v => BitVec.ofNat 8 v :: leBytes n (v / 256)

/-- The fetch-block header (06 R136). -/
structure Header where
  slots : Nat
  sigx : Bool
  zero : Nat
  sig : BitVec 24
  deriving DecidableEq, Repr

/-- The header of a block's bytes. -/
def blockHeader (bs : List Byte) : Header :=
  let h := leNat (bs.take 4)
  { slots := h % 8, sigx := h / 8 % 2 == 1, zero := h / 16 % 16, sig := BitVec.ofNat 24 (h / 256) }

/-- A header with a legal SLOTS and zero bits [7:4]. -/
def Header.ok (h : Header) : Bool := 1 ≤ h.slots && h.slots ≤ 5 && h.zero == 0

/-- The word of slot i. -/
def blockWord (bs : List Byte) (i : Nat) : Word96 := BitVec.ofNat 96 (leNat ((bs.drop (4 + 12 * i)).take 12))

/-- A block whose slots hold the given words, with SIGX 0. -/
def mkBlock (ws : List Word96) : List Byte :=
  let bs := leBytes 4 ws.length ++ (ws.map (fun w => leBytes 12 w.toNat)).flatten
  (bs ++ List.replicate 64 0).take 64

/-- The instruction that the decoder reads from a table row's bits (an instruction is one 96-bit word). -/
def decodeTableWord (nbits w : Nat) : Option Instr :=
  match decodeWord (BitVec.ofNat 96 (w % 2 ^ nbits)) with
  | .ok i => some i
  | .error _ => none

end Sys2Proof
end

