-- ==== Sys2Proof/Config.lean ====
section
/-! DEFINITION. What the spec leaves open, as constants with no body: free values, the approximate functions beyond
their stated limits (10 R275), the keys and secrets that Sphinx draws or holds (02 R46), the images and certificates that it
reports (02 R57, R59), and the two signature algorithms and the key agreement (02 R56, R59). Nothing in the model can see a
value of one. -/
namespace Sys2Proof.Config

/-- The n-th free value, byte i of it (log 10): data of remote reads and every other value that the spec leaves open. -/
opaque freeByte : Nat → Nat → Byte

/-- The n-th free 32-bit value (log 10). -/
opaque freeWord : Nat → W32

/-- The candidate pattern of an approximate function (10 R275) for a source pattern and the controls FTZI, FTZO and
SAT: a fixed function (log 9). Functions: 0 FRCP, 1 FRSQ, 2 FEXP2, 3 FLOG2, 4 FSIN, 5 FCOS, 6 FTANH. -/
opaque approx : (fn : Nat) → (ctl : Nat) → (src : W32) → W32

/-- The memory key that ENCREATE generates (02 R46), by free value. -/
opaque memKey : Nat → BitVec 512

/-- The save key that ENCREATE generates (02 R46). -/
opaque saveKey : Nat → BitVec 256

/-- The device identity secret (02 R46). -/
opaque deviceSecret : List Byte

/-- Sphinx's hold-store key (17 R436). -/
opaque holdKey : BitVec 256

/-- The images of measurement blocks 1 to 3: Sphinx, the monitor, the operating system (02 R57). -/
opaque image : Nat → List Byte

/-- The certificates of the slot-0 chain, each without its HSS part and signatures (02 R59). -/
opaque certBodies : List (List Byte)

/-- Byte i of the HSS public key of the subject of certificate k (02 R59). -/
opaque hssPublic : Nat → Nat → Byte

/-- The ECDSA P-384 signature, r then s, under signing key k over a digest, made in the n-th signing (02 R59). -/
opaque ecdsa : Nat → BitVec 384 → Nat → List Byte

/-- Byte i of the HSS signature under signing key k over an object with the n-th one-time key (02 R59). -/
opaque hssByte : Nat → List Byte → Nat → Nat → Byte

/-- The responder's key-exchange share of a session (02 R56). -/
opaque keyShare : Nat → BitVec 768

/-- The secret that a responder's session and a peer's share agree on: the input keying material of a Burra stream key (15
R391), by free value. -/
opaque sessionSecret : Nat → List Byte

end Sys2Proof.Config
end

