-- ==== Sys2Proof/Machine/State.lean ====
section
/-! DEFINITION. The state of the whole module as plain data, and the state after module reset. Tables are lists of
(key, value) pairs with rising keys, and a key that is not listed holds the table's default value (`Machine/Tbl.lean`).
Agents: control thread t of control core c is agent 2 · c + t (0 to 127). Team k of crew number n is agent
128 + 16 · n + k. A crew's number is given at its placement and is never used again. -/
namespace Sys2Proof.Machine

/-- Reasons a step can fault. There is none: the spec answers every case of every instruction with a trap, a status or
an effect, all of them next states. -/
inductive Fault where
  deriving DecidableEq, Repr

/-- Reasons for which the model gives no step. -/
inductive Refusal where
  /-- Raised by an arm of `exec` whose instruction has no meaning yet; safe, since no next state is claimed. -/
  | notModelled (mnemonic : String)
  deriving DecidableEq, Repr

/-! ## Traps, records, teams -/

/-- Trap causes (06 R168). -/
inductive Cause where
  | illop | illenc | alignb | badblk | regidx | divstk | sigmis | sysdiv | role | priv | regquota
  | oob | misalign | pagef | owner | attrmix | atomrt | perm | tagexh | tagbad
  | fpx | idiv0 | ue | bpt | trap | pft
  deriving DecidableEq, Repr

/-- A record slot: the image of 03 R63. -/
structure Rec where
  base   : Nat
  extent : Nat
  esize  : Nat
  trapOob : Bool
  tagm   : Nat
  cclass : Nat
  flat   : Bool
  stride : W32
  swmode : Nat
  sww    : Nat
  swd    : Nat
  sws1   : Nat
  sws2   : Nat
  tag    : BitVec 16
  deriving DecidableEq, Repr

/-- The null record (01 R19, 03 R63). -/
def Rec.null : Rec :=
  { base := 0, extent := 0, esize := 0, trapOob := true, tagm := 0, cclass := 0, flat := false, stride := 0,
    swmode := 0, sww := 0, swd := 0, sws1 := 0, sws2 := 0, tag := 0 }

/-- The flat record of a control thread (03 R65): the null record with FLAT 1. -/
def Rec.flat0 : Rec := { Rec.null with flat := true }

/-- ST of a divergence-stack entry (07 R181). -/
inductive PathState where
  | opened | pend | switched
  deriving DecidableEq, Repr

/-- A divergence-stack entry (07 R181). -/
structure DivEntry where
  sm : Mask
  j  : W64
  st : PathState
  pm : Mask
  pp : W64
  am : Mask
  deriving DecidableEq, Repr

/-- The handler frame (16 R403), with S at the trap and whether the word there has folded (07 R189). -/
structure Frame where
  hpc   : W64
  hmask : Mask
  rpm   : Mask
  inh   : Bool
  sig   : BitVec 24
  folded : Bool
  counted : List Nat           -- the classes in which the instruction at hpc has been counted (16 R401)
  deriving DecidableEq, Repr

/-- The engine counters of a team (14 R362). -/
structure Counters where
  copy : Nat
  tile : Nat
  matrix : Nat
  coll : Nat
  tag  : Nat
  deriving DecidableEq, Repr

/-- The exception summary (08 R233): flags and trap counts. -/
structure Summary where
  fpf : W32
  dvf : W32
  tci : Nat
  tcm : Nat
  tca : Nat
  tcx : Nat
  deriving DecidableEq, Repr

/-- Role codes of ROLES (01 R28); a solo team has none. -/
inductive Role where
  | solo | vx | mx | cp
  deriving DecidableEq, Repr

/-- What a team is doing. -/
inductive Run where
  | running            -- issues, or waits at the instruction in `waiting`
  | parked             -- a replayable stop (16 R404)
  | called             -- parked at a SYSCALL (15 R382)
  | stopped            -- a control thread that EXIT or a trap stopped (07 R196, 16 R409)
  | ended              -- active mask and stack empty (07 R184)
  | retired            -- its summary is merged (08 R233)
  | pfStopped          -- stopped by a power failure (17 R431)
  | pfHandler          -- in its power-fail handler (17 R432)
  deriving DecidableEq, Repr

/-- What a waiting team waits at: the instruction, and when the wait began. -/
structure Waiting where
  instr : Instr
  cycles : Nat         -- thousandths of a core cycle at the start of the wait
  until_ : Nat         -- for SLEEP in nanoseconds of `Clock.now`, for YIELD in thousandths of a cycle, for BAR its arrival
  woken : Bool         -- an engine counter of the team fell (14 R375)
  stack : Option Nat   -- the HBM stack of a stalled cell write (04 R95)
  lives : Option (List (Nat × Nat)) -- the lives of the partition's tags when an access began to wait (04 R101)
  seq : Nat            -- place in the order in which waits began
  walked : Bool        -- its walks have been served (03 R80)
  ue : Mask            -- lanes that met uncorrectable data at issue: they die when the wait ends (07 R210)
  deriving DecidableEq, Repr

/-- How a call or a parked team was resolved while its crew was saved: it takes effect at the restore (16 R412, R423).
RESUME of a call carries the new s0 to s3. -/
inductive Resolution where
  | resume (args : Option (List W64)) | decline | abort
  deriving DecidableEq, Repr

/-- A team (01 R16-R19, 06 R161, 07 R180-R189, 16 R403). `v` is keyed by lane · 256 + register, `x` by lane · 8 + index. -/
structure Team where
  width   : Nat
  pc      : W64
  block   : List Byte          -- the copy of the fetch block being run (06 R139); empty when none is held
  blockAt : W64                -- its address
  active  : Mask
  live    : Mask
  exited  : Mask
  stack   : List DivEntry      -- top first
  sig     : BitVec 24
  folded  : Bool               -- the word at pc has folded already: a replay (07 R187, R189)
  v       : List (Nat × W32)
  x       : List (Nat × BitVec 16)
  u       : List (Nat × W64)   -- s0 to s63
  p       : List (Nat × Mask)  -- p1 to p15
  recs    : List (Nat × Rec)   -- b0 to b15
  regs    : Nat                -- sr.regalloc
  fpmode  : W32
  srseed  : W32
  amovGen : W32
  fpflags : W32
  devflags : W32
  tag     : BitVec 16
  sppass  : W64
  trapcause : BitVec 8
  trappc  : W64
  trapmask : Mask
  uwc     : List (Nat × Nat)   -- outstanding off-package writes, oldest first: (aperture key, address); sr.uwc counts them
  cnt     : Counters
  sum     : Summary
  frame   : Frame
  replay  : Option Mask        -- the lanes for which the instruction at pc issues alone (16 R404, R422)
  counted : List Nat           -- the classes of 08 R233 in which the instruction at pc has been counted (16 R401)
  causes  : List (Nat × Cause) -- the cause of each lane in sr.trapmask
  role    : Role
  run     : Run
  waiting : Option Waiting
  parkCause : Cause            -- PAGEF or TAGEXH of a park
  token   : Nat                -- token of the park or call
  resolved : Option Resolution -- how it was resolved while its crew was saved
  since   : Nat                -- waiting time start of 05 R135, in thousandths of a cycle
  aged    : Bool
  notBefore : Nat              -- no issue before this, in thousandths of a cycle (06 R148 HINT.Y)
  arrC    : Option W32         -- phase of the crew barrier in which it arrived
  arrQ    : Option W32         -- phase of the squad barrier in which it arrived
  dead    : List (Nat × Cause) -- dead lanes with the cause that killed them (18 R452)
  pfAt    : Nat                -- entry time of the power-fail handler
  badV    : List Nat           -- per-lane registers with an uncorrectable error, keyed as `v` (16 R407)
  badU    : List Nat           -- uniform registers with an uncorrectable error
  badX    : List Nat           -- index registers with an uncorrectable error, keyed as `x`
  badP    : List Nat           -- predicate bits with an uncorrectable error, by lane · 16 + predicate
  badR    : List Nat           -- record slots with an uncorrectable error
  badSr   : List Nat           -- special registers with an uncorrectable error; 0x100 is the divergence stack, 0x101 the
                               -- handler frame
  deriving DecidableEq, Repr

/-- Privilege levels (06 R160). -/
inductive Level where
  | l0 | l1
  deriving DecidableEq, Repr

/-- What a control thread holds besides its team (16 R409-R411, 02 R54). -/
structure Thread where
  eid   : Nat                  -- the enclave it runs in, 0 for world 2
  slot  : Nat
  monitor : Bool               -- it runs monitor firmware, world 1
  vec   : Option W64           -- none until CTSET
  note  : W64
  pending : Bool               -- a notice is pending
  deriving DecidableEq, Repr

/-! ## Crews, fixtures -/

/-- Tile states (11 R288). -/
inductive TileState where
  | empty | filling | ready | draining
  deriving DecidableEq, Repr

/-- A tile-table entry with its LSTAT (11 R288, 12 R315). -/
structure Tile where
  base  : Nat
  hm1   : Nat
  rwm1  : Nat
  ty    : Ty
  st    : TileState
  ph    : Bool
  lstat : BitVec 8
  deriving DecidableEq, Repr

/-- The reset entry of a tile (11 R288). -/
def Tile.reset : Tile := { base := 0, hm1 := 0, rwm1 := 0, ty := .b32, st := .empty, ph := false, lstat := 0 }

/-- A weight plane (13 R328, R330, R344). Column n's bytes, values then metadata, are keyed by n · 1024 + byte. -/
structure Plane where
  valid  : Bool
  sparse : Bool
  ty     : Option Ty
  poison : Bool
  bad    : Bool                    -- it holds uncorrectable data (13 R344)
  w      : List (Nat × Byte)
  deriving DecidableEq, Repr

/-- A pending matrix operation (13 R332): the instruction, the uniform value that it read at issue, the mode register and
the AMOV generator at issue, and the end of a refresh stall. -/
structure MatOp where
  id    : Nat
  agent : Nat
  instr : Instr
  r0    : Nat
  fpmode : W32
  gen   : W32
  stall : Nat
  deriving DecidableEq, Repr

/-- Kinds of tile-engine operations. -/
inductive TileKind where
  | fill | mcast | drain
  deriving DecidableEq, Repr

/-- What a multicast destination has reached (11 R290). -/
inductive DestState where
  | pending | filling | done
  deriving DecidableEq, Repr

/-- A tile-engine operation (12 R311, R316, R317), with the record and operands of its issue. -/
structure TileOp where
  id    : Nat
  agent : Nat
  kind  : TileKind
  tile  : Nat
  hm1   : Nat                      -- the issuing crew's tile geometry at issue
  rwm1  : Nat
  rc    : Rec
  off   : Int
  pitch : Int
  tag   : BitVec 16
  life  : Nat                      -- the life of the tag at issue (04 R101)
  cls   : Nat                      -- the cache class (06 R148)
  dests : List (Nat × DestState)   -- crew numbers of a multicast
  bad   : Bool                     -- the destination mask was refused
  data  : Option (List Byte)       -- what a multicast has read
  status : Option (BitVec 8)       -- the error at which a multicast's source stopped
  walked : Bool                    -- its walks have been served (03 R80)
  token : Option Nat               -- waits at a page fault
  decl  : Bool                     -- the operating system declined the fault
  stall : Option (Nat × Nat)       -- the bytes done, and the time in thousandths of a cycle, when it began to wait for a
                                   -- cell slot (04 R95)
  deriving DecidableEq, Repr

/-- Kinds of copy-class operations. -/
inductive CopyKind where
  | cpyt | cpyz | wsld
  deriving DecidableEq, Repr

/-- How the data part of a copy-class operation ended: status, the counts IN and OUT, and the flags to raise (12 R320). -/
structure CopyEnd where
  st  : BitVec 8
  inn : Nat
  out : Nat
  fl  : W32
  dfl : W32
  deriving DecidableEq, Repr

/-- How far the data part of a copy-class operation has come: the number of its next unit (a tuple of CPYT, a block of CPYZ,
a line of WSLD), how far the offsets of source and destination have moved, and the counts and flags before that unit. -/
structure CopyMark where
  k   : Nat
  a   : Int
  b   : Int
  inn : Nat
  out : Nat
  fl  : W32
  dfl : W32
  deriving DecidableEq, Repr

/-- Nothing is done yet. -/
def CopyMark.zero : CopyMark := { k := 0, a := 0, b := 0, inn := 0, out := 0, fl := 0, dfl := 0 }

/-- A copy-class operation (12 R318-R324), with the descriptor bytes, records and tags of its issue. `owner` names the
team: see `State.ownOf`. -/
structure CopyOp where
  id    : Nat
  owner : Nat
  agent : Nat                      -- the agent that issued it
  kind  : CopyKind
  part  : Nat
  eid   : Nat
  va    : Nat                      -- the descriptor's address
  desc  : Option (List Byte)       -- none until the descriptor has been read
  src   : Rec
  dst   : Rec
  srcTag : BitVec 16
  dstTag : BitVec 16
  srcLife : Nat                    -- the lives of the two tags at issue (04 R101)
  dstLife : Nat
  cc    : Nat                      -- HINT.CC (06 R148)
  mark  : CopyMark                 -- where the data part goes on after a page fault or a wait (12 R313)
  seen  : CopyMark                 -- the counts and flags when it stopped there
  fin   : Option CopyEnd           -- the data part is over; the completion word is not yet written
  token : Option Nat
  decl  : Bool
  stall : Option (Nat × Nat)       -- as in `TileOp`, in the cycles of cluster 0
  cancel : Bool
  deriving DecidableEq, Repr

/-- A posted collective that has not retired (15 R397). -/
structure CollOp where
  id    : Nat
  owner : Nat
  ring  : Nat
  seq   : Nat
  deriving DecidableEq, Repr

/-- Barrier state (14 R372). -/
structure Barrier where
  phc : W32
  arrived : Nat
  extra : Nat                      -- teams that arrived in this phase and then ended
  deriving DecidableEq, Repr

/-- A crew that is placed, saved or retired but not yet forgotten (01 R20, 16 R413). -/
structure Crew where
  fx     : Nat                     -- key of its fixture
  part   : Nat
  eid    : Nat
  index  : Nat                     -- linear crew index
  rank   : Nat                     -- rank in its squad, or the index without squads
  squad  : Option Nat              -- the squad's grid index
  core   : Option Nat              -- none while it is saved
  onRes  : Bool                    -- it stands on ranges reserved for its fixture (05 R115, R117)
  accs   : Nat
  sprows : Nat
  tiles  : Nat
  sp     : List (Nat × Byte)       -- scratchpad bytes by crew-relative address
  badSp  : List Nat                -- scratchpad words with an uncorrectable error
  tile   : List (Nat × Tile)
  stages : List Nat                -- stages of rings 0 to 3
  bank   : List (Nat × W32)        -- bank · 4096 + row · 32 + column
  badBank : List Nat               -- elements with an uncorrectable error, keyed as `bank`
  act    : Plane
  shd    : Plane
  mstat  : BitVec 8
  mops   : List MatOp              -- in issue order
  bar    : Barrier
  nteams : Nat
  placed : Nat                     -- time of its placement
  done   : Bool                    -- retired or terminated
  frames : List Nat                -- the frames of its room in the crew region (16 R414)
  version : Nat                    -- version of its saved blob (16 R417, R426)
  exported : Bool
  evictAt : Nat                    -- when it was saved, for the order of 05 R134
  deriving DecidableEq, Repr

/-- A fixture descriptor (01 R28). -/
structure Desc where
  code : Nat
  entry : Nat
  trapPol : Nat
  staged : Bool
  tagMode : Nat
  cal : Bool
  pfHnd : Bool
  width : Nat
  teams : Nat
  squad : Nat
  regs : Nat
  prio : Nat
  sprows : Nat
  tiles : Nat
  accs : Nat
  gx : Nat
  gy : Nat
  gz : Nat
  roles : W32
  rings : List Nat
  args : Nat
  compl : Nat
  traph : Nat
  pfh : Nat
  waits : List (Nat × Nat)         -- event, threshold
  sigEn : Bool
  sigId : Nat
  deadline : Nat
  duration : Nat
  calEntry : Nat
  itag : BitVec 16
  deriving DecidableEq, Repr

/-- A failed-crew entry (18 R452): reason and detail. -/
structure CrewFail where
  reason : BitVec 8
  detail : BitVec 8
  deriving DecidableEq, Repr

/-- The first-trap record (18 R453). -/
structure FirstTrap where
  pc : W64
  cause : BitVec 8
  lane : Nat
  team : Nat
  crew : Nat
  deriving DecidableEq, Repr

/-- An accepted fixture (05 R110, R111, 18 R449). -/
structure Fixture where
  part  : Nat
  eid   : Nat
  fid   : W32
  queue : Nat
  desc  : Desc
  order : Nat                      -- place in the order of acceptance
  tacc  : Nat
  met   : Bool                     -- every wait pair has been met at one moment (05 R111)
  elig  : Option Nat               -- time at which it became eligible
  aged  : Bool                     -- eligible for 100 µs with a crew unplaced
  slot  : Option Nat               -- the bound calendar slot
  resv  : List Nat                 -- the cores reserved at acceptance, one per crew (05 R117)
  next  : Nat                      -- crew claims placed or failed so far, in index order
  ncrews : Nat
  doneCount : Nat
  fails : List (Nat × CrewFail)    -- by crew index
  deadLanes : List (Nat × Cause)   -- by crew · 16384 + team · 1024 + lane
  sum   : Summary
  tstart : Nat
  osa   : W32
  first : Option FirstTrap
  retired : Bool
  deriving DecidableEq, Repr

/-! ## Partitions, enclaves -/

/-- A partition configuration block (02 R40). -/
structure PartCfg where
  vf : Nat
  slotB : Nat
  slotN : Nat
  regB : Nat
  regN : Nat
  spB : Nat
  spN : Nat
  tileB : Nat
  tileN : Nat
  accM : BitVec 4
  hbmW : Nat
  calN : Nat
  cpyMax : Nat
  colMax : Nat
  llcq : Nat
  cores : BitVec 768
  deriving DecidableEq, Repr

/-- A calendar entry (05 R114, R115). -/
structure CalEntry where
  armed : Bool
  rule : Nat
  rslots : Nat
  rtiles : Nat
  racc : Nat
  start : Nat
  period : Nat
  rcrews : Nat
  rregs : Nat
  rsp : Nat
  rsquad : Nat
  eid : Nat
  cores : List Nat                 -- one core per reserved crew
  bound : List (Nat × Nat)         -- slot number, fixture
  nextSlot : Nat                   -- the first slot whose start has not been handled
  deriving DecidableEq, Repr

/-- An aperture entry (03 R78); target 0 is invalid. -/
structure Aperture where
  vabase : Nat
  pages : Nat
  eid : Nat
  perm : BitVec 3
  route : BitVec 8
  raddr : Nat
  target : Nat
  stream : Nat
  deriving DecidableEq, Repr

/-- The state of a tag (04 R88). A tag that TAGRET has named stays LIVE until the operations of the issuing team numbered
below `upto` have retired (04 R99); a retiring tag remembers the owner of the tag counter that it holds and the number of its TAGRET, since the operations of a class
retire in issue order (14 R362). -/
inductive TagState where
  | free
  | live (eid : Nat)
  | leaving (eid : Nat) (owner upto : Nat)
  | retiring (eid : Nat) (owner : Option (Nat × Nat))
  deriving DecidableEq, Repr

/-- A call or fault queue (15 R381, 16 R406). -/
structure Queue where
  log2n : Nat
  core : Nat
  thr : Nat
  ring : Nat
  idx : Nat
  deriving DecidableEq, Repr

/-- What a call or fault notice stands for. -/
inductive PostKind where
  | call | team | engine (op : Nat) | thread
  deriving DecidableEq, Repr

/-- A call or notice that is posted, or waits to be posted (15 R382, 16 R406). -/
structure Post where
  token : Nat
  kind : PostKind
  agent : Nat
  part : Nat
  eid : Nat
  cause : Cause
  access : Nat
  pc : W64
  fixid : W32
  crew : W32
  team : Nat
  wher : Nat
  posted : Bool
  deriving DecidableEq, Repr

/-- Burra stream states (15 R392, R393). -/
inductive StreamState where
  | absent | open | rekey | halted | failed
  deriving DecidableEq, Repr

/-- A Burra stream (15 R391-R394). -/
structure Stream where
  st : StreamState
  eid : Nat
  pkg : Nat
  failev : Nat
  sid : Nat
  ctr : Nat
  haltAt : Nat
  authFails : Nat
  highest : Nat                    -- one above the highest CTR accepted
  seen : List Nat                  -- CTR values accepted within the window
  key : BitVec 256                 -- the AES-256-GCM key (15 R391)
  deriving DecidableEq, Repr

/-- A configured partition (02 R42). -/
structure Part where
  cfg : Option PartCfg
  events : List (Nat × W32)
  nextFid : W32
  cal : List (Nat × CalEntry)
  reqCpy : Nat
  reqCol : Nat
  impCpy : Bool
  impCol : Bool
  usedCpy : Bool                   -- an operation of the class has been outstanding in this period (05 R123)
  usedCol : Bool
  apert : List (Nat × Aperture)
  tags : List (Nat × TagState)
  lives : List (Nat × Nat)         -- how often each tag has been handed out (04 R101)
  pool : List Nat                  -- pool frames
  callQ : Option Queue
  faultQ : Option Queue
  streams : List (Nat × Stream)
  suspended : Bool
  osStop : Bool                    -- suspended by the OS-fatal stop (16 R419)
  deriving DecidableEq, Repr

/-- Enclave states (02 R44). -/
inductive EncState where
  | free | building | sealed | dying
  deriving DecidableEq, Repr

/-- What a thread slot of an enclave holds (02 R54, 16 R408, R411). -/
structure Slot where
  entered : Option Nat             -- the thread inside
  outer : Option Team              -- the entering thread's saved state
  inner : Option Team              -- sealed state left by an asynchronous exit
  killed : Bool
  trapped : Option (BitVec 8 × W64) -- cause and pc that the next ENENTER reports
  retD : Operand                   -- D and PD of the ENENTER
  retPd : BitVec 4
  deriving DecidableEq, Repr

/-- A declared must-save item (17 R443). -/
structure Item where
  va : Nat
  len : Nat
  key : W32
  tag : BitVec 16
  deriving DecidableEq, Repr

/-- An enclave (02 R44-R51, 16 R415, R417, 18 R455). -/
structure Enclave where
  st : EncState
  part : Nat
  openProf : Bool
  threads : Nat
  entry : Nat
  repdata : Nat
  config : List Byte
  savepa : Nat
  savefr : Nat
  meas : BitVec 384
  adds : Nat
  memKey : BitVec 512
  saveKey : BitVec 256
  sealKey : BitVec 256
  slots : List (Nat × Slot)
  iv : Nat
  pageVer : List (Nat × Nat)       -- by VPN
  pagedOut : List (Nat × BitVec 32) -- VPN with the PERM, ATTR, TAGF, ROUTE bytes of the page
  items : List Item
  crewVer : List (Nat × Nat)       -- version of the newest blob by fixture ID · 2^32 + crew index
  clear : BitVec 8                 -- the steps 1 to 8 of clearing that are over
  cleared : List Nat               -- the units whose clear-done bit is set (18 R455), as `clearUnits` numbers them
  deriving DecidableEq, Repr

/-! ## Memory and translation -/

/-- A link of the hash chain: PFN and slot (03 R70). -/
structure Link where
  pfn : Nat
  slot : Nat
  deriving DecidableEq, Repr

/-- One mapping slot of an inverted-page-table entry with its NEXT (03 R70). -/
structure MapSlot where
  mv : Bool
  eid : Nat
  vpn : Nat
  perm : BitVec 3
  mattr : BitVec 2
  next : Option Link
  deriving DecidableEq, Repr

/-- A slot that is not in use. -/
def MapSlot.none : MapSlot := { mv := false, eid := 0, vpn := 0, perm := 0, mattr := 0, next := Option.none }

/-- An inverted-page-table entry (03 R70). -/
structure Ipt where
  owner : Nat
  oworld : Nat
  attr : BitVec 2
  tagged : Bool
  zeroFb : Bool
  route : BitVec 8
  valid : Bool
  m0 : MapSlot
  m1 : MapSlot
  m2 : MapSlot
  m3 : MapSlot
  deriving DecidableEq, Repr

/-- The entry of a frame that no request has named: a clear frame of world 2 with no mapping (log 7). -/
def Ipt.free : Ipt :=
  { owner := 0, oworld := 2, attr := 0, tagged := false, zeroFb := false, route := 0, valid := true,
    m0 := .none, m1 := .none, m2 := .none, m3 := .none }

/-- A materialised cell (04 R93): its slot's physical address by partition, base frame, granule and tag. -/
structure Cell where
  part : Nat
  frame : Nat
  gran : Nat
  tag : BitVec 16
  slot : Nat
  deriving DecidableEq, Repr

/-- A line held by a cache (11 R292, R293, R295): which cache, the tags of the line, the partition it counts against
and, for the memory-side cache, the enclave that pins it. -/
structure Line where
  eid : Nat
  addr : Nat
  tag : BitVec 16
  part : Option Nat
  cls : Nat
  pin : Option Nat
  deriving DecidableEq, Repr

/-- A block in an instruction cache (06 R143). -/
structure IBlock where
  eid : Nat
  va : Nat
  bytes : List Byte
  deriving DecidableEq, Repr

/-- A translation in a TLB (03 R72): the space and the world that asked, and what the walk found. -/
structure TlbEntry where
  eid : Nat
  world : Nat
  vpn : Nat
  pfn : Nat
  perm : BitVec 3
  attr : BitVec 2
  tagged : Bool
  zeroFb : Bool
  route : BitVec 8
  deriving DecidableEq, Repr

/-- The caches (11 R292, 06 R143, 03 R72), newest entries first. The data caches hold which lines are present: no value
depends on them. -/
structure Caches where
  l1 : List (Nat × List Line)      -- by core · 64 + set: SIMT core 0-767, control core 768-831
  icache : List (Nat × List IBlock) -- by core as `l1`
  l2 : List (Nat × List Line)      -- by cluster · 65536 + set
  msc : List (Nat × List Line)     -- by slice · 8192 + set
  tlb : List (Nat × List TlbEntry) -- by cluster
  deriving DecidableEq, Repr

/-- A request that the memory unit has made in the pass that runs (03 R68). -/
structure PassReq where
  kind : Nat                       -- 0 read, 1 write, 2 atomic
  line : Nat                       -- the virtual line
  ans : Nat                        -- 0 performed, 1 failed or refused (15 R386, 02 R39), 2 an atomic that the remote side
                                   -- refused (15 R395)
  seed : Nat                       -- the free value of a remote line's data
  deriving DecidableEq, Repr

/-- Memory, translation and the weight stores. -/
structure Mem where
  hbm : List Host.Cell             -- by physical address
  ipt : List (Nat × Ipt)           -- by PFN
  anchor : List (Nat × Option Link)
  cells : List Cell                -- the tag maps
  ver : List (Nat × BitVec 56)     -- version counters by PA / 256 (03 R76)
  anc : List (Nat × BitVec 56)     -- ancestor counters by channel · 2^24 + level · 2^21 + index (03 R76)
  badNode : List Nat               -- counter nodes that fail verification, keyed as `anc` (03 R77)
  badLine : List Nat               -- 64-byte lines with an uncorrectable error (16 R407)
  badMac : List Nat                -- 64-byte lines whose MAC fails in a frame of ATTR 2 (03 R77)
  ws : List (Nat × Byte)           -- weight stores: die · 2^28 + offset
  badWs : List Nat                 -- their 128-byte lines with an uncorrectable error: die · 2^21 + line
  gran : List (Nat × Nat)          -- granule owners: die · 4096 + granule, 0 free
  deriving DecidableEq, Repr

/-! ## Engines, links, power, health -/

/-- An outbound write that has left the package (15 R365). -/
structure OutWrite where
  part : Nat
  entry : Nat
  bytes : List (Nat × Byte)        -- by remote address
  ctr : Nat                        -- the CTR of a Burra request, its stream's SID and its key (15 R392)
  sid : Nat
  key : BitVec 256
  rel : Option Nat                 -- the sequence number of a release (15 R394)
  deriving DecidableEq, Repr

/-- For what a batch walks: a memory instruction's lines, a fetch, or a tile operation's units. -/
inductive WalkUse where
  | instr | fetch | tile (op : Nat)
  deriving DecidableEq, Repr

/-- A batch of walks (03 R80): those that one instruction's lines need. -/
structure WalkBatch where
  agent : Nat
  cluster : Nat
  use : WalkUse
  pages : List Nat                 -- the VPNs that wait for a walker, each once
  cycles : Nat                     -- thousandths of a cycle of the cluster when it began to wait
  aged : Bool
  deriving DecidableEq, Repr

/-- A collective ring (15 R396). -/
structure Ring where
  eid : Nat
  doorb : Nat
  base : Nat
  consumed : Nat
  posted : Nat
  deriving DecidableEq, Repr

/-- Engines and their queues (05 R122-R124, 12 R311). -/
structure Engines where
  bindCpy : List (Nat × Nat)       -- engine, 1 + partition; 0 unbound
  bindCol : List (Nat × Nat)
  period : Nat                     -- µs
  nextPeriod : Nat
  boundary : Nat                   -- time of the next period boundary
  rotation : Nat
  tileOps : List TileOp
  copyOps : List CopyOp
  collOps : List CollOp
  rings : List (Nat × Ring)
  nextOp : Nat
  walks : List (Nat × WalkBatch)   -- by operation number, the oldest first
  walkers : List (Nat × List (Nat × Nat)) -- by cluster, the walks at work: batch and VPN, at most 32
  fetched : List Nat               -- agents whose fetch has been walked for
  held : List Nat                  -- clusters in which walks take time
  deriving DecidableEq, Repr

/-- TDI states (15 R383, R385). -/
inductive Tdi where
  | configUnlocked | configLocked | run
  deriving DecidableEq, Repr

/-- A PCIe requester binding (15 R385). -/
structure Binding where
  port : Nat
  rid : Nat
  eid : Nat
  ide : Option Nat
  deriving DecidableEq, Repr

/-- How an inbound PCIe request ended (15 R383, R384). -/
inductive Cpl where
  | data (bytes : List Byte) | ok | completerAbort | unsupported | dropped
  deriving DecidableEq, Repr

/-- Ports and the Burra link. -/
structure Links where
  attached : Bool
  bindings : List Binding
  tdi : List (Nat × Tdi)           -- by port · 65536 + requester
  ide : List (Nat × Bool)          -- keyed selective IDE streams, by port · 16 + stream
  cpl : List Cpl                   -- completions of inbound requests, newest first
  errs : List (Nat × Nat)          -- dropped posted writes counted by port · 65536 + requester (02 R39)
  out : List OutWrite              -- outbound writes that have left the package, newest first
  failNext : List (Nat × Nat)      -- by partition · 1024 + aperture: 1 the next request through it fails, 2 the next
                                   -- atomic is refused by the remote side (15 R395)
  group : List (Nat × Nat)         -- 1 + the time at which a lane group left service; 0 in service
  resent : Nat                     -- flits sent again (15 R390)
  rels : List (Nat × Nat)          -- releases sent, by enclave · 4096 + destination package (15 R394)
  relsIn : List (Nat × Nat)        -- releases performed here, by enclave · 4096 + the package they came from
  deriving DecidableEq, Repr

/-- The power sequence (22 R478), a sequence that failed with VSPX alone up, and the hold-up phases (17 R430). -/
inductive Power where
  | off | failed | charging | on | quiesce | saving
  deriving DecidableEq, Repr

/-- A saved item with its restart state (17 R437): 1 whole, 2 torn, 3 absent. -/
structure SavedItem where
  meas : BitVec 384
  openProf : Bool
  key : W32
  len : Nat
  seq : Nat
  st : Nat
  bytes : List (Nat × Byte)
  bad : Bool                       -- its record fails verification when it is next read
  deriving DecidableEq, Repr

/-- A completion record kept for MSQRY.lost (17 R439, R445). -/
structure Lost where
  meas : BitVec 384
  openProf : Bool
  compl : Nat
  fx : Fixture
  tend : Nat
  deriving DecidableEq, Repr

/-- An event of the black box (18 R456). -/
structure BbEvent where
  seq : Nat
  time : Nat
  type : Nat
  uclass : Nat
  world : Nat
  unit : Nat
  eid : Nat
  detail : W64
  deriving DecidableEq, Repr

/-- The metadata of one enclave in a generation (17 R435): its tables, its sealed keys and the part's commit record. -/
structure MetaPart where
  eid : Nat
  meas : BitVec 384
  openProf : Bool
  items : List Item
  fixtures : List W32              -- accepted and not retired, by fixture ID
  keys : List Byte
  commit : List Byte
  deriving DecidableEq, Repr

/-- One saved generation (17 R435). -/
structure Gen where
  gen : W64
  t0 : Nat
  committed : Bool
  items : List SavedItem
  lost : List Lost
  bb : List BbEvent
  bbSeq : Nat                      -- the sequence number that the next event would have had (18 R456)
  parts : List MetaPart
  commit : List Byte               -- the generation commit, none before it is written
  deriving DecidableEq, Repr

/-- The hold store (17 R435, 02 R60, 18 R459): it keeps its contents without power. -/
structure Hold where
  gen : W64                        -- the GEN of the newest sequence
  newest : Option Gen              -- the newest committed generation
  area : Nat                       -- the area that holds it, 0 or 1
  cur : Option Gen                 -- the generation being written, or the incomplete one, in the other area
  restorable : List SavedItem      -- items of the report source
  srcGen : W64
  srcCommitted : Bool
  lost : List Lost
  hss : Nat                        -- one-time keys used
  retiredUnits : List UnitName
  deriving DecidableEq, Repr

/-- Clocks and times (00 R7, 05 R113, 22 R481). -/
structure Clock where
  now : Nat                        -- nanoseconds since module reset
  ptp : Nat                        -- the time base in 1588 nanoseconds
  ptpRate : Int                    -- adjustment in parts per 10^9, at most 100,000
  ptpFrac : Int
  holdover : Bool
  step : Option Nat                -- a requested step that waits
  mhz : List (Nat × Nat)           -- by cluster
  mcyc : List (Nat × Nat)          -- thousandths of a cycle since module reset, by cluster
  halved : Nat                     -- time base at the last score halving
  deriving DecidableEq, Repr

/-- The module's power manager and board interface (22 R478-R485). -/
structure Board where
  power : Power
  t0 : Nat
  t0ptp : Nat
  capacity : Nat
  reserve : BitVec 8
  bankReady : Bool
  thermTrip : Bool
  bankLow : Bool                   -- the alert bit
  bankDown : Bool                  -- the bank has dropped below 80 V since power-up (22 R480)
  plim : Nat
  pkgPower : Nat
  dieTemp : Nat
  overAt : Option Nat              -- since when the package power has been above PLIM (22 R481)
  calmAt : Option Nat              -- since when neither condition of 22 R481 has held
  toWrite : List SavedItem         -- the items of a save in their order
  saveAt : Nat                     -- when the save began to write them
  lost : List Lost                 -- the records of the fixtures in flight at t0
  deriving DecidableEq, Repr

/-- The firewall (02 R37). -/
structure Firewall where
  fwm : List (Nat × W32)           -- FWM0 to FWM15
  lock : Bool
  deriving DecidableEq, Repr

/-- States of a scored unit (18 R459, R460). -/
inductive UnitState where
  | inService | draining | testing | retired
  deriving DecidableEq, Repr

/-- Scores, unit states and the black box (18 R456-R460). Units are keyed by class: core n, 1000 + slice,
2000 + channel, 3000 + lane group. -/
structure Health where
  score : List (Nat × Nat)
  st : List (Nat × UnitState)
  bb : List BbEvent                -- newest first, at most 4,096
  bbSeq : Nat
  saved : List BbEvent
  deriving DecidableEq, Repr

/-- A response of Sphinx (02 R56-R60): the fields that 02 states, a signature as the bytes of 02 R59, none when empty.
`rspBytes` lays it out in the format of SPDM 1.3. -/
inductive SpdmRsp where
  | version | capabilities | algorithms
  | digests (d : BitVec 384)
  | certificate (bytes : List Byte)
  | challengeAuth (nonce : BitVec 256) (measHash : BitVec 384) (sig : List Byte)
  | measurements (blocks : List (Nat × BitVec 384)) (nonce : BitVec 256) (sig : List Byte)
  | keyExchange (session : Nat) (share : BitVec 768)
  | finished (session : Nat)
  | ended (session : Nat)
  | chunkAck (handle seq : Nat)
  | chunk (handle seq : Nat) (last : Bool) (data : List Byte)
  | report (bytes sig : List Byte)
  | errUnsupported | errInvalid | errUnspecified
  deriving DecidableEq, Repr

/-- Sphinx's responder state (02 R56). Requester 0 is the PF and SPDMX, k the VF k. -/
structure Spdm where
  negotiated : List Nat
  sessions : List (Nat × Bool)     -- session, established
  nextSession : Nat
  rsp : List (Nat × SpdmRsp)       -- the latest response by requester
  chunkIn : List (Nat × List Byte) -- by requester · 256 + handle
  chunkOut : List (Nat × List Byte) -- the bytes of the latest response, for CHUNK_GET
  deriving DecidableEq, Repr

/-- Where data can no longer be corrected (16 R407, 03 R77), and what a remote side refuses (15 R395). -/
inductive Upset where
  | line (pa : Nat)                -- the 64-byte line of a physical address
  | mac (pa : Nat)                 -- the MAC of that line
  | node (key : Nat)               -- a counter node, keyed as `Mem.anc`
  | store (die line : Nat)         -- a 128-byte line of a weight store
  | reg (agent key : Nat)          -- a per-lane register
  | uni (agent k : Nat)            -- a uniform register
  | idx (agent key : Nat)          -- an index register
  | pred (agent key : Nat)         -- a predicate bit
  | slot (agent k : Nat)           -- a record slot
  | special (agent k : Nat)        -- a special register, the divergence stack or the handler frame
  | word (crew k : Nat)            -- a scratchpad word
  | elem (crew key : Nat)          -- an accumulator element
  | plane (crew : Nat) (shadow : Bool) -- a weight plane
  | refuse (part entry : Nat)      -- the next atomic through an aperture entry
  | item (seq : Nat)               -- the record of a restorable item (17 R437)
  deriving DecidableEq, Repr

/-- What happens next (log 3). -/
inductive Choice where
  | issue (agent : Nat)            -- this agent issues its next instruction
  | event (i : Instr)              -- this event happens
  | elapse (ns : Nat)              -- this much time passes
  | hold (cluster : Nat)           -- from now on the cluster's walks take time (03 R80)
  | serve (cluster walk : Nat)     -- one of the cluster's walks at work, counted from the oldest, ends
  | upset (u : Upset)              -- data can no longer be corrected, or a remote side refuses an atomic
  deriving DecidableEq, Repr

/-- The whole module. -/
structure State where
  teams  : List (Nat × Team)       -- by agent
  thr    : List (Nat × Thread)     -- by agent 0-127
  crews  : List (Nat × Crew)       -- by crew number
  nextCrew : Nat
  squads : List (Nat × Barrier)    -- squad barriers by fixture · 2^32 + squad
  fixtures : List (Nat × Fixture)
  nextFx : Nat
  parts  : List (Nat × Part)
  encl   : List (Nat × Enclave)
  posts  : List Post               -- oldest first
  nextToken : Nat
  mem    : Mem
  caches : Caches
  eng    : Engines
  links  : Links
  fw     : Firewall
  clk    : Clock
  board  : Board
  hold   : Hold
  health : Health
  spdm   : Spdm
  pass   : List PassReq            -- the requests of the pass that runs; none between instructions
  nextWait : Nat
  sched  : List (Nat × Nat)        -- by core · 4 + issue slot, 1 + the partition that had it last; by control core · 4,
                                   -- 1 + the thread that issued last (05 R135, 15 R378)
  agenda : List Choice
  cur    : Nat
  free   : Nat                     -- free values handed out so far (log 10)
  deriving DecidableEq, Repr

/-! ## Initial values -/

/-- No counts. -/
def Counters.zero : Counters := { copy := 0, tile := 0, matrix := 0, coll := 0, tag := 0 }

/-- The summary of a team that has raised nothing (01 R19, 08 R233). -/
def Summary.zero : Summary := { fpf := 0, dvf := 0, tci := 0, tcm := 0, tca := 0, tcx := 0 }

/-- The handler frame is 0 at team start (16 R403). -/
def Frame.zero : Frame := { hpc := 0, hmask := 0, rpm := 0, inh := false, sig := 0, folded := false, counted := [] }

/-- A team of `w` lanes with `n` registers per lane in the visible state of 01 R19, at program counter 0 and not
running. -/
def Team.blank (w n : Nat) : Team :=
  { width := w, pc := 0, block := [], blockAt := 0,
    active := laneMask w, live := laneMask w, exited := 0, stack := [], sig := 0, folded := false,
    v := [], x := [], u := [], p := [], recs := [], regs := n,
    fpmode := 0, srseed := 0x25450000 + 0xF491, amovGen := 0x25450000 + 0xF491, fpflags := 0, devflags := 0,
    tag := 0, sppass := 0, trapcause := 0, trappc := 0, trapmask := 0, uwc := [], cnt := .zero, sum := .zero,
    frame := .zero, replay := none, counted := [], causes := [], role := .solo, run := .stopped, waiting := none,
    parkCause := .pagef, token := 0, resolved := none, since := 0, aged := false, notBefore := 0, arrC := none, arrQ := none, dead := [], pfAt := 0,
    badV := [], badU := [], badX := [], badP := [], badR := [], badSr := [] }

/-- A control thread at reset: stopped, width 1, sr.regalloc 255 (01 R18, 15 R378), the flat record in b15 (03 R65). It is also what an agent number
that names no team reads as. -/
def Team.idle : Team := { Team.blank 1 255 with recs := [(15, Rec.flat0)] }

/-- A control thread in world 2 before any CTSET (16 R409). -/
def Thread.idle : Thread := { eid := 0, slot := 0, monitor := false, vec := none, note := 0, pending := false }

/-- An invalid plane (13 R331). -/
def Plane.none : Plane := { valid := false, sparse := false, ty := Option.none, poison := false, bad := false, w := [] }

/-- A barrier at placement (14 R372). -/
def Barrier.zero : Barrier := { phc := 0, arrived := 0, extra := 0 }

/-- A crew number that names no crew. -/
def Crew.none : Crew :=
  { fx := 0, part := 0, eid := 0, index := 0, rank := 0, squad := Option.none, core := Option.none,
    onRes := false, accs := 0, sprows := 0, tiles := 0, sp := [], badSp := [], tile := [],
    stages := [0, 0, 0, 0], bank := [], badBank := [], act := .none, shd := .none, mstat := 0, mops := [], bar := .zero,
    nteams := 0, placed := 0, done := true, frames := [], version := 0, exported := false, evictAt := 0 }

/-- The descriptor of a fixture number that names no fixture. -/
def Desc.none : Desc :=
  { code := 0, entry := 0, trapPol := 0, staged := false, tagMode := 0, cal := false, pfHnd := false, width := 32,
    teams := 1, squad := 0, regs := 8, prio := 0, sprows := 0, tiles := 0, accs := 0, gx := 1, gy := 1, gz := 1,
    roles := 0, rings := [0, 0, 0, 0], args := 0, compl := 0, traph := 0, pfh := 0, waits := [], sigEn := false,
    sigId := 0, deadline := 0, duration := 0, calEntry := 0, itag := 0 }

/-- A fixture number that names no fixture. -/
def Fixture.none : Fixture :=
  { part := 0, eid := 0, fid := 0, queue := 0, desc := .none, order := 0, tacc := 0, met := false,
    elig := Option.none, aged := false, slot := Option.none, resv := [], next := 0, ncrews := 0, doneCount := 0, fails := [], deadLanes := [],
    sum := .zero, tstart := 0, osa := 0, first := Option.none, retired := true }

/-- An idle calendar entry (02 R42). -/
def CalEntry.idle : CalEntry :=
  { armed := false, rule := 0, rslots := 0, rtiles := 0, racc := 0, start := 0, period := 0, rcrews := 0, rregs := 0,
    rsp := 0, rsquad := 0, eid := 0, cores := [], bound := [], nextSlot := 0 }

/-- An invalid aperture entry (03 R78). -/
def Aperture.none : Aperture :=
  { vabase := 0, pages := 0, eid := 0, perm := 0, route := 0, raddr := 0, target := 0, stream := 0 }

/-- A stream-table entry with no stream. -/
def Stream.none : Stream :=
  { st := .absent, eid := 0, pkg := 0, failev := 0, sid := 0, ctr := 0, haltAt := 0, authFails := 0, highest := 0,
    seen := [], key := 0 }

/-- An unconfigured partition; PCFG leaves everything but the configuration as here (02 R42, 05 R110). -/
def Part.none : Part :=
  { cfg := Option.none, events := [], nextFid := 1, cal := [], reqCpy := 0, reqCol := 0, impCpy := false,
    impCol := false, usedCpy := false, usedCol := false, apert := [], tags := [], lives := [], pool := [], callQ := Option.none, faultQ := Option.none, streams := [],
    suspended := false, osStop := false }

/-- A thread slot that nothing has entered. -/
def Slot.idle : Slot :=
  { entered := none, outer := none, inner := none, killed := false, trapped := none, retD := .vz, retPd := 0 }

/-- A FREE enclave ID (02 R44). -/
def Enclave.free : Enclave :=
  { st := .free, part := 0, openProf := false, threads := 0, entry := 0, repdata := 0, config := [], savepa := 0,
    savefr := 0, meas := 0, adds := 0, memKey := 0, saveKey := 0, sealKey := 0, slots := [], iv := 0, pageVer := [],
    pagedOut := [], items := [], crewVer := [], clear := 0, cleared := [] }

/-- A ring number that names no ring. -/
def Ring.none : Ring := { eid := 0, doorb := 0, base := 0, consumed := 0, posted := 0 }

/-- The hold store of a module that has never saved (log 11). -/
def Hold.empty : Hold :=
  { gen := 0, newest := none, area := 1, cur := none, restorable := [], srcGen := 0, srcCommitted := false, lost := [], hss := 0,
    retiredUnits := [] }

/-- Every field at its value after module reset of a module whose power is off. What the spec states for reset is
cited beside the field; the other values are those of log 11, and memory lists nothing (log 1). -/
def State.reset : State :=
  { teams := [], thr := [], crews := [], nextCrew := 0, squads := [], fixtures := [], nextFx := 0,
    parts := [], encl := [], posts := [], nextToken := 0,
    mem := { hbm := [], ipt := [], anchor := [], cells := [], ver := [], anc := [], badNode := [], badLine := [],
             badMac := [], ws := [], badWs := [], gran := [] },
    caches := { l1 := [], icache := [], l2 := [], msc := [], tlb := [] },
    eng := { bindCpy := [], bindCol := [], period := 100, nextPeriod := 100, boundary := 100000,  -- 05 R122
             rotation := 0, tileOps := [], copyOps := [], collOps := [], rings := [], nextOp := 0, walks := [], walkers := [],
             fetched := [], held := [] },
    links := { attached := false, bindings := [], tdi := [], ide := [], cpl := [], errs := [], out := [],
               failNext := [], group := [], resent := 0, rels := [], relsIn := [] },
    fw := { fwm := [(0, 0xFFFFFFFF)], lock := false },                                            -- 02 R37
    clk := { now := 0, ptp := 0, ptpRate := 0, ptpFrac := 0, holdover := false, step := none,
             mhz := [], mcyc := [], halved := 0 },                                               -- 06 R161, 00 R7
    board := { power := .off, t0 := 0, t0ptp := 0, capacity := 0, reserve := 0, bankReady := false,
               thermTrip := false, bankLow := false, bankDown := false, plim := 4000, pkgPower := 0, dieTemp := 0,
               overAt := none, calmAt := none, toWrite := [],
               saveAt := 0, lost := [] },
                                                                                                  -- 22 R481, R485
    hold := .empty,
    health := { score := [], st := [], bb := [], bbSeq := 0, saved := [] },                       -- 18 R456
    spdm := { negotiated := [], sessions := [], nextSession := 0, rsp := [], chunkIn := [], chunkOut := [] },
    pass := [], nextWait := 0, sched := [], agenda := [], cur := 0, free := 0 }

end Sys2Proof.Machine
end

