-- ==== Sys2Proof/Machine/Tbl.lean ====
section
/-! DEFINITION. Tables: lists of (key, value) pairs with rising keys, in which a key that is not listed holds the default
value. Memory, registers and every numbered thing of the state are tables; writing the default value removes the entry,
so that equal tables are equal lists. -/
namespace Sys2Proof.Machine

/-- The value of key `k`. -/
def tget {β : Type} (d : β) : List (Nat × β) → Nat → β
  | [], _ => d
  | (k', v) :: t, k => if k = k' then v else tget d t k

/-- The table without key `k`. -/
def tdel {β : Type} : List (Nat × β) → Nat → List (Nat × β)
  | [], _ => []
  | (k', v) :: t, k => if k = k' then tdel t k else (k', v) :: tdel t k

/-- The pair (k, v) put before the first key above `k`. -/
def tins {β : Type} : List (Nat × β) → Nat → β → List (Nat × β)
  | [], k, v => [(k, v)]
  | (k', v') :: t, k, v => if k < k' then (k, v) :: (k', v') :: t else (k', v') :: tins t k v

/-- The table with `v` at key `k`. -/
def tset {β : Type} [DecidableEq β] (d : β) (t : List (Nat × β)) (k : Nat) (v : β) : List (Nat × β) :=
  if v = d then tdel t k else tins (tdel t k) k v

/-- Every key of the table is above `k`. -/
def above {β : Type} (k : Nat) : List (Nat × β) → Bool
  | [] => true
  | (k', _) :: _ => k < k'

/-- The canonical form: keys rise strictly and no entry holds the default. -/
def twf {β : Type} [DecidableEq β] (d : β) : List (Nat × β) → Bool
  | [] => true
  | (k, v) :: t => v != d && above k t && twf d t

/-- The table with every value changed by `f`. -/
def tmap {β : Type} [DecidableEq β] (d : β) (f : β → β) (t : List (Nat × β)) : List (Nat × β) :=
  (t.map (fun x => (x.1, f x.2))).filter (fun x => x.2 != d)

/-- The table with each of the listed values written in turn. -/
def tsets {β : Type} [DecidableEq β] (d : β) (t : List (Nat × β)) (kvs : List (Nat × β)) : List (Nat × β) :=
  kvs.foldl (fun t kv => tset d t kv.1 kv.2) t

/-- The entries of the values at key `k` and up that are not the default. -/
def trun {β : Type} [DecidableEq β] (d : β) : Nat → List β → List (Nat × β)
  | _, [] => []
  | k, v :: vs => if v = d then trun d (k + 1) vs else (k, v) :: trun d (k + 1) vs

/-- The entries from key `k` on. -/
def tfrom {β : Type} (t : List (Nat × β)) (k : Nat) : List (Nat × β) := t.filter (fun x => decide (k ≤ x.1))

/-- The table with the values written at key `k` and up. -/
def tputs {β : Type} [DecidableEq β] (d : β) (t : List (Nat × β)) (k : Nat) (vs : List β) : List (Nat × β) :=
  t.filter (fun x => decide (x.1 < k)) ++ (trun d k vs ++ tfrom t (k + vs.length))

end Sys2Proof.Machine
end

