-- ==== Sys2Proof/Machine/Flags.lean ====
section
/-! DEFINITION. The sticky flags (08 R228-R233): their bits, the trap enables, and raising them into a team's registers
and its exception summary. -/
namespace Sys2Proof.Machine

/-- Bits of sr.fpflags (08 R229). -/
def fIV : W32 := 1
def fDZ : W32 := 2
def fOF : W32 := 4
def fUF : W32 := 8
def fNX : W32 := 16
def fIF : W32 := 32
def fSAT : W32 := 64

/-- Bits of sr.devflags (08 R229). -/
def dOOB : W32 := 1
def dBADREC : W32 := 2
def dDIV0 : W32 := 4
def dIOVF : W32 := 8
def dBADT : W32 := 16
def dEVSAT : W32 := 32

/-- A flag when the condition holds. -/
def flagIf (c : Bool) (f : W32) : W32 := if c then f else 0

/-- TEN: the flags whose FPX is enabled (08 R228). -/
def Team.ten (t : Team) : W32 := (t.fpmode >>> 8) &&& 0x7F

/-- IDZE (08 R228). -/
def Team.idze (t : Team) : Bool := t.fpmode.getLsbD 15

/-- flag() and dflag(): OR into the registers and the summary (00 R12, 08 R233). -/
def Team.raise (t : Team) (fl dfl : W32) : Team :=
  { t with fpflags := t.fpflags ||| fl, devflags := t.devflags ||| dfl,
           sum := { t.sum with fpf := t.sum.fpf ||| fl, dvf := t.sum.dvf ||| dfl } }

/-- The code of a trap cause (06 R168). -/
def Cause.code : Cause → BitVec 8
  | .illop => 0x01 | .illenc => 0x02 | .alignb => 0x03 | .badblk => 0x04 | .regidx => 0x05 | .divstk => 0x06
  | .sigmis => 0x07 | .sysdiv => 0x08 | .role => 0x09 | .priv => 0x0A | .regquota => 0x0B
  | .oob => 0x10 | .misalign => 0x11 | .pagef => 0x12 | .owner => 0x13 | .attrmix => 0x14 | .atomrt => 0x15
  | .perm => 0x16 | .tagexh => 0x17 | .tagbad => 0x18
  | .fpx => 0x20 | .idiv0 => 0x21 | .ue => 0x30 | .bpt => 0x31 | .trap => 0x32 | .pft => 0x40

/-- Every cause. -/
def Cause.all : List Cause :=
  [.illop, .illenc, .alignb, .badblk, .regidx, .divstk, .sigmis, .sysdiv, .role, .priv, .regquota, .oob, .misalign,
   .pagef, .owner, .attrmix, .atomrt, .perm, .tagexh, .tagbad, .fpx, .idiv0, .ue, .bpt, .trap, .pft]

/-- The cause that sr.trapcause holds. -/
def Cause.ofCode (c : BitVec 8) : Cause := (Cause.all.find? (fun x => x.code == c)).getD .trap

/-- A count of the summary rises to at most 4,095 (08 R233). -/
def sat12 (n : Nat) : Nat := if n < 4095 then n + 1 else 4095

/-- The trap counts by the class of the cause (08 R233); PFT is not counted. -/
def Summary.count (u : Summary) (c : Cause) : Summary :=
  let n := c.code.toNat
  if n ≤ 0x0B then { u with tci := sat12 u.tci }
  else if n ≤ 0x18 then { u with tcm := sat12 u.tcm }
  else if n ≤ 0x21 then { u with tca := sat12 u.tca }
  else if n ≤ 0x32 then { u with tcx := sat12 u.tcx }
  else u

/-- The class of 08 R233 that a cause counts in. -/
def Cause.cls (c : Cause) : Nat :=
  let n := c.code.toNat
  if n ≤ 0x0B then 0 else if n ≤ 0x18 then 1 else if n ≤ 0x21 then 2 else if n ≤ 0x32 then 3 else 4

/-- Two summaries merged: flags are ORed and counts are added, saturating (08 R233). -/
def Summary.merge (a b : Summary) : Summary :=
  { fpf := a.fpf ||| b.fpf, dvf := a.dvf ||| b.dvf, tci := min 4095 (a.tci + b.tci), tcm := min 4095 (a.tcm + b.tcm),
    tca := min 4095 (a.tca + b.tca), tcx := min 4095 (a.tcx + b.tcx) }

/-- The 64-bit summary word (08 R233). -/
def Summary.word (u : Summary) : W64 :=
  BitVec.ofNat 64 (u.fpf.toNat % 128 + u.dvf.toNat % 64 * 2 ^ 8 + u.tci % 4096 * 2 ^ 16 + u.tcm % 4096 * 2 ^ 28 +
    u.tca % 4096 * 2 ^ 40 + u.tcx % 4096 * 2 ^ 52)

end Sys2Proof.Machine
end

