-- ==== Sys2Proof/Machine/Float.lean ====
section
/-! DEFINITION. The number formats, the rounding function and the exact arithmetic of chapters 08 and 10. Values are exact
rationals; an exact real that is no rational (a root) carries a mark that it lies strictly above its rational part. -/
namespace Sys2Proof.Machine

/-! ## Formats (08 R211-R215) -/

/-- e of 08 R211. -/
def Ty.eb : Ty → Nat
  | .f64 => 11 | .f32 => 8 | .f16 => 5 | .bf16 => 8 | .f8e5 => 5 | .f8e4 => 4 | .f4 => 2 | _ => 1

/-- m of 08 R211. -/
def Ty.mb : Ty → Nat
  | .f64 => 52 | .f32 => 23 | .f16 => 10 | .bf16 => 7 | .f8e5 => 2 | .f8e4 => 3 | .f4 => 1 | _ => 0

/-- emin of 08 R211; that of e8 is −127 (08 R220). -/
def Ty.emin (t : Ty) : Int := if t = .e8 then -127 else 2 - 2 ^ (Ty.eb t - 1)

/-- The magnitude of infinity, where the format has one. -/
def Ty.infMag (t : Ty) : Nat := (2 ^ Ty.eb t - 1) * 2 ^ Ty.mb t

/-- The magnitude of the largest finite value. -/
def Ty.maxMag (t : Ty) : Nat :=
  match t with
  | .f8e4 => 0x7E
  | .f4 => 7
  | .e8 => 0xFE
  | t => Ty.infMag t - 1

/-- The canonical NaN; f4 has none and answers +0 (08 R225). -/
def Ty.nanPat (t : Ty) : Nat :=
  match t with
  | .f8e4 => 0x7F
  | .f4 => 0
  | .e8 => 0xFF
  | t => Ty.infMag t + 2 ^ (Ty.mb t - 1)

/-- The sign bit's weight. -/
def Ty.signW (t : Ty) : Nat := 2 ^ (t.bits - 1)

/-- A pattern of a sign and a magnitude. -/
def Ty.sgn (t : Ty) (neg : Bool) (mag : Nat) : Nat := if neg then Ty.signW t + mag else mag

/-- Sign and magnitude of a pattern. -/
def Ty.negP (t : Ty) (p : Nat) : Bool := p / Ty.signW t % 2 = 1
def Ty.magP (t : Ty) (p : Nat) : Nat := p % Ty.signW t

/-- A NaN pattern (08 R212, R213). -/
def Ty.isNaN (t : Ty) (p : Nat) : Bool :=
  match t with
  | .f4 => false
  | .f8e4 => Ty.magP t p = 0x7F
  | t => Ty.infMag t < Ty.magP t p

/-- A signalling NaN; f8e4 has none. -/
def Ty.isSNaN (t : Ty) (p : Nat) : Bool :=
  t != .f8e4 && Ty.isNaN t p && Ty.magP t p < Ty.infMag t + 2 ^ (Ty.mb t - 1)

/-- An infinite pattern. -/
def Ty.isInf (t : Ty) (p : Nat) : Bool := t != .f8e4 && t != .f4 && Ty.magP t p = Ty.infMag t

/-- A subnormal pattern. -/
def Ty.isSub (t : Ty) (p : Nat) : Bool := Ty.magP t p != 0 && Ty.magP t p < 2 ^ Ty.mb t

/-- A floating value: NaN, an infinity, or ±n · 2^e. -/
inductive FV where
  | nan
  | inf (neg : Bool)
  | fin (neg : Bool) (n : Nat) (e : Int)
  deriving DecidableEq, Repr

/-- The value of a pattern (08 R212, R213). -/
def Ty.val (t : Ty) (p : Nat) : FV :=
  let neg := Ty.negP t p
  let mag := Ty.magP t p
  if Ty.isNaN t p then .nan
  else if Ty.isInf t p then .inf neg
  else
    let ex := mag / 2 ^ Ty.mb t
    let fr := mag % 2 ^ Ty.mb t
    if ex = 0 then .fin neg fr (Ty.emin t - Ty.mb t)
    else .fin neg (2 ^ Ty.mb t + fr) (Ty.emin t - Ty.mb t + (ex - 1))

/-! ## Rounding (08 R217-R222) -/

/-- The effective controls of one lane: mode, input flush, output flush, saturation and the random word. -/
structure FEnv where
  md : Rnd
  fi : Bool
  fo : Bool
  sa : Bool
  w  : W32

/-- A pattern with the flags of sr.fpflags that it raised. -/
structure FOut where
  pat : Nat
  fl  : W32
  deriving DecidableEq, Repr

/-- srup (08 R221) of f = rem / den, plus a positive amount below 1 / den when `sticky`; den is then a multiple of
2^24. -/
def srup (w : W32) (rem den : Nat) (sticky : Bool) : Bool :=
  let d' := den / Nat.gcd rem den
  let n := d'.log2
  let k := if !sticky && 2 ^ n = d' then min n 24 else 24
  w.toNat % 2 ^ k < rem * 2 ^ k / den

/-- choose (08 R217), for the fraction of `srup` and whether n mod 2 = 1. -/
def choose (md : Rnd) (w : W32) (neg : Bool) (rem den : Nat) (sticky odd : Bool) : Bool :=
  let some := rem != 0 || sticky
  match md with
  | .rne => den < 2 * rem || (2 * rem = den && (sticky || odd))
  | .rna => den ≤ 2 * rem
  | .rz => false
  | .ru => some && !neg
  | .rd => some && neg
  | .sr => some && srup w rem den sticky
  | .dyn => false

/-- An exact result: NaN (with IV or not), an infinity, or ±num / den, a little above it in magnitude when `sticky`. A
zero has num = 0 and no mark. -/
inductive XR where
  | nan (iv : Bool)
  | inf (neg : Bool)
  | fin (neg : Bool) (num den : Nat) (sticky : Bool)
  deriving DecidableEq, Repr

/-- ±n · 2^e as an exact result. -/
def XR.ofFin (neg : Bool) (n : Nat) (e : Int) : XR := .fin neg (n * 2 ^ e.toNat) (2 ^ (-e).toNat) false

/-- A value as an exact result. -/
def FV.toX : FV → XR
  | .nan => .nan false
  | .inf neg => .inf neg
  | .fin neg n e => .ofFin neg n e

/-- floor(log2(num / den)) for num > 0. -/
def floorLog2 (num den : Nat) : Int :=
  let l : Int := (num.log2 : Int) - den.log2
  if den * 2 ^ l.toNat ≤ num * 2 ^ (-l).toNat then l else l - 1

/-- nanres (08 R225, R220). -/
def nanres (t : Ty) : FOut := { pat := Ty.nanPat t, fl := flagIf (t = .f4 || t = .e8) fIV }

/-- An overflow or an infinite argument, without and with saturation (08 R219): the pattern of the table's row. -/
def ovfPat (t : Ty) (md : Rnd) (neg isInf sa : Bool) : Nat :=
  let toward := match md with
    | .rz => true
    | .ru => neg
    | .rd => !neg
    | _ => false
  match t with
  | .f4 => Ty.sgn t neg 7
  | .f8e4 => if sa || (!isInf && toward) then Ty.sgn t neg 0x7E else 0x7F
  | .e8 => if neg then 0xFF else if sa || (!isInf && toward) then 0xFE else 0xFF
  | t => if sa || (!isInf && toward) then Ty.sgn t neg (Ty.maxMag t) else Ty.sgn t neg (Ty.infMag t)

/-- 08 R219: OF and NX of a finite overflow, IV of an infinite argument where the table says so, and SAT exactly when
saturation changed the result. -/
def ovf (t : Ty) (md : Rnd) (neg isInf sa : Bool) : FOut :=
  let p0 := ovfPat t md neg isInf false
  let p := ovfPat t md neg isInf sa
  let iv := isInf && ((t = .f8e4 && !sa) || t = .f4 || (t = .e8 && neg))
  { pat := p, fl := flagIf (!isInf) (fOF ||| fNX) ||| flagIf iv fIV ||| flagIf (p != p0) fSAT }

/-- Rounding to e8 of a positive value (08 R220): the spacing near it is its own power of two. -/
def rndE8 (v : FEnv) (num den : Nat) (sticky : Bool) : FOut :=
  let ex := floorLog2 num den
  if ex < -127 then { pat := 0, fl := fUF ||| fNX }
  else
    let nn := num * 2 ^ (-ex).toNat
    let dd := den * 2 ^ ex.toNat
    let rem := nn % dd
    let k := (ex + 127).toNat
    let up := choose v.md v.w false rem dd sticky (k % 2 = 1)
    let nx := flagIf (rem != 0 || sticky) fNX
    let k' := if up then k + 1 else k
    if 0xFE < k' then
      let o := ovf .e8 v.md false false v.sa
      { pat := o.pat, fl := nx ||| o.fl }
    else { pat := k', fl := nx }

/-- rnd of a non-zero finite magnitude (08 R217). The spacing is 2^(ex − m), and the magnitude pattern of n spacings is
(ex − emin) · 2^m + n. -/
def rndFin (t : Ty) (v : FEnv) (neg : Bool) (num den : Nat) (sticky : Bool) : FOut :=
  let ex := max (floorLog2 num den) (Ty.emin t)
  let q := ex - Ty.mb t
  let nn := num * 2 ^ (-q).toNat
  let dd := den * 2 ^ q.toNat
  let n := nn / dd
  let rem := nn % dd
  let inexact := rem != 0 || sticky
  let up := choose v.md v.w neg rem dd sticky (n % 2 = 1)
  let mag := (ex - Ty.emin t).toNat * 2 ^ Ty.mb t + (if up then n + 1 else n)
  let fl := flagIf inexact fNX ||| flagIf (inexact && n < 2 ^ Ty.mb t) fUF
  if Ty.maxMag t < mag then
    let o := ovf t v.md neg false v.sa
    { pat := o.pat, fl := fl ||| o.fl }
  else if v.fo && mag != 0 && mag < 2 ^ Ty.mb t then { pat := Ty.sgn t neg 0, fl := fl ||| fUF ||| fNX }
  else { pat := Ty.sgn t neg mag, fl := fl }

/-- rnd(v, t, m) with the effective controls (08 R217, R220, R225). -/
def rnd (t : Ty) (v : FEnv) (x : XR) : FOut :=
  match x with
  | .nan iv => { pat := (nanres t).pat, fl := (nanres t).fl ||| flagIf iv fIV }
  | .inf neg => ovf t v.md neg true v.sa
  | .fin neg num den sticky =>
    if t = .e8 then (if num = 0 ∨ neg then { pat := 0xFF, fl := fIV } else rndE8 v num den sticky)
    else if num = 0 then { pat := Ty.sgn t neg 0, fl := 0 }
    else rndFin t v neg num den sticky

/-- adv (08 R222). -/
def adv (g : W32) : W32 :=
  let g := g ^^^ (g <<< 13)
  let g := g ^^^ (g >>> 17)
  g ^^^ (g <<< 5)

/-- adv applied n times. -/
def advN : Nat → W32 → W32
  | 0, g => g
  | n + 1, g => advN n (adv g)

/-- rotl (00 R12). -/
def rotl (x : W32) (n : Nat) : W32 := x.rotateLeft (n % 32)

/-! ## Sources (10 R262) -/

/-- fsrc: the processed pattern and the flags. A NaN becomes the canonical NaN. -/
def fsrc (t : Ty) (fi neg abs : Bool) (p : Nat) : FOut :=
  if Ty.isNaN t p then { pat := Ty.nanPat t, fl := flagIf (Ty.isSNaN t p) fIV }
  else
    let flush := fi && Ty.isSub t p
    let mag := if flush then 0 else Ty.magP t p
    let s := if abs then false else Ty.negP t p
    { pat := Ty.sgn t (if neg then !s else s) mag, fl := flagIf flush fIF }

/-! ## Exact arithmetic (10 R264, R267-R271) -/

/-- A product; none is 0 · inf. -/
def FV.mul : FV → FV → Option FV
  | .nan, _ => some .nan
  | _, .nan => some .nan
  | .inf a, .inf b => some (.inf (a != b))
  | .inf a, .fin b n _ => if n = 0 then none else some (.inf (a != b))
  | .fin a n _, .inf b => if n = 0 then none else some (.inf (a != b))
  | .fin a n e, .fin b k f => some (.fin (a != b) (n * k) (e + f))

def FV.neg : FV → FV
  | .nan => .nan
  | .inf a => .inf (!a)
  | .fin a n e => .fin (!a) n e

def FV.isNan : FV → Bool
  | .nan => true
  | _ => false

/-- An infinity of the given sign. -/
def FV.isInfOf (neg : Bool) : FV → Bool
  | .inf a => a == neg
  | _ => false

/-- The signed multiple of 2^e0 that a finite addend is. -/
def FV.scaled (e0 : Int) : FV → Int
  | .fin neg n e => (if neg then -1 else 1) * ((n * 2 ^ (e - e0).toNat : Nat) : Int)
  | _ => 0

/-- A zero of the given sign. -/
def FV.isZeroOf (neg : Bool) : FV → Bool
  | .fin a n _ => a == neg && n == 0
  | _ => false

/-- The least exponent of the addends. -/
def minExp : List FV → Int
  | [] => 0
  | .fin _ _ e :: t => min e (minExp t)
  | _ :: t => minExp t

/-- The exact sum of addends (10 R264, R267, R271): an invalid product first, then a NaN, then opposite infinities. -/
def sumX (md : Rnd) (xs : List (Option FV)) : XR :=
  if xs.any (fun x => x.isNone) then .nan true
  else
    let vs := xs.filterMap id
    if vs.any FV.isNan then .nan false
    else
      let pi := vs.any (FV.isInfOf false)
      let ni := vs.any (FV.isInfOf true)
      if pi && ni then .nan true
      else if pi then .inf false
      else if ni then .inf true
      else
        let e0 := minExp vs
        let s := (vs.map (FV.scaled e0)).sum
        if s = 0 then
          let neg := if vs.all (FV.isZeroOf true) then true else if vs.all (FV.isZeroOf false) then false else md == .rd
          .fin neg 0 1 false
        else .ofFin (s < 0) s.natAbs e0

/-- The exact quotient (10 R268) and whether it raises DZ. -/
def divX (a b : FV) : XR × Bool :=
  match a, b with
  | .nan, _ => (.nan false, false)
  | _, .nan => (.nan false, false)
  | .inf _, .inf _ => (.nan true, false)
  | .inf s, .fin r _ _ => (.inf (s != r), false)
  | .fin s _ _, .inf r => (.fin (s != r) 0 1 false, false)
  | .fin s n e, .fin r k f =>
    if k = 0 then (if n = 0 then (.nan true, false) else (.inf (s != r), true))
    else (.fin (s != r) (n * 2 ^ (e - f).toNat) (k * 2 ^ (f - e).toNat) false, false)

/-- The largest r + Σ of the given powers of two whose square is at most n. -/
def isqrtGo (n : Nat) : Nat → Nat → Nat
  | 0, r => r
  | i + 1, r => if (r + 2 ^ i) * (r + 2 ^ i) ≤ n then isqrtGo n i (r + 2 ^ i) else isqrtGo n i r

/-- floor(√n). -/
def isqrt (n : Nat) : Nat := isqrtGo n (n.log2 / 2 + 1) 0

/-- The exact root (10 R268), with 96 bits below the unit of the radicand and the mark for what lies below them. -/
def sqrtX (a : FV) : XR :=
  match a with
  | .nan => .nan false
  | .inf false => .inf false
  | .inf true => .nan true
  | .fin s n e =>
    if n = 0 then .fin s 0 1 false
    else if s then .nan true
    else
      let n2 := if e % 2 = 0 then n else 2 * n
      let h := e / 2                                     -- floor, so e = 2 · h + e mod 2
      let k := n2 * 4 ^ 96
      let r := isqrt k
      .fin false (r * 2 ^ h.toNat) (2 ^ 96 * 2 ^ (-h).toNat) (r * r != k)

/-- a < b of two values that are no NaN, with −0 = +0 unless `zeros` orders them (07 R206, 10 R269). -/
def FV.lt (zeros : Bool) (a b : FV) : Bool :=
  match a, b with
  | .nan, _ => false
  | _, .nan => false
  | .inf s, .inf r => s && !r
  | .inf s, .fin _ _ _ => s
  | .fin _ _ _, .inf r => !r
  | .fin s n e, .fin r k f =>
    if n = 0 ∧ k = 0 then zeros && s && !r
    else
      let e0 := min e f
      decide (FV.scaled e0 (.fin s n e) < FV.scaled e0 (.fin r k f))

/-- minimumNumber or maximumNumber of two processed patterns (10 R269). -/
def minmaxF (t : Ty) (isMax : Bool) (p q : Nat) : FOut :=
  let a := Ty.val t p
  let b := Ty.val t q
  if a.isNan && b.isNan then nanres t
  else if a.isNan then { pat := q, fl := 0 }
  else if b.isNan then { pat := p, fl := 0 }
  else if isMax then { pat := if a.lt true b then q else p, fl := 0 }
  else { pat := if b.lt true a then q else p, fl := 0 }

/-! ## Integral rounding, scaling, classes (10 R272-R274) -/

/-- The magnitude of n · 2^e rounded to an integer, and whether it changed (08 R218). -/
def roundInt (v : FEnv) (neg : Bool) (n : Nat) (e : Int) : Nat × Bool :=
  let dd := 2 ^ (-e).toNat
  let nn := n * 2 ^ e.toNat
  let k := nn / dd
  let up := choose v.md v.w neg (nn % dd) dd false (k % 2 = 1)
  (if up then k + 1 else k, nn % dd != 0)

/-- Controls under which an exactly representable value is encoded. -/
def FEnv.exact : FEnv := { md := .rne, fi := false, fo := false, sa := false, w := 0 }

/-- FRND of a processed pattern (10 R273). -/
def frndX (t : Ty) (v : FEnv) (p : Nat) : FOut :=
  match Ty.val t p with
  | .nan => nanres t
  | .inf neg => { pat := Ty.sgn t neg (Ty.infMag t), fl := 0 }
  | .fin neg n e =>
    let (k, nx) := roundInt v neg n e
    { pat := (rnd t .exact (.ofFin neg k 0)).pat, fl := flagIf nx fNX }

/-- An exponent outside which every finite value of every format overflows or falls below half the least spacing. -/
def clampExp (k : Int) : Int := max (-8192) (min 8192 k)

/-- FSCL of a processed pattern by 2^k; no k is an e8 scale of NaN (10 R274). -/
def fsclX (t : Ty) (v : FEnv) (p : Nat) (k : Option Int) : FOut :=
  match k with
  | none => { pat := (nanres t).pat, fl := (nanres t).fl ||| fIV }
  | some k =>
    match Ty.val t p with
    | .fin neg n e => rnd t v (.ofFin neg n (e + clampExp k))
    | x => rnd t v x.toX

/-- The class word (10 R272). -/
def fclassX (t : Ty) (p : Nat) : W32 :=
  let neg := Ty.negP t p
  let k :=
    if Ty.isSNaN t p then 0
    else if Ty.isNaN t p then 1
    else if Ty.isInf t p then (if neg then 2 else 9)
    else if Ty.magP t p = 0 then (if neg then 5 else 6)
    else if Ty.isSub t p then (if neg then 4 else 7)
    else (if neg then 3 else 8)
  1 <<< k

/-! ## Integer values (00 R12, 08 R215) -/

/-- Least and greatest value of an integer type. -/
def Ty.minI (t : Ty) : Int := if t.isI then -(2 ^ (t.bits - 1)) else 0
def Ty.maxI (t : Ty) : Int := if t.isI then 2 ^ (t.bits - 1) - 1 else 2 ^ t.bits - 1

/-- sext(x, n) and zext(x, n). -/
def sextI (x n : Nat) : Int := if x % 2 ^ n < 2 ^ (n - 1) then ((x % 2 ^ n : Nat) : Int) else ((x % 2 ^ n : Nat) : Int) - 2 ^ n
def zextI (x n : Nat) : Int := ((x % 2 ^ n : Nat) : Int)

/-- The integer value of a pattern: signed for i types, ternary for t2, unsigned for the others (08 R215). -/
def Ty.intVal (t : Ty) (p : Nat) : Int :=
  if t.isI then sextI p t.bits
  else if t = .t2 then (match p % 4 with | 1 => 1 | 3 => -1 | _ => 0)
  else zextI p t.bits

/-- A t2 pattern 0b10 was read. -/
def Ty.badT (t : Ty) (p : Nat) : Bool := t = .t2 && p % 4 = 2

/-- wrap(v, n). -/
def wrapI (v : Int) (n : Nat) : Nat := (v % 2 ^ n).toNat

/-- The value clamped to the type, and whether that changed it (00 R12). -/
def clampI (t : Ty) (v : Int) : Int := max (Ty.minI t) (min (Ty.maxI t) v)

/-- sat(v, t) or wrap(v, n), as an n-bit pattern with the flag. -/
def narrow (t : Ty) (sat : Bool) (v : Int) : FOut :=
  if sat then { pat := wrapI (clampI t v) t.bits, fl := flagIf (clampI t v != v) fSAT }
  else { pat := wrapI v t.bits, fl := 0 }

/-! ## Conversions (10 R278-R281) -/

/-- f2i (10 R279): the pattern of the integer. -/
def f2i (dt : Ty) (v : FEnv) (x : FV) : FOut :=
  match x with
  | .nan => { pat := 0, fl := fIV }
  | .inf neg => { pat := wrapI (if neg then Ty.minI dt else Ty.maxI dt) dt.bits, fl := fIV }
  | .fin neg n e =>
    let (k, nx) := roundInt v neg n e
    let i : Int := if neg then -(k : Int) else k
    if clampI dt i = i then { pat := wrapI i dt.bits, fl := flagIf nx fNX }
    else { pat := wrapI (clampI dt i) dt.bits, fl := fIV }

/-- convert(p, st → dt) of 10 R278, R281: the pattern, its flags, and whether BADT is raised. e8 0xFF to f4 is +0 without a flag,
as R278's row says, where 08 R225's nanres(f4) raises IV (DEDUCED, log 78). -/
def convert (st dt : Ty) (v : FEnv) (neg abs : Bool) (p : Nat) : FOut × Bool :=
  if st.isF then
    let s := fsrc st v.fi neg abs p
    let x := Ty.val st s.pat
    let o := if dt.isF || dt = .e8 then rnd dt v x.toX else f2i dt v x
    ({ pat := o.pat, fl := s.fl ||| o.fl }, false)
  else if st = .e8 then
    (if p % 256 = 0xFF then { pat := Ty.nanPat dt, fl := 0 }
     else rnd dt v (.ofFin false 1 ((p % 256 : Nat) - 127)), false)
  else
    let i := Ty.intVal st p
    (if dt.isF then rnd dt v (.ofFin (i < 0) i.natAbs 0) else narrow dt v.sa i, Ty.badT st p)

/-- A single scalar narrower than 32 bits in a 32-bit register (08 R216), or a wider one as it is. -/
def Ty.extend (t : Ty) (p : Nat) : W64 :=
  if t.bits < 32 && t.isI then (BitVec.ofInt 32 (sextI p t.bits)).setWidth 64 else BitVec.ofNat 64 p

end Sys2Proof.Machine
end

