-- ==== Sys2Proof/Machine/Operands.lean ====
section
/-! DEFINITION. Guards, masks and operands (00 R12, 06 R147, R156, R157, 09 R235, R240): which lanes an instruction acts
for, what an operand field supplies to a lane, and what writing a destination does. -/
namespace Sys2Proof.Machine

/-- The lanes of a mask below `w`, rising. -/
def lanes (w : Nat) (m : Mask) : List Nat := (List.range w).filter (fun l => m.getLsbD l)

/-- Mask word i (01 R16). -/
def maskWord (m : Mask) (i : Nat) : W32 := m.extractLsb' (32 * i) 32

/-- Passes of a mask: its non-empty words (01 R17). -/
def passWords (m : Mask) : List Nat := (List.range 32).filter (fun i => maskWord m i != 0)

/-- One lane as a mask. -/
def oneLane (l : Nat) : Mask := 1#1024 <<< l

/-- The lanes of a list as a mask. -/
def maskOf (ls : List Nat) : Mask := ls.foldl (fun m l => m ||| oneLane l) 0

/-- How many lanes below w a mask holds. -/
def popMask (w : Nat) (m : Mask) : Nat := (lanes w m).length

/-- Predicate p`k` over the lanes; p0 is true (06 R159). -/
def Team.pred (t : Team) (k : Nat) : Mask := if k = 0 then BitVec.allOnes 1024 else tget 0 t.p k

/-- Predicate p`k` of one lane. -/
def Team.predLane (t : Team) (k l : Nat) : Bool := (t.pred k).getLsbD l

/-- A write to p0 is discarded (06 R159). -/
def Team.setPred (t : Team) (k : Nat) (m : Mask) : Team := if k = 0 then t else { t with p := tset 0 t.p k m }

/-- One lane of a predicate. -/
def Team.setPredLane (t : Team) (k l : Nat) (b : Bool) : Team :=
  { t.setPred k (if b then t.pred k ||| oneLane l else t.pred k &&& ~~~ oneLane l) with
    badP := t.badP.filter (fun x => x != l * 16 + k) }

/-- A predicate written in every lane of a mask. -/
def Team.setPredMask (t : Team) (k : Nat) (m : Mask) (b : Bool) : Team :=
  { t.setPred k (if b then t.pred k ||| m else t.pred k &&& ~~~ m) with
    badP := t.badP.filter (fun x => !(x % 16 == k && m.getLsbD (x / 16))) }

/-- The lanes for which the guard holds (06 R147). -/
def Team.guardMask (t : Team) (g : Guard) : Mask := if g.neg then ~~~ t.pred g.p.toNat else t.pred g.p.toNat

/-- Active lanes that are neither dead nor exited. -/
def Team.cur (t : Team) : Mask := t.active &&& t.live &&& ~~~ t.exited

/-- T: the lanes with en(l) (00 R12); a replay acts for its own lanes only (16 R404, R422). -/
def Team.en (t : Team) (g : Guard) : Mask :=
  match t.replay with
  | none => t.cur &&& t.guardMask g
  | some m => t.cur &&& t.guardMask g &&& m

/-- Registers. -/
def Team.vreg (t : Team) (l r : Nat) : W32 := tget 0 t.v (l * 256 + r)
def Team.xreg (t : Team) (l k : Nat) : BitVec 16 := tget 0 t.x (l * 8 + k)
def Team.ureg (t : Team) (r : Nat) : W64 := tget 0 t.u r
def Team.rslot (t : Team) (b : Nat) : Rec := tget .null t.recs b

/-- Writing a register stores correct data there. -/
def Team.setV (t : Team) (l r : Nat) (v : W32) : Team :=
  { t with v := tset 0 t.v (l * 256 + r) v, badV := t.badV.filter (fun k => k != l * 256 + r) }
def Team.setX (t : Team) (l k : Nat) (v : BitVec 16) : Team :=
  { t with x := tset 0 t.x (l * 8 + k) v, badX := t.badX.filter (fun j => j != l * 8 + k) }
def Team.setU (t : Team) (r : Nat) (v : W64) : Team :=
  { t with u := tset 0 t.u r v, badU := t.badU.filter (fun k => k != r) }
def Team.setRec (t : Team) (b : Nat) (r : Rec) : Team :=
  { t with recs := tset .null t.recs b r, badR := t.badR.filter (fun j => j != b) }

/-- The value of a small immediate (06 R156). -/
def immVal (c : BitVec 5) : Int := (c.toNat : Int) - 16

/-- Registers per lane that a team can name: sr.regalloc, which is at most 255 (05 R133). -/
def Team.nregs (t : Team) : Nat := min t.regs 255

/-- The first of `n` registers that a per-lane operand names in lane `l`, aligned to `al` when it is indexed; none for
vz and for an operand that is no per-lane register (06 R156, R157, 09 R240). -/
def Team.regOf (t : Team) (l n al : Nat) : Operand → Except Cause (Option Nat)
  | .v r => if r = 255 then .ok none else if r.toNat + n ≤ t.nregs then .ok (some r.toNat) else .error .regidx
  | .idx k o =>
    let r : Int := (t.xreg l k.toNat).toInt + o.toNat
    if r < 0 ∨ r + n > t.nregs ∨ r.toNat % al ≠ 0 then .error .regidx else .ok (some r.toNat)
  | _ => .ok none

/-- Alignment of an indexed register range of `r` registers (06 R157, 12 R301). -/
def rangeAl (r : Nat) : Nat := if 2 ≤ r then 2 else 1

/-- A 32-bit operand for lane `l`. -/
def Team.rd32 (t : Team) (l : Nat) (o : Operand) : Except Cause W32 :=
  match o with
  | .s r => .ok ((t.ureg r.toNat).setWidth 32)
  | .imm c => .ok (BitVec.ofInt 32 (immVal c))
  | o => (t.regOf l 1 1 o).map (fun r => match r with | none => 0 | some r => t.vreg l r)

/-- A 64-bit operand for lane `l`: a pair, a uniform register or a sign-extended immediate. -/
def Team.rd64 (t : Team) (l : Nat) (o : Operand) : Except Cause W64 :=
  match o with
  | .s r => .ok (t.ureg r.toNat)
  | .imm c => .ok (BitVec.ofInt 64 (immVal c))
  | o => (t.regOf l 2 2 o).map (fun r => match r with | none => 0 | some r => t.vreg l (r + 1) ++ t.vreg l r)

/-- A data operand of either width, zero-extended to 64 bits. -/
def Team.rdData (t : Team) (l : Nat) (wide : Bool) (o : Operand) : Except Cause W64 :=
  if wide then t.rd64 l o else (t.rd32 l o).map (fun v => v.setWidth 64)

/-- opnd(X, −) of a uniform register or small immediate as a 64-bit value (05 R129). -/
def Team.opndU (t : Team) (o : Operand) : W64 :=
  match o with
  | .s r => t.ureg r.toNat
  | .imm c => BitVec.ofInt 64 (immVal c)
  | _ => 0

/-- A result written to register `r` of lane `l`, or discarded. -/
def Team.putLane (t : Team) (l : Nat) (wide : Bool) (r : Option Nat) (v : W64) : Team :=
  match r with
  | none => t
  | some r =>
    if wide then (t.setV l r (v.setWidth 32)).setV l (r + 1) ((v >>> 32).setWidth 32) else t.setV l r (v.setWidth 32)

/-- A result written to a uniform register: 32-bit results are zero-extended (06 R157). -/
def Team.putUni (t : Team) (wide : Bool) (o : Operand) (v : W64) : Team :=
  match o with
  | .s r => t.setU r.toNat (if wide then v else (v.setWidth 32).setWidth 64)
  | _ => t

/-- setd(D, −, v) of a 64-bit value to a uniform register or 0x0FF. -/
def Team.setdU (t : Team) (o : Operand) (v : W64) : Team := t.putUni true o v

/-! ## Per-lane execution -/

/-- What one lane computes: its result, its predicate writes, an index-register write and the flags it raises. -/
structure LaneRes where
  val : W64 := 0
  pw  : List (Nat × Bool) := []
  xw  : Option (Nat × BitVec 16) := none
  fl  : W32 := 0
  dfl : W32 := 0

/-- Trapped lanes with their causes. -/
abbrev Traps := List (Nat × Cause)

/-- The predicate and index-register writes of one lane. -/
def Team.putSide (t : Team) (l : Nat) (o : LaneRes) : Team :=
  let t := o.pw.foldl (fun t (kb : Nat × Bool) => t.setPredLane kb.1 l kb.2) t
  match o.xw with
  | none => t
  | some (k, v) => t.setX l k v

/-- One lane: every source comes from `t0`, the team before the instruction (00 R11). A lane that raises an enabled flag
takes FPX, keeps its flags and writes nothing (08 R230). -/
def runLane (t0 : Team) (d : Operand) (wide : Bool) (f : Nat → Except Cause LaneRes) (acc : Team × Traps) (l : Nat) :
    Team × Traps :=
  match t0.regOf l (if wide then 2 else 1) (if wide then 2 else 1) d with
  | .error c => (acc.1, acc.2 ++ [(l, c)])
  | .ok r =>
    match f l with
    | .error c => (acc.1, acc.2 ++ [(l, c)])
    | .ok o =>
      let t := acc.1.raise o.fl o.dfl
      if o.fl &&& t0.ten ≠ 0 then (t, acc.2 ++ [(l, .fpx)]) else ((t.putLane l wide r o.val).putSide l o, acc.2)

/-- A uniform destination: the result is computed once, for the lowest lane of T, its predicate results are written in
every lane of T, and a trap is recorded in every lane of T (09 R236). In mode SR it takes that lane's w_l (DESIGN CHOICE, log
80). -/
def runUniform (t0 : Team) (d : Operand) (wide : Bool) (f : Nat → Except Cause LaneRes) (ls : List Nat) : Team × Traps :=
  match ls with
  | [] => (t0, [])
  | l :: _ =>
    match f l with
    | .error c => (t0, ls.map (fun l => (l, c)))
    | .ok o =>
      let t := t0.raise o.fl o.dfl
      if o.fl &&& t0.ten ≠ 0 then (t, ls.map (fun l => (l, .fpx)))
      else (ls.foldl (fun t l => t.putSide l o) (t.putUni wide d o.val), [])

/-- The instruction's effect for the lanes of T, in lane order (00 R11, 09 R237). -/
def runLanes (t : Team) (m : Mask) (d : Operand) (wide : Bool) (f : Nat → Except Cause LaneRes) : Team × Traps :=
  if d.isUni then runUniform t d wide f (lanes t.width m)
  else (lanes t.width m).foldl (runLane t d wide f) (t, [])

end Sys2Proof.Machine
end

