-- ==== Sys2Proof/Machine/Acc.lean ====
section
/-! DEFINITION. Named reads and writes of the state's parts, the agents' places and worlds, clocks, free values, the black
box and the suspicion scores. -/
namespace Sys2Proof.Machine

namespace State

/-! ## Tables -/

def team (s : State) (a : Nat) : Team := tget Team.idle s.teams a
def setTeam (s : State) (a : Nat) (t : Team) : State := { s with teams := tset Team.idle s.teams a t }
def modTeam (s : State) (a : Nat) (f : Team → Team) : State := s.setTeam a (f (s.team a))
def thread (s : State) (a : Nat) : Thread := tget Thread.idle s.thr a
def setThread (s : State) (a : Nat) (t : Thread) : State := { s with thr := tset Thread.idle s.thr a t }
def crew (s : State) (n : Nat) : Crew := tget Crew.none s.crews n
def setCrew (s : State) (n : Nat) (c : Crew) : State := { s with crews := tset Crew.none s.crews n c }
def modCrew (s : State) (n : Nat) (f : Crew → Crew) : State := s.setCrew n (f (s.crew n))
def fixture (s : State) (n : Nat) : Fixture := tget Fixture.none s.fixtures n
def setFixture (s : State) (n : Nat) (f : Fixture) : State := { s with fixtures := tset Fixture.none s.fixtures n f }
def modFixture (s : State) (n : Nat) (f : Fixture → Fixture) : State := s.setFixture n (f (s.fixture n))
def part (s : State) (n : Nat) : Part := tget Part.none s.parts n
def setPart (s : State) (n : Nat) (p : Part) : State := { s with parts := tset Part.none s.parts n p }
def modPart (s : State) (n : Nat) (f : Part → Part) : State := s.setPart n (f (s.part n))
def enc (s : State) (n : Nat) : Enclave := tget Enclave.free s.encl n
def setEnc (s : State) (n : Nat) (e : Enclave) : State := { s with encl := tset Enclave.free s.encl n e }
def modEnc (s : State) (n : Nat) (f : Enclave → Enclave) : State := s.setEnc n (f (s.enc n))
def squad (s : State) (k : Nat) : Barrier := tget Barrier.zero s.squads k
def setSquad (s : State) (k : Nat) (b : Barrier) : State := { s with squads := tset Barrier.zero s.squads k b }
def stream (s : State) (p k : Nat) : Stream := tget Stream.none (s.part p).streams k
def setStream (s : State) (p k : Nat) (x : Stream) : State :=
  s.modPart p (fun q => { q with streams := tset Stream.none q.streams k x })
def event (s : State) (p i : Nat) : W32 := tget 0 (s.part p).events i

end State

/-- A tile-table entry of a crew (11 R288). -/
def Crew.tileAt (c : Crew) (k : Nat) : Tile := tget .reset c.tile k
def Crew.setTile (c : Crew) (k : Nat) (t : Tile) : Crew := { c with tile := tset .reset c.tile k t }

/-- A tile with its state and LSTAT after an operation ended there. -/
def State.endTile (s : State) (n k : Nat) (st : TileState) (status : BitVec 8) : State :=
  s.modCrew n (fun c => c.setTile k { c.tileAt k with st := st, lstat := status })

/-! ## Agents -/

/-- A control thread's agent number. -/
def isThread (a : Nat) : Bool := a < 128

/-- The crew number and the team number of a SIMT agent. -/
def crewNo (a : Nat) : Nat := (a - 128) / 16
def teamNo (a : Nat) : Nat := (a - 128) % 16

/-- The agent of a crew's team. -/
def agentOf (crew k : Nat) : Nat := 128 + 16 * crew + k

namespace State

/-- sr.enclave (02 R44). -/
def eidOf (s : State) (a : Nat) : Nat := if isThread a then (s.thread a).eid else (s.crew (crewNo a)).eid

/-- The partition of an agent in world 4 or above. -/
def partOf (s : State) (a : Nat) : Nat :=
  if isThread a then (s.enc (s.thread a).eid).part else (s.crew (crewNo a)).part

/-- The world of an agent's transactions (02 R36). -/
def worldOf (s : State) (a : Nat) : Nat :=
  if isThread a then
    if (s.thread a).eid ≠ 0 then 4 + s.partOf a else if (s.thread a).monitor then 1 else 2
  else 4 + s.partOf a

/-- The privilege level of an agent (06 R160). -/
def levelOf (s : State) (a : Nat) : Level := if isThread a ∧ (s.thread a).eid = 0 then .l1 else .l0

/-- A control thread outside every enclave, in world 2. -/
def osThread (s : State) (a : Nat) : Bool := isThread a && s.worldOf a == 2

/-- sr.coreid (06 R161). -/
def coreOf (s : State) (a : Nat) : Nat := if isThread a then 768 + a / 2 else (s.crew (crewNo a)).core.getD 0

/-- The cluster of a core: 192 SIMT cores and 16 control cores each (00 R2, 15 R378). -/
def clusterOfCore (c : Nat) : Nat := if c < 768 then c / 192 else (c - 768) / 16

def clusterOf (s : State) (a : Nat) : Nat := clusterOfCore (s.coreOf a)

/-- The compute die of a SIMT core. -/
def dieOf (s : State) (a : Nat) : Nat := s.coreOf a / 96

/-- The fixture of a SIMT agent. -/
def fxOf (s : State) (a : Nat) : Nat := (s.crew (crewNo a)).fx

/-- A team's crew is on a core. -/
def resident (s : State) (a : Nat) : Bool := isThread a || (s.crew (crewNo a)).core.isSome

/-! ## Time -/

/-- The cluster's core clock in MHz (00 R7, 22 R481). -/
def mhzOf (s : State) (cl : Nat) : Nat := tget 3300 s.clk.mhz cl

/-- Thousandths of a core cycle since module reset, by cluster. -/
def mcycOf (s : State) (cl : Nat) : Nat := tget 0 s.clk.mcyc cl

/-- The same for an agent's core. -/
def mcyc (s : State) (a : Nat) : Nat := s.mcycOf (s.clusterOf a)

/-- sr.cycle (06 R161). -/
def cycle (s : State) (a : Nat) : W64 := BitVec.ofNat 64 (s.mcyc a / 1000)

/-! ## Free values (log 10) -/

/-- `n` bytes of the next free value. -/
def freeBytes (s : State) (n : Nat) : List Byte × State :=
  ((List.range n).map (Config.freeByte s.free), { s with free := s.free + 1 })

/-! ## Black box and scores (18 R456-R459) -/

/-- Unit class and index of a scored unit (18 R456). -/
def unitCode : UnitName → Nat × Nat
  | .core n => (1, n) | .slice n => (2, n) | .channel n => (3, n) | .laneGroup n => (4, n)

/-- The key of a unit in `Health`. -/
def unitKey : UnitName → Nat
  | .core n => n | .slice n => 1000 + n | .channel n => 2000 + n | .laneGroup n => 3000 + n

/-- One more event in the ring of the last 4,096 (18 R456). -/
def log (s : State) (type uclass world unit eid : Nat) (detail : W64) : State :=
  { s with health := { s.health with
      bb := ({ seq := s.health.bbSeq, time := s.clk.ptp, type := type, uclass := uclass, world := world, unit := unit,
               eid := eid, detail := detail } :: s.health.bb).take 4096
      bbSeq := s.health.bbSeq + 1 } }

def unitState (s : State) (u : UnitName) : UnitState := tget .inService s.health.st (unitKey u)

def setUnitState (s : State) (u : UnitName) (x : UnitState) : State :=
  { s with health := { s.health with st := tset .inService s.health.st (unitKey u) x } }

def score (s : State) (u : UnitName) : Nat := tget 0 s.health.score (unitKey u)

def setScore (s : State) (u : UnitName) (n : Nat) : State :=
  { s with health := { s.health with score := tset 0 s.health.score (unitKey u) n } }

/-- A lane group leaves service (15 R390). -/
def dropGroup (s : State) (g : Nat) : State :=
  if tget 0 s.links.group g = 0 then { s with links := { s.links with group := tset 0 s.links.group g (1 + s.clk.now) } } else s

/-- A score event (18 R458, R459): the score saturates, and a unit in service that reaches 256 starts to drain. -/
def charge (s : State) (u : UnitName) (n : Nat) : State :=
  let k := min 65535 (s.score u + n)
  let s := s.setScore u k
  if 256 ≤ k && s.unitState u == .inService then
    let s := s.setUnitState u .draining
    let s := s.log 0x0A (unitCode u).1 0 (unitCode u).2 0 (BitVec.ofNat 64 k)
    match u with
    | .laneGroup g => s.dropGroup g
    | _ => s
  else s

end State

/-- The home agent's channel, numbered over the module, of a physical address (03 R62). -/
def channelOf (pa : Nat) : Nat := 32 * (pa / 2 ^ 36 % 16) + pa / 256 % 32

end Sys2Proof.Machine
end

