-- ==== Sys2Proof/Machine/Cache.lean ====
section
/-! DEFINITION. Who asks for an access, and what it goes through: the TLB of a cluster (03 R72, R81, R82), the instruction
cache (06 R143), the L1, the L2 and the memory-side cache (11 R292-R296). -/
namespace Sys2Proof.Machine

/-- A requester: its enclave, its partition, the world for which frames are owned and `fw`, the world that its transactions
carry (02 R36). `agent` is a team or thread whose uwc counts its writes; `dep` marks the departure writes of 16 R425. It
goes through the L1 of `core` and the TLB and L2 of cluster `cl`, with cache class `cls` (06 R148); `acq` marks an acquire
at SQUAD scope or wider (14 R361), `acqAp` one through an aperture, which is at SYSTEM scope (03 R79), `rel` a release, and `lane` an access of a pass, whose line requests are merged (03 R68). -/
structure Req where
  agent : Option Nat
  eid : Nat
  part : Nat
  world : Nat
  fw : Nat
  dep : Bool
  core : Option Nat
  cl : Option Nat
  cls : Nat
  acq : Bool
  acqAp : Bool
  rel : Bool
  lane : Bool

/-- The requester that an agent is; its accesses outside records allocate in no cache (log 6). -/
def State.req (s : State) (a : Nat) : Req :=
  { agent := some a, eid := s.eidOf a, part := s.partOf a, world := s.worldOf a, fw := s.worldOf a, dep := false,
    core := some (s.coreOf a), cl := some (s.clusterOf a), cls := 3, acq := false, acqAp := false, rel := false,
    lane := false }

/-- An engine operation of a partition and enclave (02 R36); world 2 has enclave 0. -/
def engReq (part eid : Nat) : Req :=
  let w := if eid = 0 then 2 else 4 + part
  { agent := none, eid := eid, part := part, world := w, fw := w, dep := false, core := none, cl := none, cls := 3,
    acq := false, acqAp := false, rel := false, lane := false }

/-- World 2's accesses to space 0. -/
def State.osReq : Req := engReq 0 0

/-- The partition that a requester's lines count against: none for worlds 0 to 3 (11 R295). -/
def Req.owner (r : Req) : Option Nat := if 4 ≤ r.world then some r.part else none

/-! ## Lines of a set (11 R292, R293) -/

/-- The line of a physical address in its slice: the set (11 R292). -/
def setOf (pa : Nat) : Nat := (pa / 2 ^ 13 % 2 ^ 23 * 2 + pa / 128 % 2) % 6144

/-- The key of a slice's set. -/
def mscKey (pa : Nat) : Nat := channelOf pa * 8192 + setOf pa

/-- The key of an L1 set: 64 sets of 8 lines, by virtual address (log 6). -/
def l1Key (core va : Nat) : Nat := core * 64 + va / 128 % 64

/-- The key of an L2 set: 49,152 sets of 16 lines, by physical address (log 6). -/
def l2Key (cl pa : Nat) : Nat := cl * 65536 + pa / 128 % 49152

def sameLine (x y : Line) : Bool := x.eid == y.eid && x.addr == y.addr && x.tag == y.tag

/-- The line that leaves among those that `ok` names: a line of class keep goes after the others, and among equals the
oldest; a pinned line never does (11 R293, R296; log 6). -/
def victim (ok : Line → Bool) (ls : List Line) : Option Line :=
  let free := ls.reverse.filter (fun x => ok x && x.pin.isNone)
  match free.find? (fun x => x.cls != 2) with
  | some x => some x
  | none => free.head?

/-- A new line in its set; a streaming line comes last, as the next victim. -/
def putLine (x : Line) (ls : List Line) : List Line := if x.cls = 1 then ls ++ [x] else x :: ls

/-- A fill of a set of `ways` lines: nothing when the line is there, and nothing when no line may leave a full set. -/
def fillSet (ways : Nat) (x : Line) (ls : List Line) : List Line :=
  if ls.any (sameLine x) then ls
  else if ls.length < ways then putLine x ls
  else match victim (fun _ => true) ls with
    | some v => putLine x (ls.erase v)
    | none => ls

namespace State

/-- A change of the caches. -/
def modCaches (s : State) (f : Caches → Caches) : State := { s with caches := f s.caches }

/-! ## Fills (11 R293, R295) -/

/-- The lines of a slice. -/
def sliceLines (s : State) (ch : Nat) : List Line := (s.caches.msc.filter (fun x => x.1 / 8192 == ch)).flatMap (·.2)

/-- The ceiling of a partition in a slice (11 R295). -/
def ceiling (s : State) (part : Nat) : Nat := ((s.part part).cfg.map (fun c => c.llcq * 64 / 3)).getD 0

/-- The lines of the slice of `pa` that count against a partition. -/
def sliceHeld (s : State) (p pa : Nat) : Nat := ((s.sliceLines (channelOf pa)).filter (fun x => x.part == some p)).length

/-- The partition holds as many lines in the slice of `pa` as it may. -/
def atCeiling (s : State) (p pa : Nat) : Bool := decide (s.ceiling p ≤ s.sliceHeld p pa)

/-- A fill of the memory-side cache: a partition at its ceiling replaces a line of its own, or allocates none. A slice that
drains or is retired allocates none (18 R459). -/
def fillMsc (s : State) (part : Option Nat) (cls pa : Nat) : State :=
  let x : Line := { eid := 0, addr := pa / 128 * 128, tag := 0, part := part, cls := cls, pin := none }
  let ls := tget [] s.caches.msc (mscKey pa)
  let new :=
    if s.unitState (.slice (channelOf pa)) != .inService then ls
    else match part with
      | none => fillSet 16 x ls
      | some p =>
        if !s.atCeiling p pa then fillSet 16 x ls
        else if ls.any (sameLine x) then ls
        else match victim (fun y => y.part == some p) ls with
          | some v => putLine x (ls.erase v)
          | none => ls
  s.modCaches (fun c => { c with msc := tset [] c.msc (mscKey pa) new })

/-- A fill of an L2. -/
def fillL2 (s : State) (cl : Nat) (tag : BitVec 16) (cls pa : Nat) : State :=
  let x : Line := { eid := 0, addr := pa / 128 * 128, tag := tag, part := none, cls := cls, pin := none }
  s.modCaches (fun c => { c with l2 := tset [] c.l2 (l2Key cl pa) (fillSet 16 x (tget [] c.l2 (l2Key cl pa))) })

/-- A fill of an L1. -/
def fillL1 (s : State) (core eid : Nat) (tag : BitVec 16) (cls va : Nat) : State :=
  let x : Line := { eid := eid, addr := va / 128 * 128, tag := tag, part := none, cls := cls, pin := none }
  s.modCaches (fun c => { c with l1 := tset [] c.l1 (l1Key core va) (fillSet 8 x (tget [] c.l1 (l1Key core va))) })

/-- Lines of the L2s and the memory-side caches in [pa, pa + n) leave, pinned or not. -/
def dropLinesAt (s : State) (pa n : Nat) : State :=
  let keep := fun (ls : List Line) => ls.filter (fun x => !(decide (pa ≤ x.addr + 127) && decide (x.addr < pa + n)))
  s.modCaches (fun c => { c with l2 := tmap [] keep c.l2, msc := tmap [] keep c.msc })

/-- The home agent invalidates the line in the L2s of the other clusters before it acknowledges a write (11 R292). -/
def snoop (s : State) (cl : Option Nat) (pa : Nat) : State :=
  let drop := fun (l2 : List (Nat × List Line)) (k : Nat) =>
    if cl = some k then l2
    else tset [] l2 (l2Key k pa) ((tget [] l2 (l2Key k pa)).filter (fun x => x.addr != pa / 128 * 128))
  s.modCaches (fun c => { c with l2 := [0, 1, 2, 3].foldl drop c.l2 })

/-- The L1 lines of a core's enclave leave: an acquire sees no older write (14 R361). -/
def dropL1 (s : State) (core eid : Nat) : State :=
  s.modCaches (fun c => { c with l1 := (c.l1.map (fun x =>
    if x.1 / 64 = core then (x.1, x.2.filter (fun y => y.eid != eid)) else x)).filter (fun x => x.2 != []) })

/-- After an acquire at SQUAD scope or wider the L1 lines of its enclave leave its core (14 R361). -/
def acquired (s : State) (r : Req) (acq : Bool) : State :=
  match r.core with
  | some c => if acq then s.dropL1 c r.eid else s
  | none => s

/-- The line is in the requester's L1, which serves no acquire at SQUAD scope or wider (14 R361). -/
def inL1 (s : State) (r : Req) (tag : BitVec 16) (va : Nat) : Bool :=
  !r.acq && r.core.any (fun c => (tget [] s.caches.l1 (l1Key c va)).any (fun x => x.eid == r.eid && x.addr == va / 128 * 128 && x.tag == tag))

/-- The line is in the requester's L2. -/
def inL2 (s : State) (r : Req) (tag : BitVec 16) (pa : Nat) : Bool :=
  r.cl.any (fun k => (tget [] s.caches.l2 (l2Key k pa)).any (fun x => x.addr == pa / 128 * 128 && x.tag == tag))

/-- What a read of a line leaves in the caches (11 R292, R293): a cache that holds the line serves it, and each of those above
that misses allocates by the class. -/
def fillRead (s : State) (r : Req) (tag : BitVec 16) (va pa : Nat) : State :=
  if s.inL1 r tag va then s
  else
    let s := match r.core with
      | some c => if r.acq ∨ r.cls = 3 then s else s.fillL1 c r.eid tag r.cls va
      | none => s
    if s.inL2 r tag pa then s
    else
      let s := match r.cl with
        | some k => if r.cls = 3 then s else s.fillL2 k tag r.cls pa
        | none => s
      if r.cls = 0 ∨ r.cls = 2 then s.fillMsc r.owner r.cls pa else s

/-- What a write of a line leaves in the caches: no L1 line is allocated (11 R292). -/
def fillWrite (s : State) (r : Req) (tag : BitVec 16) (va pa : Nat) : State :=
  fillRead (s.snoop r.cl pa) { r with core := none } tag va pa

/-! ## The TLB and the instruction cache (03 R72, R81, R82, 06 R143) -/

/-- The entry of a cluster's TLB that translates a page for a requester. -/
def tlbHit (s : State) (r : Req) (vpn : Nat) : Option TlbEntry :=
  r.cl.bind (fun cl => (tget [] s.caches.tlb cl).find? (fun e => e.eid == r.eid && e.world == r.world && e.vpn == vpn))

/-- A walk's result enters the TLB of 16,384 entries; the oldest entry leaves a full one (log 6). -/
def tlbFill (s : State) (r : Req) (e : TlbEntry) : State :=
  match r.cl with
  | none => s
  | some cl => s.modCaches (fun c => { c with tlb := tset [] c.tlb cl ((e :: tget [] c.tlb cl).take 16384) })

/-- Blocks of an instruction cache: 128 KiB in a SIMT core (00 R2), 64 KiB in a control core (15 R378). -/
def icacheBlocks (core : Nat) : Nat := if core < 768 then 2048 else 1024

/-- The block that an instruction cache holds. -/
def ibHit (s : State) (core eid va : Nat) : Option IBlock :=
  (tget [] s.caches.icache core).find? (fun b => b.eid == eid && b.va == va)

/-- A fetched block enters the instruction cache; the oldest block leaves a full one (log 6). -/
def ibFill (s : State) (core : Nat) (b : IBlock) : State :=
  s.modCaches (fun c => { c with icache := tset [] c.icache core ((b :: tget [] c.icache core).take (icacheBlocks core)) })

/-- Every translation, L1 line and instruction-cache block of space `e` whose page satisfies `p` is dropped (03 R82). -/
def purge (s : State) (e : Nat) (p : Nat → Bool) : State :=
  s.modCaches (fun c => { c with
    tlb := tmap [] (fun ys => ys.filter (fun y => !(y.eid == e && p y.vpn))) c.tlb
    l1 := tmap [] (fun ys => ys.filter (fun y => !(y.eid == e && p (y.addr / 65536)))) c.l1
    icache := tmap [] (fun ys => ys.filter (fun y => !(y.eid == e && p (y.va / 65536)))) c.icache })

/-- The same for every page that some TLB still translates to a frame, mapped or not (03 R81). -/
def purgeFrame (s : State) (pfn : Nat) : State :=
  ((s.caches.tlb.flatMap (·.2)).filter (fun e => e.pfn == pfn)).foldl (fun s e => s.purge e.eid (· == e.vpn)) s

end State
end Sys2Proof.Machine
end

