-- ==== Sys2Proof/Machine/Access.lean ====
section
/-! DEFINITION. An access from a record and an index to bytes: the address of a lane (03 R66, R67), the walk (R72), apertures
(R78, R79), the route, the firewall (02 R37) and the tag checks (04 R97), cells (04 R93, R94), and the bytes of memory. -/
namespace Sys2Proof.Machine

/-! ## Addresses (03 R63-R67) -/

/-- The swizzle of an offset (03 R67). -/
def swizzle (b : Rec) (off : Nat) : Nat :=
  if b.swmode = 0 then off
  else
    let m := 2 ^ b.sww
    let f1 := (off / 2 ^ b.swd % m) ^^^ (off / 2 ^ b.sws1 % m)
    let f := if b.swmode = 2 then f1 ^^^ (off / 2 ^ b.sws2 % m) else f1
    off - off / 2 ^ b.swd % m * 2 ^ b.swd + f * 2 ^ b.swd

/-- Bytes of the bounds granule (03 R63). -/
def esizeBytes (c : Nat) : Nat := 2 ^ min c 4

/-- A lane's access: its virtual address and its bytes [lo, hi) that lie in bounds. -/
structure Addr where
  va : Nat
  lo : Nat
  hi : Nat
  deriving DecidableEq, Repr

/-- Some byte of the access is out of bounds under the ZERO policy. -/
def Addr.oob (a : Addr) (n : Nat) : Bool := a.lo != 0 || a.hi != n

/-- The range of granules in bounds: the bounds are an interval, so the granules in bounds are one run. -/
def boundRun (off : Int) (ext g n : Nat) : Nat × Nat :=
  let js := (List.range (n / g)).filter (fun j =>
    decide (0 ≤ off + (j * g : Nat)) && decide (off + ((j + 1) * g : Nat) ≤ ext))
  match js with
  | [] => (0, 0)
  | j :: _ => (j * g, (j + js.length) * g)

/-- address(b, l) for an offset (03 R66): `n` bytes of elements of `es` bytes. -/
def addrAt (b : Rec) (off : Int) (n es : Nat) : Except Cause Addr :=
  let fin := fun (off : Int) (lo hi : Nat) =>
    let va := (b.base : Int) + off
    if va < 0 ∨ 2 ^ 57 ≤ va then Except.error Cause.pagef
    else if va.toNat % es ≠ 0 then .error .misalign
    else .ok { va := va.toNat, lo := lo, hi := hi }
  if b.flat then fin off 0 n
  else
    let (lo, hi) := boundRun off b.extent (min (esizeBytes b.esize) n) n
    if lo = 0 ∧ hi = n then fin (swizzle b off.toNat) 0 n
    else if b.trapOob then .error .oob
    else fin off lo hi

/-- The offset of lane `l` (03 R65, R66). -/
def Team.offset (t : Team) (b : Rec) (l : Nat) (a : Operand) (disp : BitVec 24) : Except Cause Int :=
  if b.flat then (t.rd64 l a).map (fun v => (v.toNat : Int) + disp.toInt)
  else (t.rd32 l a).map (fun v => v.toInt * b.stride.toInt + disp.toInt)

/-- The lane's access through record slot contents `b` (03 R66). -/
def Team.address (t : Team) (b : Rec) (l : Nat) (a : Operand) (disp : BitVec 24) (n es : Nat) : Except Cause Addr :=
  match t.offset b l a disp with
  | .error c => .error c
  | .ok off => addrAt b off n es

/-- The parts of [va + lo, va + hi) in each 128-byte line, for accesses of at most 128 bytes. -/
def Addr.segs (a : Addr) : List (Nat × Nat) :=
  let x := a.va + a.lo
  let y := a.va + a.hi
  let m := (x / 128 + 1) * 128
  if y ≤ x then [] else if y ≤ m then [(x, y - x)] else [(x, m - x), (m, y - m)]

/-! ## How an access ends -/

/-- Kinds of access (03 R72); `icinv` needs execute or read (12 R309). -/
inductive Kind where
  | read | write | atomic | fetch | icinv
  deriving DecidableEq, Repr

/-- ACCESS of a fault notice (16 R406). -/
def Kind.code : Kind → Nat
  | .read => 0 | .write => 1 | .atomic => 2 | .fetch => 3 | .icinv => 0

/-- Operations as the routes see them (03 R71). -/
inductive AtomOp where
  | add | swap | cas | other
  deriving DecidableEq, Repr

/-- An atomic as the routes see it. -/
structure AtomReq where
  op : AtomOp
  bytes : Nat
  system : Bool
  deriving DecidableEq, Repr

/-- Why an access is not performed. -/
inductive Bad where
  | cause (c : Cause) (va : Nat)   -- a trap of the lane
  | firewall                       -- refused by the firewall (02 R39)
  | ue                             -- uncorrectable data (16 R407)
  | mac                            -- data that fails verification (03 R77): UE, which charges no unit
  | full (stack : Nat)             -- no free cell slot (04 R95)
  | busy                           -- sr.uwc is full, or the stream has stopped (15 R365, R392)
  deriving DecidableEq, Repr

/-- A trap that parks, or a wait: a policy trap of the lane goes before it (16 R400). -/
def Bad.soft : Bad → Bool
  | .cause .pagef _ => true
  | .full _ => true
  | .busy => true
  | _ => false

/-- An answer with the state after it; a refusal also changes the state (its record in the black box). -/
abbrev Ans (α : Type) := State × Except Bad α

/-! ## The walk (03 R70-R72) -/

/-- HBM frames (03 R62). -/
def hbmFrames : Nat := 12 * 2 ^ 20

/-- The frames in which the monitor keeps the inverted page tables, the anchors and the tag maps (03 R69, 04 R96): 8,192 in
the middle of each stack (log 7). -/
def monFrame (pfn : Nat) : Bool := decide (2 ^ 19 ≤ pfn % 2 ^ 20) && decide (pfn % 2 ^ 20 < 2 ^ 19 + 8192)

/-- The entry of a frame that nothing has changed. -/
def Ipt.home (pfn : Nat) : Ipt := if monFrame pfn then { Ipt.free with oworld := 1 } else Ipt.free

def State.iptOf (s : State) (pfn : Nat) : Ipt := tget (Ipt.home pfn) s.mem.ipt pfn
def State.setIpt (s : State) (pfn : Nat) (i : Ipt) : State :=
  { s with mem := { s.mem with ipt := tset (Ipt.home pfn) s.mem.ipt pfn i } }

/-- A change to every entry that is listed. -/
def iptMap (f : Ipt → Ipt) (t : List (Nat × Ipt)) : List (Nat × Ipt) :=
  (t.map (fun x => (x.1, f x.2))).filter (fun x => x.2 != Ipt.home x.1)

/-- MAPi and NEXTi of an entry. -/
def Ipt.map (i : Ipt) : Nat → MapSlot
  | 0 => i.m0
  | 1 => i.m1
  | 2 => i.m2
  | _ => i.m3

def Ipt.setMap (i : Ipt) (k : Nat) (m : MapSlot) : Ipt :=
  match k with
  | 0 => { i with m0 := m }
  | 1 => { i with m1 := m }
  | 2 => { i with m2 := m }
  | _ => { i with m3 := m }

/-- h of the walk. -/
def hashOf (e vpn : Nat) : Nat := (vpn % 2 ^ 24) ^^^ (vpn / 2 ^ 24 % 2 ^ 17) ^^^ (e % 4096 * 4096)

/-- Follow the chain. The fuel bounds it by the slots in use, so that only a chain that bites its tail ends early. -/
def walkGo (s : State) (e vpn : Nat) : Nat → Option Link → Option Link
  | 0, _ => none
  | _, none => none
  | n + 1, some k =>
    if hbmFrames ≤ k.pfn then none
    else
      let m := (s.iptOf k.pfn).map k.slot
      if m.mv && m.eid == e && m.vpn == vpn then some k else walkGo s e vpn n m.next

/-- The slot that maps (e, vpn). -/
def State.findMap (s : State) (e vpn : Nat) : Option Link :=
  walkGo s e vpn (4 * s.mem.ipt.length + 1) (tget none s.mem.anchor (hashOf e vpn))

/-- owner_ok (03 R72). -/
def ownerOk (s : State) (i : Ipt) (slot : Nat) (r : Req) : Bool :=
  (i.oworld == r.world || (slot != 0 && (i.map slot).eid == 0)) &&
  ((s.enc i.owner).st != .dying || r.dep) && i.m0.eid == i.owner

/-- perm_ok (03 R72), for PERM bits read, write and execute. -/
def permOk (p : BitVec 3) : Kind → Bool
  | .read => p.getLsbD 0
  | .write => p.getLsbD 1
  | .atomic => p.getLsbD 0 && p.getLsbD 1
  | .fetch => p.getLsbD 2
  | .icinv => p.getLsbD 0 || p.getLsbD 2

/-- walk(e, vpn, kind) (03 R72): the slot that maps the page and its frame's entry. -/
def walk (s : State) (r : Req) (vpn : Nat) (k : Kind) : Except Cause (Link × Ipt) :=
  match s.findMap r.eid vpn with
  | none => .error .pagef
  | some l =>
    let i := s.iptOf l.pfn
    if !i.valid then .error .pagef
    else if !ownerOk s i l.slot r then .error .owner
    else if (i.map l.slot).mattr ≠ i.attr then .error .attrmix
    else if !permOk (i.map l.slot).perm k then .error .perm
    else .ok (l, i)

/-- What a walk leaves in the TLB. -/
def tlbOf (r : Req) (vpn : Nat) (l : Link) (i : Ipt) : TlbEntry :=
  { eid := r.eid, world := r.world, vpn := vpn, pfn := l.pfn, perm := (i.map l.slot).perm, attr := i.attr, tagged := i.tagged,
    zeroFb := i.zeroFb, route := i.route }

/-- The frame of a page with the protection in force: that of the TLB on a hit, and else that of a walk, which the TLB then
holds (03 R72). -/
def trPage (s : State) (r : Req) (vpn : Nat) (k : Kind) : State × Except Cause (Nat × Ipt) :=
  match s.tlbHit r vpn with
  | some e =>
    if permOk e.perm k then
      (s, .ok (e.pfn, { s.iptOf e.pfn with attr := e.attr, tagged := e.tagged, zeroFb := e.zeroFb, route := e.route }))
    else (s, .error .perm)
  | none =>
    match walk s r vpn k with
    | .error c => (s, .error c)
    | .ok (l, i) => (s.tlbFill r (tlbOf r vpn l i), .ok (l.pfn, i))

/-- The firewall matrix (02 R37). -/
def State.fwAdmits (s : State) (world target : Nat) (k : Kind) : Bool :=
  let w := tget 0 s.fw.fwm world
  match k with
  | .read | .fetch | .icinv => w.getLsbD (2 * target)
  | _ => w.getLsbD (2 * target + 1)

/-- FWM0 to FWM15 and, as number 16, FWLOCK as a world reads them: targets of world 1 that worlds 0 and 1 alone read (02
R38). -/
def State.fwRead (s : State) (world i : Nat) : Option W32 :=
  if 1 < world ∨ 16 < i then none
  else if i = 16 then some (if s.fw.lock then 1 else 0)
  else some (tget 0 s.fw.fwm i)

/-- The valid aperture entry over a VA that applies to the requester (03 R78, R79). -/
def State.apertOf (s : State) (r : Req) (va : Nat) : Option (Nat × Aperture) :=
  if r.world < 4 then none
  else (s.part r.part).apert.find? (fun (_, e) =>
    e.target != 0 && (e.eid == 0 || e.eid == r.eid) && decide (e.vabase ≤ va) &&
    decide (va < e.vabase + 65536 * e.pages))

/-- Whether an aperture's route carries an atomic (03 R71, 15 R395). -/
def routeAp (e : Aperture) (q : AtomReq) : Bool :=
  if e.target = 3 then e.route.getLsbD 3 && q.bytes ≤ 16
  else match q.op with
    | .add | .swap => e.route.getLsbD 1 && (q.bytes == 4 || q.bytes == 8)
    | .cas => e.route.getLsbD 2 && (q.bytes == 4 || q.bytes == 8 || q.bytes == 16)
    | .other => false

/-- The tag of an access, whether its record has TAGM 1 (04 R87), and the life of the tag that an access which has waited,
or an engine operation, names (04 R101). -/
structure TagUse where
  tag : BitVec 16
  must : Bool
  life : Option Nat := none
  deriving DecidableEq, Repr

/-- The life of a tag: how often it has been handed out. -/
def State.tagLife (s : State) (p : Nat) (t : BitVec 16) : Nat := tget 0 (s.part p).lives t.toNat

/-- The tag in effect through a record (04 R87). -/
def Team.tagUse (t : Team) (b : Rec) : TagUse :=
  if b.tagm = 2 then { tag := b.tag, must := false } else { tag := t.tag, must := b.tagm = 1 }

/-- The enclave that holds a tag LIVE. -/
def TagState.liveIn : TagState → Option Nat
  | .live e => some e
  | .leaving e _ _ => some e
  | _ => none

/-- The checks of 04 R97 for a requester. -/
def tagOk (s : State) (r : Req) (g : TagUse) (tagged : Bool) : Bool :=
  if !tagged then !g.must
  else if g.tag = 0xFFFF then false
  else if g.tag = 0 then true
  else (tget .free (s.part r.part).tags g.tag.toNat).liveIn == some r.eid && g.life.all (· == s.tagLife r.part g.tag)

/-- Where a line leads. -/
inductive Line1 where
  | hbm (pfn : Nat) (i : Ipt)
  | remote (entry : Nat) (e : Aperture)
  deriving DecidableEq, Repr

/-- The request of a line's kind that the running pass has made already (03 R68). -/
def State.asked (s : State) (r : Req) (kind va : Nat) : Option PassReq :=
  if r.lane then s.pass.find? (fun q => q.kind == kind && q.line == va / 128) else none

/-- A request of the running pass. -/
def State.ask (s : State) (r : Req) (kind va ans seed : Nat) : State :=
  if r.lane then { s with pass := { kind := kind, line := va / 128, ans := ans, seed := seed } :: s.pass } else s

/-- The firewall refuses a request of a world: the refusal is recorded, once for a line (02 R39). -/
def State.fwBlock (s : State) (r : Req) (k : Kind) (va : Nat) : State :=
  if (s.asked r k.code va).isSome then s
  else (s.log 0x01 0 r.fw 0 r.eid (BitVec.ofNat 64 va)).ask r k.code va 1 0

/-- The firewall before an engine admits an operation: the engine is bound to the partition that issues it and is a target of
that world, and a command is a write (02 R37, log 14). -/
def State.engineOpen (s : State) (r : Req) : Bool := s.fwAdmits r.fw r.fw .write

/-- A line's translation with every check of 03 R72, R71, 02 R37 and 04 R97, in that order. A TAGM 1 record that
reaches an aperture raises TAGBAD (DESIGN CHOICE, log 67). -/
def trLine (s : State) (r : Req) (g : TagUse) (k : Kind) (q : Option AtomReq) (va : Nat) : Ans Line1 :=
  match s.apertOf r va with
  | some (n, e) =>
    if !permOk e.perm k then (s, .error (.cause .perm va))
    else if q.any (fun q => !routeAp e q) then (s, .error (.cause .atomrt va))
    else if !s.fwAdmits r.fw (4 + r.part) k then (s.fwBlock r k va, .error .firewall)
    else if g.must then (s, .error (.cause .tagbad va))
    else (s, .ok (.remote n e))
  | none =>
    match trPage s r (va / 65536) k with
    | (s, .error c) => (s, .error (.cause c va))
    | (s, .ok (pfn, i)) =>
      if q.any (fun q => q.system && !i.route.getLsbD 0) then (s, .error (.cause .atomrt va))
      else if !s.fwAdmits r.fw i.oworld k then (s.fwBlock r k va, .error .firewall)
      else if !tagOk s r g i.tagged then (s, .error (.cause .tagbad va))
      else (s, .ok (.hbm pfn i))

/-! ## Bytes of HBM -/

/-- One byte of HBM; what nothing has written reads 0 (log 1). -/
def State.byte (s : State) (pa : Nat) : Byte := tget 0 s.mem.hbm pa
def State.setByte (s : State) (pa : Nat) (b : Byte) : State :=
  { s with mem := { s.mem with hbm := tset 0 s.mem.hbm pa b } }

/-- The entries of [pa, pa + n). -/
def cellsIn (m : List Host.Cell) (pa n : Nat) : List Host.Cell :=
  m.filter (fun c => decide (pa ≤ c.1) && decide (c.1 < pa + n))

/-- The bytes of [pa, pa + n), each as `State.byte` reads it. -/
def State.bytes (s : State) (pa n : Nat) : List Byte :=
  let m := cellsIn s.mem.hbm pa n
  (List.range n).map (fun i => tget 0 m (pa + i))

/-- Bytes from `pa` up (00 R4). -/
def State.setBytes (s : State) (pa : Nat) (data : List Byte) : State :=
  { s with mem := { s.mem with hbm := tputs 0 s.mem.hbm pa data } }

/-- The 64-byte line of number `k` touches [pa, pa + n). -/
def inLines (pa n k : Nat) : Bool := decide (pa / 64 ≤ k) && decide (k < (pa + n + 63) / 64)

/-- Zeroing a range; its lines hold correct data afterwards. -/
def State.zeroRange (s : State) (pa n : Nat) : State :=
  { s with mem := { s.mem with
      hbm := s.mem.hbm.filter (fun c => !(decide (pa ≤ c.1) && decide (c.1 < pa + n)))
      badLine := s.mem.badLine.filter (fun k => !inLines pa n k)
      badMac := s.mem.badMac.filter (fun k => !inLines pa n k) } }

/-- Copying n bytes from src to dst. -/
def State.copyRange (s : State) (src dst n : Nat) : State :=
  let cs := (cellsIn s.mem.hbm src n).map (fun c => (c.1 - src + dst, c.2))
  let s := s.zeroRange dst n
  { s with mem := { s.mem with hbm := tsets 0 s.mem.hbm cs } }

/-- A 64-byte line of [pa, pa + n) holds uncorrectable data. -/
def State.badIn (s : State) (pa n : Nat) : Bool := s.mem.badLine.any (inLines pa n)

/-- The slice holds the line of a physical address. -/
def State.inSlice (s : State) (pa : Nat) : Bool := (tget [] s.caches.msc (mscKey pa)).any (fun x => x.addr == pa / 128 * 128)

/-- The 256-byte groups of a range. -/
def groupsOf (pa n : Nat) : List Nat := (List.range ((pa + n - 1) / 256 - pa / 256 + 1)).map (fun j => pa / 256 + j)

/-- Counter `i` of level `k` of a channel's tree; level 0 counts the channel's groups (03 R76). -/
def nodeKey (ch k i : Nat) : Nat := ch * 2 ^ 24 + k * 2 ^ 21 + i

/-- The ancestor counters of a group: an 8-ary tree over the 2^23 groups of its channel, levels 1 to 7, the last of them in
the home agent's root store. -/
def ancestors (grp : Nat) : List Nat :=
  (List.range 7).map (fun k => nodeKey (channelOf (grp * 256)) (k + 1) (grp / 32 % 2 ^ 23 / 8 ^ (k + 1)))

/-- The counter nodes on a group's path to the root: the node of level k holds eight of its counters. -/
def pathNodes (grp : Nat) : List Nat :=
  (List.range 7).map (fun k => nodeKey (channelOf (grp * 256)) k (grp / 32 % 2 ^ 23 / 8 ^ (k + 1)))

/-- One more in each of the listed counters; a counter never wraps. -/
def countUp (ks : List Nat) (v : List (Nat × BitVec 56)) : List (Nat × BitVec 56) :=
  ks.foldl (fun v k => if tget 0 v k = BitVec.allOnes 56 then v else tset 0 v k (tget 0 v k + 1)) v

/-- The version counters of the 256-byte groups of a write to an ATTR 2 frame rise, with every ancestor (03 R76). -/
def State.bump (s : State) (pa n : Nat) : State :=
  { s with mem := { s.mem with ver := countUp (groupsOf pa n) s.mem.ver
                               anc := countUp ((groupsOf pa n).flatMap ancestors) s.mem.anc } }

/-- A counter of the frame, or an ancestor of one, can rise no more: the frame refuses further writes (03 R76). -/
def State.verFull (s : State) (pa : Nat) : Bool :=
  s.mem.ver.any (fun x => x.1 / 256 == pa / 65536 && x.2 == BitVec.allOnes 56) ||
  s.mem.anc.any (fun x => x.2 == BitVec.allOnes 56 && (groupsOf (pa / 65536 * 65536) 65536).any (fun g => (ancestors g).contains x.1))

/-- A node on the path of a group of the range fails verification (03 R77). -/
def State.badPath (s : State) (pa n : Nat) : Bool :=
  s.mem.badNode != [] && (groupsOf pa n).any (fun g => (pathNodes g).any (fun k => s.mem.badNode.contains k))

/-- The MAC of a line of the range, or a node on its path, fails verification in a frame of ATTR 2 (03 R77). -/
def State.macFails (s : State) (pa n : Nat) (i : Ipt) : Bool := i.attr == 2 && (s.mem.badMac.any (inLines pa n) || s.badPath pa n)

/-- The range can be read: every line is correct and, in an ATTR 2 frame, verifies (03 R77, 16 R407). -/
def State.goodIn (s : State) (pa n : Nat) (i : Ipt) : Bool := !s.badIn pa n && !s.macFails pa n i

/-- A range that cannot be read: a failed verification is logged and charges nothing (03 R77); an uncorrectable error charges
the slice or the channel that holds the data (18 R458). -/
def State.ueAt (s : State) (pa n : Nat) (i : Ipt) : State :=
  let s := if s.macFails pa n i then s.log 0x04 3 0xFF (channelOf pa) i.owner (BitVec.ofNat 64 (pa / 65536)) else s
  if s.badIn pa n then s.charge (if s.inSlice pa then .slice (channelOf pa) else .channel (channelOf pa)) 256 else s

/-- The 128-byte lines of [pa, pa + n): their first byte, and their number of bytes. -/
def lineBase (pa : Nat) : Nat := pa / 128 * 128
def lineLen (pa n : Nat) : Nat := (pa + n + 127) / 128 * 128 - lineBase pa

/-- The lines of a range can be read. -/
def State.goodLines (s : State) (pa n : Nat) (i : Ipt) : Bool := s.goodIn (lineBase pa) (lineLen pa n) i

/-! ## Cells (04 R92-R95) -/

/-- The slot of a materialised cell. -/
def State.cellOf (s : State) (part frame gran : Nat) (tag : BitVec 16) : Option Nat :=
  (s.mem.cells.find? (fun c => c.part == part && c.frame == frame && c.gran == gran && c.tag == tag)).map (·.slot)

/-- The cell slots of a partition's pool in the stack and of the parity of a granule (04 R92). -/
def State.slotsFor (s : State) (part frame gran : Nat) : List Nat :=
  ((s.part part).pool.filter (fun f => f / 2 ^ 20 == frame / 2 ^ 20)).flatMap (fun f =>
    (List.range 8).map (fun k => f * 65536 + (2 * k + gran % 2) * 4096))

/-- The slot that a new cell takes: the first free one in the pool's order (log 15). -/
def State.freeSlot (s : State) (part frame gran : Nat) : Option Nat :=
  (s.slotsFor part frame gran).find? (fun p => !s.mem.cells.any (fun c => c.slot == p))

/-- A slot's lines take over the errors of the base lines that fill them, which are recorded (DESIGN CHOICE, log 69). -/
def State.inheritBad (s : State) (base slot : Nat) (i : Ipt) : State :=
  if s.goodIn base 4096 i then s
  else
    let at_ := fun (p : Nat → Bool) => ((List.range 64).filter p).map (fun j => slot / 64 + j)
    let bad := at_ (fun j => s.badIn (base + 64 * j) 64)
    let macs := at_ (fun j => s.macFails (base + 64 * j) 64 i)
    let s := s.ueAt base 4096 i
    { s with mem := { s.mem with badLine := s.mem.badLine ++ bad, badMac := s.mem.badMac ++ macs } }

/-- Materialise a cell (04 R93): its fill is a write of the slot's 16 groups (03 R76). -/
def State.materialise (s : State) (part frame gran : Nat) (tag : BitVec 16) (slot : Nat) (i : Ipt) : State :=
  let s := if i.attr = 2 then s.bump slot 4096 else s
  let base := frame * 65536 + gran * 4096
  let s := if i.zeroFb then s.zeroRange slot 4096 else (s.copyRange base slot 4096).inheritBad base slot i
  { s with mem := { s.mem with
      cells := s.mem.cells ++ [{ part := part, frame := frame, gran := gran, tag := tag, slot := slot }] } }

/-- Where bytes are read; `base` is the base image for an unmaterialised cell. -/
inductive Place where
  | at (pa : Nat) (i : Ipt)
  | base (pa : Nat) (i : Ipt)
  | zero
  | remote (entry : Nat) (e : Aperture) (addr : Nat)
  deriving DecidableEq, Repr

/-- The place that a read of `va` reaches (04 R94). -/
def placeRead (s : State) (r : Req) (g : TagUse) (va : Nat) : Line1 → Place
  | .remote n e => .remote n e (e.raddr + (va - e.vabase))
  | .hbm pfn i =>
    if !i.tagged || g.tag = 0 then .at (pfn * 65536 + va % 65536) i
    else match s.cellOf r.part pfn (va / 4096 % 16) g.tag with
      | some slot => .at (slot + va % 4096) i
      | none => if i.zeroFb then .zero else .base (pfn * 65536 + va % 65536) i

/-- The place that a write of `n` bytes at `va` reaches, materialising its cell (04 R93, R95, 03 R76). -/
def placeWrite (s : State) (r : Req) (g : TagUse) (va : Nat) : Line1 → Ans Place
  | .remote k e => (s, .ok (.remote k e (e.raddr + (va - e.vabase))))
  | .hbm pfn i =>
    let ok := fun (s : State) (pa : Nat) =>
      if i.attr = 2 && s.verFull pa then (s, Except.error (Bad.cause .perm va)) else (s, .ok (.at pa i))
    if !i.tagged || g.tag = 0 then ok s (pfn * 65536 + va % 65536)
    else match s.cellOf r.part pfn (va / 4096 % 16) g.tag with
      | some slot => ok s (slot + va % 4096)
      | none =>
        match s.freeSlot r.part pfn (va / 4096 % 16) with
        | none => (s, .error (.full (pfn / 2 ^ 20)))
        | some slot =>
          let (s', p) := ok (s.materialise r.part pfn (va / 4096 % 16) g.tag slot i) (slot + va % 4096)
          if i.attr = 2 && s.verFull slot then (s, .error (.cause .perm va))
          else match p with
            | .ok p => (s', .ok p)
            | .error b => (s, .error b)

/-! ## Requests through an aperture (03 R79, 15 R365, R386, R391-R394) -/

/-- The key of an aperture in `Team.uwc` and `Links.failNext`. -/
def apKey (part entry : Nat) : Nat := part * 1024 + entry

/-- A stream after one more encryption (15 R392): at 2^47 it asks for a new key, and at 2^48 − 2^16 it stops. -/
def Stream.sent (x : Stream) (now : Nat) : Stream :=
  if 2 ^ 48 - 2 ^ 16 ≤ x.ctr + 1 then { x with ctr := x.ctr + 1, st := .halted, haltAt := now }
  else { x with ctr := x.ctr + 1, st := if 2 ^ 47 ≤ x.ctr + 1 then .rekey else x.st }

/-- Every lane group of the link is out of service: nothing can be sent (15 R393). -/
def State.linkOut (s : State) : Bool := (List.range 8).all (fun g => tget 0 s.links.group g != 0)

/-- A Burra request takes the next CTR value of its stream (15 R392); it waits while the stream has stopped or no lane group
carries it. A stream that is absent or failed fails it. -/
def State.sendBurra (s : State) (part : Nat) (e : Aperture) : Ans Nat :=
  if e.target ≠ 3 then (s, .ok 0)
  else
    let x := s.stream part e.stream
    match x.st with
    | .open | .rekey =>
      if s.linkOut then (s, .error .busy)
      else (s.setStream part e.stream (x.sent s.clk.now), .ok x.ctr)
    | .halted => (s, .error .busy)
    | _ => (s, .error .ue)

/-- How the link answers the next request (15 R386, R395): 0 as it should, 1 it fails, 2 the remote side refuses an atomic.
The mark is taken. -/
def State.takeFail (s : State) (part entry : Nat) (atom : Bool) : State × Nat :=
  match tget 0 s.links.failNext (apKey part entry) with
  | 0 => (s, 0)
  | k =>
    if k = 2 ∧ !atom then (s, 0)
    else ({ s with links := { s.links with failNext := tset 0 s.links.failNext (apKey part entry) 0 } }, k)

/-- The data of a remote line, from the free value of its request (log 14). -/
def lineData (seed va n : Nat) : List Byte := (List.range n).map (fun i => Config.freeByte seed (va % 128 + i))

/-- A read through an aperture: the data are free (log 14); a failed request gives UE (15 R386). The lanes of a pass share
one request of a line (03 R68). -/
def remoteRead (s : State) (r : Req) (entry : Nat) (e : Aperture) (va n : Nat) : Ans (List Byte) :=
  match s.asked r 0 va with
  | some q => if q.ans ≠ 0 then (s, .error .ue) else (s, .ok (lineData q.seed va n))
  | none =>
    match s.sendBurra r.part e with
    | (s, .error b) => (s, .error b)
    | (s, .ok _) =>
      match s.takeFail r.part entry false with
      | (s, 0) => (({ s with free := s.free + 1 } : State).ask r 0 va 0 s.free, .ok (lineData s.free va n))
      | (s, _) => (s.ask r 0 va 1 0, .error .ue)

/-- A dropped write (15 R386). -/
def State.dropWrite (s : State) (r : Req) (entry addr : Nat) : State :=
  s.log 0x07 0 r.fw entry r.eid (BitVec.ofNat 64 addr)

/-- The next sequence number of a release to a stream's package, when the request is one (15 R394). -/
def State.takeRel (s : State) (r : Req) (e : Aperture) : State × Option Nat :=
  if r.rel ∧ e.target = 3 then
    let k := r.eid * 4096 + (s.stream r.part e.stream).pkg
    let n := tget 0 s.links.rels k
    ({ s with links := { s.links with rels := tset 0 s.links.rels k (n + 1) } }, some n)
  else (s, none)

/-- Bytes by their addresses from `addr` on. -/
def bytesAt (addr : Nat) (data : List Byte) : List (Nat × Byte) := data.zipIdx.map (fun x => (addr + x.2, x.1))

/-- A write request leaves the package; a Burra request goes under the CTR, the SID and the key of its stream. -/
def State.sendOut (s : State) (r : Req) (entry : Nat) (e : Aperture) (addr ctr : Nat) (data : List Byte) : State :=
  let (s, rel) := s.takeRel r e
  let x := if e.target = 3 then s.stream r.part e.stream else Stream.none
  { s with links := { s.links with
      out := { part := r.part, entry := entry, bytes := bytesAt addr data, ctr := ctr, sid := x.sid, key := x.key, rel := rel } ::
        s.links.out } }

/-- The bytes of another lane join the request of their line. -/
def joinOut (part entry addr : Nat) (data : List Byte) : List OutWrite → List OutWrite
  | [] => []
  | o :: t =>
    if o.part = part ∧ o.entry = entry ∧ o.bytes.any (fun b => b.1 / 128 == addr / 128) then
      { o with bytes := o.bytes ++ bytesAt addr data } :: t
    else o :: joinOut part entry addr data t

/-- One more outstanding write of an agent (15 R365). -/
def State.countOut (s : State) (r : Req) (entry addr : Nat) : State :=
  match r.agent with
  | some a => s.modTeam a (fun t => { t with uwc := t.uwc ++ [(apKey r.part entry, addr)] })
  | none => s

/-- sr.uwc is full (15 R365). -/
def State.uwcFull (s : State) (r : Req) : Bool := r.agent.any (fun a => decide (4095 ≤ (s.team a).uwc.length))

/-- A write request through an aperture leaves the package and counts in sr.uwc (15 R365), once for the lanes of a pass that
write its line (03 R68). One that the link fails, or whose stream has failed, is dropped and logged; an engine's gives UE (15
R386). -/
def remoteWrite (s : State) (r : Req) (entry : Nat) (e : Aperture) (va addr : Nat) (data : List Byte) : Ans Unit :=
  match s.asked r 1 va with
  | some q =>
    (if q.ans ≠ 0 then s else { s with links := { s.links with out := joinOut r.part entry addr data s.links.out } }, .ok ())
  | none =>
    let dropped := fun (s : State) =>
      ((s.dropWrite r entry addr).ask r 1 va 1 0, if r.agent.isSome then Except.ok () else Except.error Bad.ue)
    if s.uwcFull r then (s, .error .busy)
    else match s.sendBurra r.part e with
    | (s, .error .ue) => dropped s
    | (s, .error b) => (s, .error b)
    | (s, .ok c) =>
      match s.takeFail r.part entry false with
      | (s, 0) => ((((s.sendOut r entry e addr c data).countOut r entry addr)).ask r 1 va 0 0, .ok ())
      | (s, _) => dropped s

/-- An atomic through an aperture: the remote side performs it, and the old value is free (log 14). A failed one gives UE,
and one that the remote side refuses ATOMRT (15 R386, R395), as every lane of a pass that shares its line (03 R68). With `ret` the
lane waits for its result, so that nothing is outstanding afterwards. Without it the request is a write: it counts in sr.uwc,
and one that fails is dropped and recorded (DEDUCED, log 53). -/
def remoteAtomic (s : State) (r : Req) (ret : Bool) (entry : Nat) (e : Aperture) (va n : Nat)
    (f : List Byte → Option (List Byte)) : Ans (List Byte) :=
  let addr := e.raddr + (va - e.vabase)
  let (old, s1) := s.freeBytes n
  let new := (f old).getD old
  let fails := fun (s : State) =>
    if ret then (s.ask r 2 va 1 0, Except.error Bad.ue) else ((s.dropWrite r entry addr).ask r 2 va 1 0, Except.ok old)
  match s.asked r 2 va with
  | some q =>
    if q.ans = 2 then (s, .error (.cause .atomrt va))
    else if q.ans = 1 then (if ret then (s, .error .ue) else (s1, .ok old))
    else ({ s1 with links := { s1.links with out := joinOut r.part entry addr new s1.links.out } }, .ok old)
  | none =>
    if s.uwcFull r then (s, .error .busy)
    else match s1.sendBurra r.part e with
    | (_, .error .busy) => (s, .error .busy)
    | (s, .error .ue) => fails s
    | (s, .error b) => (s, .error b)
    | (s, .ok c) =>
      match s.takeFail r.part entry true with
      | (s, 0) =>
        let s := (s.sendOut r entry e addr c new).ask r 2 va 0 0
        (if ret then s else s.countOut r entry addr, .ok old)
      | (s, 2) => (s.ask r 2 va 2 0, .error (.cause .atomrt va))
      | (s, _) => fails s

/-! ## Reads, writes and atomics of virtual bytes -/

/-- What an access of HBM leaves in the caches: a read of a line that it finds, under its tag (11 R292). -/
def State.cached (s : State) (r : Req) (g : TagUse) (va pa : Nat) (i : Ipt) : State :=
  s.fillRead r (if i.tagged then g.tag else 0) va pa

/-- Uncorrectable data that a request meets: it is recorded once for the lanes that share it. -/
def State.ueOnce (s : State) (r : Req) (va pa n : Nat) (i : Ipt) : State :=
  if (s.asked r 0 va).isSome then s else (s.ueAt (lineBase pa) (lineLen pa n) i).ask r 0 va 1 0

/-- A request of lines that cannot be read: an uncorrectable error, or a failed verification, which charges no unit. -/
def State.readBad (s : State) (r : Req) (va pa n : Nat) (i : Ipt) : Ans (List Byte) :=
  (s.ueOnce r va pa n i, .error (if s.badIn (lineBase pa) (lineLen pa n) then .ue else .mac))

/-- The bytes of one place, the access at `va`. An error in a line reaches every access of the line (16 R407). The base image
that stands for an unmaterialised cell allocates in no cache (04 R94, 11 R292). -/
def readPlace (s : State) (r : Req) (g : TagUse) (va n : Nat) : Place → Ans (List Byte)
  | .at pa i => if !s.goodLines pa n i then s.readBad r va pa n i else (s.cached r g va pa i, .ok (s.bytes pa n))
  | .base pa i => if !s.goodLines pa n i then s.readBad r va pa n i else (s, .ok (s.bytes pa n))
  | .zero => (s, .ok (List.replicate n 0))
  | .remote k e _ => remoteRead s r k e va n

/-- Writing one place; the counters of its groups rise once for the lanes of a pass that write the line (03 R68, R76). -/
def writePlace (s : State) (r : Req) (g : TagUse) (va : Nat) (data : List Byte) : Place → Ans Unit
  | .at pa i =>
    let s := if i.attr = 2 ∧ (s.asked r 1 va).isNone then (s.bump pa data.length).ask r 1 va 0 0 else s
    ((s.setBytes pa data).fillWrite r (if i.tagged then g.tag else 0) va pa, .ok ())
  | .base _ _ | .zero => (s, .ok ())
  | .remote k e addr => remoteWrite s r k e va addr data

/-- The error that decides among those of an access's lines: the first that is no park and no wait, else the first. -/
def pickBad (bs : List Bad) : Option Bad :=
  match bs.find? (fun b => !b.soft) with
  | some b => some b
  | none => bs.head?

/-- Translate every line of an access. -/
def trAll (r : Req) (g : TagUse) (k : Kind) (q : Option AtomReq) :
    State → List (Nat × Nat) → State × List (Nat × Nat × Line1) × List Bad
  | s, [] => (s, [], [])
  | s, (va, n) :: t =>
    match trLine s r g k q va with
    | (s, .error b) => let (s, ls, bs) := trAll r g k q s t; (s, ls, b :: bs)
    | (s, .ok l) => let (s, ls, bs) := trAll r g k q s t; (s, (va, n, l) :: ls, bs)

/-- Read the translated lines in address order. -/
def readAll (r : Req) (g : TagUse) : State → List (Nat × Nat × Line1) → Ans (List Byte)
  | s, [] => (s, .ok [])
  | s, (va, n, l) :: t =>
    match readPlace s r g va n (placeRead s r g va l) with
    | (s, .error b) => (s, .error b)
    | (s, .ok bs) =>
      match readAll r g s t with
      | (s, .error b) => (s, .error b)
      | (s, .ok cs) => (s, .ok (bs ++ cs))

/-- The places of a write's lines, all before any is written (03 R68): a line that must wait leaves no cell behind. -/
def placesAll (r : Req) (g : TagUse) : State → List (Nat × Nat × Line1) → Ans (List (Nat × Nat × Place))
  | s, [] => (s, .ok [])
  | s, (va, n, l) :: t =>
    match placeWrite s r g va l with
    | (s, .error b) => (s, .error b)
    | (s, .ok p) =>
      match placesAll r g s t with
      | (s, .error b) => (s, .error b)
      | (s, .ok ps) => (s, .ok ((va, n, p) :: ps))

/-- Write the lines' bytes in address order. -/
def writeAll (r : Req) (g : TagUse) : State → List (Nat × Nat × Place) → List Byte → Ans Unit
  | s, [], _ => (s, .ok ())
  | s, (va, n, p) :: t, data =>
    match writePlace s r g va (data.take n) p with
    | (s, .error b) => (s, .error b)
    | (s, .ok _) => writeAll r g s t (data.drop n)

/-- The access is an acquire at SQUAD scope or wider; through an aperture it is at SYSTEM scope (03 R79). -/
def Req.acquires (r : Req) (ls : List (Nat × Nat × Line1)) : Bool :=
  r.acq || (r.acqAp && ls.any (fun x => match x.2.2 with
    | .remote _ _ => true
    | .hbm _ _ => false))

/-- Read the bytes of the lines `segs`; an acquire then invalidates the L1 (14 R361). -/
def readV (s : State) (r : Req) (g : TagUse) (k : Kind) (segs : List (Nat × Nat)) : Ans (List Byte) :=
  let (s, ls, bs) := trAll r g k none s segs
  match pickBad bs with
  | some b => (s, .error b)
  | none =>
    match readAll r g s ls with
    | (s, .error b) => (s, .error b)
    | (s, .ok bs) => (s.acquired r (r.acquires ls), .ok bs)

/-- Write `data` over the lines `segs`; an access that is not performed leaves memory as it was. -/
def writeV (s : State) (r : Req) (g : TagUse) (k : Kind) (q : Option AtomReq) (segs : List (Nat × Nat))
    (data : List Byte) : Ans Unit :=
  let (s, ls, bs) := trAll r g k q s segs
  match pickBad bs with
  | some b => (s, .error b)
  | none =>
    match placesAll r g s ls with
    | (_, .error b) => (s, .error b)
    | (s2, .ok ps) =>
      match writeAll r g s2 ps data with
      | (s3, .error b) => (if b = .busy then s else s3, .error b)
      | (s3, .ok _) => (s3, .ok ())

/-- Read, then write when `f` gives a new value, in one step (12 R307). An atomic that writes nothing materialises no
cell. Through an aperture the remote side performs it, and `ret` says whether the lane waits for the old value. -/
def atomicV (s : State) (r : Req) (g : TagUse) (q : AtomReq) (ret : Bool) (segs : List (Nat × Nat))
    (f : List Byte → Option (List Byte)) : Ans (List Byte) :=
  let (s, ls, bs) := trAll r g .atomic (some q) s segs
  match pickBad bs with
  | some b => (s, .error b)
  | none =>
    match ls with
    | [(va, n, .remote k e)] =>
      match remoteAtomic s r ret k e va n f with
      | (s, .error b) => (s, .error b)
      | (s, .ok old) => (s.acquired r (r.acquires ls), .ok old)
    | _ =>
      match readAll r g s ls with
      | (s, .error b) => (s, .error b)
      | (s, .ok old) =>
        let s := s.acquired r (r.acquires ls)
        match f old with
        | none => (s, .ok old)
        | some new =>
          match placesAll r g s ls with
          | (_, .error b) => (s, .error b)
          | (s2, .ok ps) =>
            match writeAll r g s2 ps new with
            | (s3, .error b) => (s3, .error b)
            | (s3, .ok _) => (s3, .ok old)

/-! ## Structures in memory (device and monitor accesses) -/

/-- The lines of [va, va + n). -/
def linesOf (va n : Nat) : List (Nat × Nat) :=
  if n = 0 then []
  else (List.range ((va + n - 1) / 128 - va / 128 + 1)).map (fun j =>
    let a := max va ((va / 128 + j) * 128)
    (a, min (va + n) ((va / 128 + j + 1) * 128) - a))

/-- No tag: the base image. -/
def TagUse.none : TagUse := { tag := 0, must := false }

/-- Reading n bytes at va under tag 0 (DESIGN CHOICE where the page is tagged, as for LAUNCH's descriptor: log 68), or none when
any line cannot be read; the state keeps what the attempt recorded (02 R39). -/
def readBlock (s : State) (r : Req) (va n : Nat) : State × Option (List Byte) :=
  if 2 ^ 57 < va + n then (s, none)
  else match readV s r .none .read (linesOf va n) with
    | (s, .ok bs) => (s, some bs)
    | (s, .error _) => (s, none)

/-- Writing bytes at va; false when any line cannot be written. -/
def writeBlock (s : State) (r : Req) (va : Nat) (data : List Byte) : State × Bool :=
  if 2 ^ 57 < va + data.length then (s, false)
  else match writeV s r .none .write none (linesOf va data.length) data with
    | (s, .ok _) => (s, true)
    | (s, .error _) => (s, false)

/-- Bytes [o, o + n) of a block as a little-endian number. -/
def bfld (b : List Byte) (o n : Nat) : Nat := leNat ((b.drop o).take n)

/-- Every byte of [o, o + n) is zero. -/
def zeroIn (b : List Byte) (o n : Nat) : Bool := ((b.drop o).take n).all (fun x => x == 0)

end Sys2Proof.Machine
end

