-- ==== Sys2Proof/Machine/Crypto.lean ====
section
/-! DEFINITION. The cryptographic functions that the spec names: SHA-384 (02 R48), HMAC and HKDF over it (02 R46, 15 R391),
AES-256 (03 R75), its XTS and GCM modes (03 R75, 16 R415, 17 R436, 15 R392). They are the functions of FIPS 180-4, FIPS 197,
RFC 5869, IEEE 1619 and NIST SP 800-38D, which the spec names and does not repeat (log 8). Strings of bytes are lists, first
byte first; a key, a digest, a block or a tag as a bit vector has its first byte in its low bits (00 R4). -/
namespace Sys2Proof.Machine

/-! ## SHA-384 -/

/-- The largest number below `2 ^ n` more than `r` whose power `e` is at most `x`, bit by bit from the highest. -/
def rootBits (e x : Nat) : Nat → Nat → Nat
  | 0, r => r
  | n + 1, r => rootBits e x n (if (r + 2 ^ n) ^ e ≤ x then r + 2 ^ n else r)

/-- The first 64 bits of the fractional part of the root of order `e` of a number below 512. -/
def rootFrac (e p : Nat) : W64 := BitVec.ofNat 64 (rootBits e (p * 2 ^ (64 * e)) 72 0)

/-- The first eighty prime numbers. -/
def shaPrimes : List Nat :=
  (List.range 410).filter (fun n => decide (2 ≤ n) && (List.range n).all (fun d => decide (d < 2) || decide (n % d ≠ 0)))

/-- The round constants: the cube roots of the eighty primes. -/
def shaK : List W64 := shaPrimes.map (rootFrac 3)

/-- The initial hash value of SHA-384: the square roots of the ninth to the sixteenth prime. -/
def shaInit : List W64 := ((shaPrimes.drop 8).take 8).map (rootFrac 2)

/-- Bytes as a number with the first byte highest. -/
def beNat (bs : List Byte) : Nat := bs.foldl (fun n b => n * 256 + b.toNat) 0

/-- `n` bytes of a number, the highest first. -/
def beBytes (n v : Nat) : List Byte := (leBytes n v).reverse

/-- Consecutive pieces of `n` entries, at most `fuel`. -/
def pieces {α : Type} (n : Nat) : Nat → List α → List (List α)
  | 0, _ => []
  | _, [] => []
  | f + 1, l => l.take n :: pieces n f (l.drop n)

/-- The message with its padding and length, in whole blocks of 128 bytes. -/
def shaPad (m : List Byte) : List Byte :=
  m ++ [0x80] ++ List.replicate ((239 - m.length % 128) % 128) 0 ++ beBytes 16 (8 * m.length)

/-- The message schedule, newest word first, `n` words beyond the sixteen of the block. -/
def shaSched : Nat → List W64 → List W64
  | 0, ws => ws
  | n + 1, ws =>
    let x := ws.getD 14 0
    let y := ws.getD 1 0
    shaSched n (((x.rotateRight 1 ^^^ x.rotateRight 8 ^^^ (x >>> 7)) + ws.getD 6 0 +
      (y.rotateRight 19 ^^^ y.rotateRight 61 ^^^ (y >>> 6)) + ws.getD 15 0) :: ws)

/-- The eight working words. -/
structure ShaState where
  a : W64
  b : W64
  c : W64
  d : W64
  e : W64
  f : W64
  g : W64
  h : W64
  deriving DecidableEq, Repr

/-- One round with the sum of its constant and its schedule word. -/
def ShaState.round (s : ShaState) (kw : W64) : ShaState :=
  let t1 := s.h + (s.e.rotateRight 14 ^^^ s.e.rotateRight 18 ^^^ s.e.rotateRight 41) + ((s.e &&& s.f) ^^^ (~~~ s.e &&& s.g)) + kw
  let t2 := (s.a.rotateRight 28 ^^^ s.a.rotateRight 34 ^^^ s.a.rotateRight 39) +
    ((s.a &&& s.b) ^^^ (s.a &&& s.c) ^^^ (s.b &&& s.c))
  { a := t1 + t2, b := s.a, c := s.b, d := s.c, e := s.d + t1, f := s.e, g := s.f, h := s.g }

/-- The hash of one block. -/
def shaBlock (v : ShaState) (block : List Byte) : ShaState :=
  let ws := (shaSched 64 (((pieces 8 16 block).map (fun b => BitVec.ofNat 64 (beNat b))).reverse)).reverse
  let r := (List.zipWith (fun k w => k + w) shaK ws).foldl ShaState.round v
  { a := v.a + r.a, b := v.b + r.b, c := v.c + r.c, d := v.d + r.d, e := v.e + r.e, f := v.f + r.f, g := v.g + r.g, h := v.h + r.h }

/-- The 48 bytes of SHA-384. -/
def sha384Bytes (m : List Byte) : List Byte :=
  let p := shaPad m
  let i := fun k => shaInit.getD k 0
  let r := (pieces 128 (p.length / 128) p).foldl shaBlock
    { a := i 0, b := i 1, c := i 2, d := i 3, e := i 4, f := i 5, g := i 6, h := i 7 }
  [r.a, r.b, r.c, r.d, r.e, r.f].flatMap (fun w => beBytes 8 w.toNat)

/-- SHA-384 as a 48-byte value. -/
def sha384 (m : List Byte) : BitVec 384 := BitVec.ofNat 384 (leNat (sha384Bytes m))

/-- HMAC-SHA-384. -/
def hmac384 (key msg : List Byte) : List Byte :=
  let k := if 128 < key.length then sha384Bytes key else key
  let k := k ++ List.replicate (128 - k.length) 0
  sha384Bytes (k.map (fun b => b ^^^ 0x5C) ++ sha384Bytes (k.map (fun b => b ^^^ 0x36) ++ msg))

/-- HKDF-SHA-384 with an empty salt, for an output of at most 48 bytes. -/
def hkdf384 (ikm info : List Byte) (n : Nat) : List Byte :=
  (hmac384 (hmac384 (List.replicate 48 0) ikm) (info ++ [1])).take n

/-- The bytes of a text. -/
def asciiBytes (t : String) : List Byte := t.toList.map (fun c => BitVec.ofNat 8 c.toNat)

/-! ## AES-256 -/

/-- The substitution table, entry 0 in the low byte. -/
def aesTable : Nat :=
  0x16bb54b00f2d99416842e6bf0d89a18cdf2855cee9871e9b948ed9691198f8e19e1dc186b95735610ef6034866b53e708a8bbd4b1f74dde8c6b4a61c2e2578ba08ae7a65eaf4566ca94ed58d6d37c8e779e4959162acd3c25c2406490a3a32e0db0b5ede14b8ee4688902a22dc4f816073195d643d7ea7c41744975fec130ccdd2f3ff1021dab6bcf5389d928f40a351a89f3c507f02f94585334d43fbaaefd0cf584c4a39becb6a5bb1fc20ed00d153842fe329b3d63b52a05a6e1b1a2c830975b227ebe28012079a059618c323c7041531d871f1e5a534ccf73f362693fdb7c072a49cafa2d4adf04759fa7dc982ca76abd7fe2b670130c56f6bf27b777c63

/-- SubBytes of one byte. -/
def aesSub (b : Byte) : Byte := BitVec.ofNat 8 (aesTable >>> (8 * b.toNat))

/-- Twice a byte in the field of AES. -/
def aesDouble (b : Byte) : Byte := (b <<< 1) ^^^ (if b.getLsbD 7 then 0x1B else 0)

/-- The sum of two strings of bytes. -/
def xorBytes (a b : List Byte) : List Byte := List.zipWith (fun x y => x ^^^ y) a b

/-- The words of the key schedule, newest first, `n` more, the next with number `i`; `rc` is the round constant. -/
def aesExpand : Nat → Nat → Byte → List (List Byte) → List (List Byte)
  | 0, _, _, ws => ws
  | n + 1, i, rc, ws =>
    let t := ws.headD []
    let u := if i % 8 = 0 then xorBytes ((t.drop 1 ++ t.take 1).map aesSub) [rc, 0, 0, 0]
      else if i % 8 = 4 then t.map aesSub else t
    aesExpand n (i + 1) (if i % 8 = 0 then aesDouble rc else rc) (xorBytes (ws.getD 7 []) u :: ws)

/-- The fifteen round keys. -/
def aesKeys (key : BitVec 256) : List (List Byte) :=
  let ws := (aesExpand 52 8 1 (pieces 4 8 (leBytes 32 key.toNat)).reverse).reverse
  (pieces 4 15 ws).map (fun k => k.flatten)

/-- SubBytes and ShiftRows of a block held by columns. -/
def aesSubShift (b : List Byte) : List Byte := (List.range 16).map (fun i => aesSub (b.getD ((i + 4 * (i % 4)) % 16) 0))

/-- MixColumns. -/
def aesMix (b : List Byte) : List Byte :=
  (List.range 16).map (fun i =>
    let x := fun (k : Nat) => b.getD (i / 4 * 4 + (i + k) % 4) 0
    aesDouble (x 0) ^^^ aesDouble (x 1) ^^^ x 1 ^^^ x 2 ^^^ x 3)

/-- The cipher over one block of 16 bytes, with the round keys `ks`. -/
def aesWith (ks : List (List Byte)) (block : List Byte) : List Byte :=
  let mid := (ks.drop 1).take 13
  let b := mid.foldl (fun b k => xorBytes (aesMix (aesSubShift b)) k) (xorBytes block (ks.headD []))
  xorBytes (aesSubShift b) (ks.getD 14 [])

/-- The cipher over one block of 16 bytes. -/
def aesBytes (key : BitVec 256) (block : List Byte) : List Byte := aesWith (aesKeys key) block

/-! ## XTS (IEEE 1619) -/

/-- The next block's tweak: times the primitive element. -/
def xtsNext (t : List Byte) : List Byte :=
  let n := 2 * leNat t
  leBytes 16 (if n < 2 ^ 128 then n else (n - 2 ^ 128) ^^^ 0x87)

/-- The blocks of a data unit under the tweak `t`. -/
def xtsGo (ks : List (List Byte)) : List Byte → List (List Byte) → List Byte
  | _, [] => []
  | t, b :: bs => xorBytes (aesWith ks (xorBytes b t)) t ++ xtsGo ks (xtsNext t) bs

/-- XTS encryption of a data unit of whole blocks with data key `k1`, tweak key `k2` and tweak `n`. -/
def xtsEncrypt (k1 k2 : BitVec 256) (n : Nat) (data : List Byte) : List Byte :=
  xtsGo (aesKeys k1) (aesBytes k2 (leBytes 16 n)) (pieces 16 data.length data)

/-! ## GCM (NIST SP 800-38D) -/

/-- The product in GHASH's field, for numbers whose highest bit is the field's first; `n` bits of `x` are left. -/
def gfMul : Nat → Nat → Nat → Nat → Nat
  | 0, _, _, z => z
  | n + 1, x, v, z =>
    gfMul n x (if v % 2 = 1 then (v / 2) ^^^ (0xE1 * 2 ^ 120) else v / 2) (if x.testBit n then z ^^^ v else z)

/-- Bytes filled with zeros to whole blocks. -/
def padBlock (bs : List Byte) : List Byte := bs ++ List.replicate ((16 - bs.length % 16) % 16) 0

/-- GHASH under the hash key `h`. -/
def ghash (h : Nat) (bs : List Byte) : Nat :=
  (pieces 16 (bs.length / 16) bs).foldl (fun y b => gfMul 128 (y ^^^ beNat b) h 0) 0

/-- The bytes of a text under the key stream, `k` blocks in. -/
def gcmGo (ks : List (List Byte)) (iv : List Byte) : Nat → List (List Byte) → List Byte
  | _, [] => []
  | k, b :: bs => xorBytes b (aesWith ks (iv ++ beBytes 4 (k + 2))) ++ gcmGo ks iv (k + 1) bs

/-- Encryption, which is decryption too. -/
def gcmCrypt (key : BitVec 256) (iv bs : List Byte) : List Byte := gcmGo (aesKeys key) iv 0 (pieces 16 bs.length bs)

/-- The tag over the associated data and the ciphertext, as its 16 bytes. -/
def gcmTag (key : BitVec 256) (iv aad ct : List Byte) : List Byte :=
  let h := beNat (aesBytes key (List.replicate 16 0))
  let y := ghash h (padBlock aad ++ padBlock ct ++ beBytes 8 (8 * aad.length) ++ beBytes 8 (8 * ct.length))
  xorBytes (beBytes 16 y) (aesBytes key (iv ++ beBytes 4 1))

end Sys2Proof.Machine
end

