-- ==== Sys2Proof/Machine/Blob.lean ====
section
/-! DEFINITION. The monitor's saved objects: the bytes of a thread slot (02 R54, 16 R414) and of a crew (16 R416), the sealed
object (16 R415), and the save area of an enclave (16 R414). 16 R416 gives the sections and their sizes; the places of the
fields within a section are the model's (log 15). -/
namespace Sys2Proof.Machine

/-! ## Bytes -/

/-- Bytes `o` to `o + n − 1` of a block. -/
def slice (b : List Byte) (o n : Nat) : List Byte := (b.drop o).take n

/-- Exactly `n` bytes: cut, or filled with zeros. -/
def fitTo (n : Nat) (b : List Byte) : List Byte := (b ++ List.replicate (n - b.length) 0).take n

/-- The bytes of a mask of `w` lanes. -/
def maskBytes (w : Nat) (m : Mask) : List Byte := leBytes ((w + 7) / 8) m.toNat

/-- W0 to W3 of a record (03 R63). -/
def Rec.words (r : Rec) : List W64 :=
  [BitVec.ofNat 64 r.base,
   BitVec.ofNat 64 (r.extent + r.esize * 2 ^ 40 + bit r.trapOob * 2 ^ 43 + r.tagm * 2 ^ 44 + r.cclass * 2 ^ 46 + bit r.flat * 2 ^ 48),
   BitVec.ofNat 64 (r.stride.toNat + r.swmode * 2 ^ 32 + r.sww * 2 ^ 34 + r.swd * 2 ^ 38 + r.sws1 * 2 ^ 44 + r.sws2 * 2 ^ 50),
   BitVec.ofNat 64 r.tag.toNat]

/-! ## Teams (16 R416) -/

/-- The codes of the divergence-stack states (07 R181). -/
def PathState.code : PathState → Nat
  | .opened => 0 | .pend => 1 | .switched => 2

/-- An entry of the divergence stack. A pending path has no lane at its end yet (07 R181), so one mask serves for PM and
AM. -/
def DivEntry.image (w : Nat) (e : DivEntry) : List Byte :=
  maskBytes w e.sm ++ leBytes 8 e.j.toNat ++ leBytes 1 e.st.code ++ maskBytes w (if e.st = .pend then e.pm else e.am) ++ leBytes 8 e.pp.toNat

/-- Codes of what a saved team does: 0 runs, 1 is parked, 2 waits in a SYSCALL, 3 has ended. -/
def Run.code : Run → Nat
  | .parked => 1 | .called => 2 | .ended => 3 | .retired => 3 | .stopped => 3 | _ => 0

/-- Uniform registers `lo` to s63. -/
def Team.uniBytes (t : Team) (lo : Nat) : List Byte := (List.range (64 - lo)).flatMap (fun k => leBytes 8 (t.ureg (lo + k)).toNat)

/-- p1 to p15. -/
def Team.predBytes (t : Team) : List Byte := (List.range 15).flatMap (fun k => maskBytes t.width (t.pred (k + 1)))

/-- x0 to x7 of every lane. -/
def Team.idxBytes (t : Team) : List Byte :=
  (List.range t.width).flatMap (fun l => (List.range 8).flatMap (fun k => leBytes 2 (t.xreg l k).toNat))

/-- b0 to b15. -/
def Team.recBytes (t : Team) : List Byte := (List.range 16).flatMap (fun k => (t.rslot k).words.flatMap (fun x => leBytes 8 x.toNat))

/-- Per-lane registers of lane `l`. -/
def Team.laneBytes (t : Team) (l : Nat) : List Byte := (List.range 255).flatMap (fun r => leBytes 4 (t.vreg l r).toNat)

/-- The handler frame (16 R403). -/
def Frame.image (w : Nat) (f : Frame) : List Byte :=
  leBytes 8 f.hpc.toNat ++ maskBytes w f.hmask ++ maskBytes w f.rpm ++ leBytes 1 (bit f.inh) ++ leBytes 3 f.sig.toNat

/-- A phase in which the team has arrived at a barrier: a mark and the phase. -/
def phaseBytes (x : Option W32) : List Byte := leBytes 1 (bit x.isSome) ++ leBytes 4 (x.getD 0).toNat

/-- The fields of a team record in the order of R416, without the per-lane registers. -/
def Team.fields (t : Team) : List Byte :=
  leBytes 8 t.pc.toNat ++ maskBytes t.width t.active ++ maskBytes t.width t.live ++ maskBytes t.width t.exited ++
  leBytes 1 t.stack.length ++ t.stack.flatMap (DivEntry.image t.width) ++ leBytes 3 t.sig.toNat ++ t.frame.image t.width ++
  leBytes 1 t.run.code ++ leBytes 1 t.parkCause.code.toNat ++ maskBytes t.width (t.replay.getD 0) ++ leBytes 8 t.token ++
  t.uniBytes 0 ++ t.predBytes ++ t.idxBytes ++ t.recBytes ++
  leBytes 4 t.fpmode.toNat ++ leBytes 4 t.srseed.toNat ++ leBytes 4 t.fpflags.toNat ++ leBytes 4 t.devflags.toNat ++
  leBytes 2 t.tag.toNat ++ leBytes 8 t.sppass.toNat ++ leBytes 1 t.trapcause.toNat ++ leBytes 8 t.trappc.toNat ++
  maskBytes t.width t.trapmask ++ leBytes 1 t.regs ++ leBytes 4 t.amovGen.toNat ++
  leBytes 4 t.cnt.copy ++ leBytes 4 t.cnt.tile ++ leBytes 4 t.cnt.matrix ++ leBytes 4 t.cnt.coll ++ leBytes 4 t.cnt.tag ++
  leBytes 4 t.sum.fpf.toNat ++ leBytes 4 t.sum.dvf.toNat ++ leBytes 4 t.sum.tci ++ leBytes 4 t.sum.tcm ++ leBytes 4 t.sum.tca ++
  leBytes 4 t.sum.tcx ++ phaseBytes t.arrC ++ phaseBytes t.arrQ

/-- A team record. -/
def Team.image (t : Team) : List Byte := fitTo 32768 t.fields

/-- A team's register rows: register by register, one row of 128 bytes for 32 lanes (05 R132). -/
def Team.rowBytes (t : Team) : List Byte :=
  (List.range t.regs).flatMap (fun r => (List.range t.width).flatMap (fun l => leBytes 4 (t.vreg l r).toNat))

/-! ## Thread slots (02 R54, 16 R414) -/

/-- The 4 KiB of the entering thread's saved state: what 02 R54 lists. -/
def outerImage (t : Team) : List Byte :=
  fitTo 4096 (leBytes 8 t.pc.toNat ++ t.uniBytes 8 ++ t.predBytes ++ t.idxBytes ++ t.laneBytes 0 ++ t.recBytes ++
    leBytes 4 t.fpmode.toNat ++ leBytes 4 t.fpflags.toNat ++ leBytes 4 t.devflags.toNat)

/-- The plaintext of a slot's sealed state, which fills 12 KiB with its header and tag. -/
def innerImage (t : Team) : List Byte := fitTo 12208 (t.fields ++ t.laneBytes 0)

/-! ## Crews (16 R416) -/

/-- A barrier. -/
def Barrier.image (b : Barrier) : List Byte := leBytes 4 b.phc.toNat ++ leBytes 4 b.arrived ++ leBytes 4 b.extra

/-- The codes of tile states (11 R288). -/
def TileState.code : TileState → Nat
  | .empty => 0 | .filling => 1 | .ready => 2 | .draining => 3

/-- A tile-table entry in the map of 11 R288, with its LSTAT. -/
def Tile.image (t : Tile) : List Byte :=
  leBytes 8 (t.base + t.hm1 * 2 ^ 12 + t.rwm1 * 2 ^ 24 + t.ty.code * 2 ^ 27 + t.st.code * 2 ^ 35 + bit t.ph * 2 ^ 37) ++
  leBytes 1 t.lstat.toNat

/-- The state of a plane, without its columns. -/
def Plane.marks (p : Plane) : List Byte :=
  leBytes 1 (bit p.valid + 2 * bit p.sparse + 4 * bit p.poison) ++ leBytes 1 ((p.ty.map (fun t => t.code)).getD 0)

/-- A pending matrix operation. -/
def MatOp.image (o : MatOp) : List Byte :=
  leBytes 1 (teamNo o.agent) ++ leBytes 12 ((encode o.instr).getD 0).toNat ++ leBytes 8 o.r0 ++ leBytes 4 o.fpmode.toNat ++
  leBytes 4 o.gen.toNat

/-- The progress of a tile-engine operation. -/
def TileOp.image (o : TileOp) : List Byte :=
  leBytes 1 (teamNo o.agent) ++ leBytes 1 o.tile ++ leBytes 8 o.id ++ leBytes 8 (o.token.getD 0) ++ leBytes 8 ((o.stall.map (·.1)).getD 0)

/-- The crew record, with the squad's barrier and the crew's tile operations. -/
def Crew.image (c : Crew) (sq : Barrier) (ops : List TileOp) : List Byte :=
  fitTo 16384 (c.bar.image ++ sq.image ++ (List.range c.tiles).flatMap (fun k => (c.tileAt k).image) ++
    c.act.marks ++ c.shd.marks ++ leBytes 1 c.mstat.toNat ++ leBytes 2 ops.length ++ ops.flatMap TileOp.image ++
    leBytes 2 c.mops.length ++ c.mops.flatMap MatOp.image)

/-- A weight plane: 256 bytes for each of the 32 columns (13 R328). -/
def Plane.image (p : Plane) : List Byte :=
  (List.range 32).flatMap (fun n => (List.range 256).map (fun j => tget 0 p.w (n * 1024 + j)))

/-- An accumulator bank: 128 rows of 32 elements. -/
def Crew.bankBytes (c : Crew) (k : Nat) : List Byte := (List.range 4096).flatMap (fun j => leBytes 4 (tget 0 c.bank (k * 4096 + j)).toNat)

/-- Bytes of a crew blob's plaintext (16 R416). -/
def blobLen (teams rows sprows accs : Nat) : Nat :=
  32768 * teams + 16384 + 128 * rows + 128 * sprows + 16384 * accs + (if accs = 0 then 0 else 16384)

/-- Rounded up to a multiple of 64. -/
def up64 (n : Nat) : Nat := (n + 63) / 64 * 64

namespace State

/-- The register rows that a crew holds, with team `k` at `n` registers per lane (05 R132). -/
def rowsWith (s : State) (c : Nat) (k n : Nat) : Nat :=
  up64 (((List.range (s.crew c).nteams).map (fun j =>
    let t := s.team (agentOf c j)
    (if j = k then n else t.regs) * (t.width / 32))).sum)

/-- The register rows that a crew holds. -/
def rows (s : State) (c : Nat) : Nat := s.rowsWith c 16 0

/-- LEN of a crew's blob. -/
def crewLen (s : State) (n : Nat) : Nat :=
  let c := s.crew n
  blobLen c.nteams (s.rows n) c.sprows c.accs

/-- LEN of a crew's blob with team `k` at `m` registers per lane. -/
def lenWith (s : State) (n k m : Nat) : Nat :=
  let c := s.crew n
  blobLen c.nteams (s.rowsWith n k m) c.sprows c.accs

/-- The plaintext of a crew's blob. -/
def crewBlob (s : State) (n : Nat) : List Byte :=
  let c := s.crew n
  let ts := (List.range c.nteams).map (fun k => s.team (agentOf n k))
  let ops := s.eng.tileOps.filter (fun o => !isThread o.agent && crewNo o.agent == n)
  ts.flatMap Team.image ++
  Crew.image c (s.squad (c.fx * 2 ^ 32 + c.squad.getD 0)) ops ++
  fitTo (128 * s.rows n) (ts.flatMap Team.rowBytes) ++
  (List.range (128 * c.sprows)).map (tget 0 c.sp) ++
  (List.range c.accs).flatMap c.bankBytes ++
  (if c.accs = 0 then [] else c.act.image ++ c.shd.image)

end State

/-! ## Sealed objects (16 R415) -/

/-- The header of a saved object. -/
def sealHeader (kind eid fixid unit va ver len iv pattr : Nat) : List Byte :=
  leBytes 2 kind ++ leBytes 2 eid ++ leBytes 4 fixid ++ leBytes 4 unit ++ leBytes 4 0 ++ leBytes 8 va ++ leBytes 8 ver ++
    leBytes 8 len ++ leBytes 12 iv ++ leBytes 4 pattr ++ leBytes 8 0

/-- Header, ciphertext and tag of an object: AES-256-GCM with the header as the associated data. -/
def sealObj (key : BitVec 256) (iv : Nat) (hdr pt : List Byte) : List Byte :=
  let ct := gcmCrypt key (leBytes 12 iv) pt
  hdr ++ ct ++ gcmTag key (leBytes 12 iv) hdr ct

/-- The tag of an object verifies over its header and ciphertext. -/
def sealGood (key : BitVec 256) (len : Nat) (img : List Byte) : Bool :=
  gcmTag key (slice img 0x28 12) (slice img 0 64) (slice img 64 len) == slice img (64 + len) 16

/-- The plaintext of an object. -/
def openObj (key : BitVec 256) (len : Nat) (img : List Byte) : List Byte := gcmCrypt key (slice img 0x28 12) (slice img 64 len)

/-! ## The save area (16 R414) -/

/-- The address of a thread slot's 16 KiB. -/
def Enclave.slotPa (e : Enclave) (k : Nat) : Nat := e.savepa + 16384 * k

/-- The frames of the crew region. -/
def Enclave.crewFrames (e : Enclave) : List Nat :=
  (List.range (e.savefr - (e.threads + 3) / 4)).map (fun j => e.savepa / 65536 + (e.threads + 3) / 4 + j)

/-- Bytes of the crew region. -/
def Enclave.region (e : Enclave) : Nat := 65536 * (e.savefr - (e.threads + 3) / 4)

/-- The room of a blob: its sealed size in whole frames. -/
def roomFrames (len : Nat) : Nat := (80 + len + 65535) / 65536

/-- The room that a crew holds. -/
def Crew.room (c : Crew) : Nat := 65536 * c.frames.length

namespace State

/-- The frames of the crew region that no crew holds. -/
def freeRoom (s : State) (eid : Nat) : List Nat :=
  (s.enc eid).crewFrames.filter (fun p => !s.crews.any (fun x => x.2.eid == eid && x.2.frames.contains p))

/-- What is free of the crew region. -/
def regionFree (s : State) (eid : Nat) : Nat := 65536 * (s.freeRoom eid).length

/-- The frames that a crew's room needs beside those it holds when team `k` has `m` registers per lane (R414). -/
def moreRoom (s : State) (n k m : Nat) : Nat := roomFrames (s.lenWith n k m) - (s.crew n).frames.length

/-- The crew's room for team `k` at `m` registers per lane is reserved. -/
def reserveRoom (s : State) (n k m : Nat) : State :=
  s.modCrew n (fun c => { c with frames := c.frames ++ (s.freeRoom c.eid).take (s.moreRoom n k m) })

/-- Bytes written from the start of the listed frames on. -/
def fillFrames (s : State) : List Nat → List Byte → State
  | [], _ => s
  | p :: ps, b => (s.setBytes (p * 65536) (b.take 65536)).fillFrames ps (b.drop 65536)

/-- The bytes of the listed frames, `n` of them. -/
def readFrames (s : State) (ps : List Nat) (n : Nat) : List Byte := (ps.flatMap (fun p => s.bytes (p * 65536) 65536)).take n

/-- A crew's blob is sealed into its room under its next version (R415-R417). -/
def saveBlob (s : State) (n : Nat) : State :=
  let c := s.crew n
  let e := s.enc c.eid
  let key := (s.fixture c.fx).fid.toNat * 2 ^ 32 + c.index
  let ver := tget 0 e.crewVer key + 1
  let hdr := sealHeader 1 c.eid (s.fixture c.fx).fid.toNat c.index 0 ver (s.crewLen n) e.iv 0
  let s' := s.modEnc c.eid (fun e => { e with crewVer := tset 0 e.crewVer key ver, iv := e.iv + 1 })
  (s'.modCrew n (fun c => { c with version := ver })).fillFrames c.frames (sealObj e.saveKey e.iv hdr (s.crewBlob n))

/-- A slot's state is sealed into its frame (R415). -/
def saveSlot (s : State) (eid k : Nat) (t : Team) : State :=
  let e := s.enc eid
  let hdr := sealHeader 2 eid 0 k 0 0 12208 e.iv 0
  (s.modEnc eid (fun e => { e with iv := e.iv + 1 })).setBytes (e.slotPa k + 4096) (sealObj e.saveKey e.iv hdr (innerImage t))

end State
end Sys2Proof.Machine
end

