-- ==== Sys2Proof/Machine/Walk.lean ====
section
/-! DEFINITION. The page walkers of a cluster and their scheduler (03 R80). Walks take no time until a `hold` entry of the
agenda says that a cluster's do; from then on each ends at a `serve` entry (log 6). And how waits end. -/
namespace Sys2Proof.Machine

/-! ## The ends of waits (05 R135, 14 R365, R366) -/

/-- A wait is over: the instruction may issue again, and the team's waiting time for its slot begins (05 R135). -/
def Team.wake (t : Team) (cyc : Nat) : Team :=
  match t.waiting with
  | some w => if w.woken then t else { t with waiting := some { w with woken := true }, since := cyc, aged := false }
  | none => t

/-- Memory accesses and fences, which may wait at issue for acknowledgements, streams and walks. -/
def memoryClass : Instr → Bool
  | .ld _ | .st _ | .ldx _ | .atom _ | .atomc _ | .red _ | .fence _ => true
  | _ => false

namespace State

/-- The agent's waiting instruction may issue again. -/
def wake (s : State) (a : Nat) : State := s.modTeam a (fun t => t.wake (s.mcyc a))

/-- Teams that wait to issue a memory access or a fence look again. -/
def stir (s : State) : State :=
  { s with teams := s.teams.map (fun x =>
      if x.2.waiting.any (fun w => memoryClass w.instr) then (x.1, x.2.wake (s.mcyc x.1)) else x) }

/-- Every outstanding write is acknowledged (14 R365). -/
def ackAll (s : State) : State := stir { s with teams := tmap Team.idle (fun t => { t with uwc := [] }) s.teams }

/-! ## Walks -/

/-- The pages of `vpns` that need a walk, each once: neither an aperture nor the TLB translates them. -/
def missing (s : State) (r : Req) (vpns : List Nat) : List Nat :=
  (vpns.filter (fun v => (s.apertOf r (v * 65536)).isNone && (s.tlbHit r v).isNone)).eraseDups

/-- Walks that take no time: each result fills the TLB. -/
def walkAll (s : State) (r : Req) (k : Kind) (vpns : List Nat) : State := vpns.foldl (fun s v => (trPage s r v k).1) s

/-- Walks of the cluster take time. -/
def slowWalks (s : State) (cl : Nat) : Bool := s.eng.held.contains cl

/-- The walks at work in a cluster. -/
def atWork (s : State) (cl : Nat) : List (Nat × Nat) := tget [] s.eng.walkers cl

/-- The walks of a batch that are outstanding. -/
def outOf (s : State) (cl k : Nat) : Nat := ((s.atWork cl).filter (fun x => x.1 == k)).length

/-- The batch has waited 65,536 cycles. -/
def agedBatch (s : State) (b : WalkBatch) : Bool := b.aged || decide (b.cycles + 65536000 ≤ s.mcycOf b.cluster)

/-- The batch that a free walker of a cluster is given to: an aged one first, then one with the fewest walks outstanding, then
the oldest. -/
def nextBatch (s : State) (cl : Nat) : Option (Nat × WalkBatch) :=
  (s.eng.walks.filter (fun x => x.2.cluster == cl && x.2.pages != [])).foldl (fun m x => match m with
    | none => some x
    | some y =>
      let a := s.agedBatch x.2
      let b := s.agedBatch y.2
      if (a && !b) || (a == b && decide (s.outOf cl x.1 < s.outOf cl y.1)) then some x else some y) none

/-- The batch without the page that its next walk is for. -/
def takePage (k : Nat) (ws : List (Nat × WalkBatch)) : List (Nat × WalkBatch) :=
  ws.map (fun x => if x.1 = k then (k, { x.2 with pages := x.2.pages.tail }) else x)

/-- Each free walker of a cluster, of its 32, takes the next page; `n` of them are asked. -/
def startWalks (cl : Nat) : Nat → State → State
  | 0, s => s
  | n + 1, s =>
    if 32 ≤ (s.atWork cl).length then s
    else match s.nextBatch cl with
      | none => s
      | some (k, b) =>
        startWalks cl n { s with eng := { s.eng with
          walks := takePage k s.eng.walks
          walkers := tset [] s.eng.walkers cl (s.atWork cl ++ [(k, b.pages.headD 0)]) } }

/-- A batch of walks of an agent joins the scheduler, once. -/
def queueWalks (s : State) (a : Nat) (use : WalkUse) (vpns : List Nat) : State :=
  if s.eng.walks.any (fun x => x.2.agent == a && x.2.use == use) then s
  else
    let cl := s.clusterOf a
    let b : WalkBatch := { agent := a, cluster := cl, use := use, pages := vpns, cycles := s.mcyc a, aged := false }
    startWalks cl 32 { s with eng := { s.eng with walks := s.eng.walks ++ [(s.eng.nextOp, b)], nextOp := s.eng.nextOp + 1 } }

/-- The agent's next block waits for a walk. -/
def fetchWaits (s : State) (a : Nat) : Bool := s.eng.walks.any (fun x => x.2.agent == a && x.2.use == .fetch)

/-- The walks of an agent's instruction and fetch are no longer asked for. -/
def dropWalks (s : State) (a : Nat) : State :=
  let mine := fun (x : Nat × WalkBatch) => x.2.agent == a && (x.2.use == .instr || x.2.use == .fetch)
  let gone := (s.eng.walks.filter mine).map (·.1)
  if gone = [] ∧ !s.eng.fetched.contains a then s
  else startWalks (s.clusterOf a) 32 { s with eng := { s.eng with
      walks := s.eng.walks.filter (fun x => !mine x)
      walkers := tmap [] (fun ws => ws.filter (fun w => !gone.contains w.1)) s.eng.walkers
      fetched := s.eng.fetched.filter (fun x => x != a) } }

/-- The kind of the accesses of a memory instruction. -/
def kindOf : Instr → Kind
  | .st _ => .write
  | .atom _ | .atomc _ | .red _ => .atomic
  | _ => .read

/-- Who asks for the walks of a batch, and for which kind of access. -/
def walkReq (s : State) (b : WalkBatch) : Req × Kind :=
  match b.use with
  | .instr => (s.req b.agent, ((s.team b.agent).waiting.map (fun w => kindOf w.instr)).getD .read)
  | .fetch => (s.req b.agent, .fetch)
  | .tile op =>
    ({ engReq (s.partOf b.agent) (s.eidOf b.agent) with cl := some b.cluster },
      if s.eng.tileOps.any (fun o => o.id == op && o.kind == .drain) then .write else .read)

/-- Every walk of a batch has ended: what waited for it goes on. -/
def walksOver (s : State) (b : WalkBatch) : State :=
  match b.use with
  | .instr => s.modTeam b.agent (fun t => Team.wake { t with waiting := t.waiting.map (fun w => { w with walked := true }) } (s.mcyc b.agent))
  | .fetch => { s with eng := { s.eng with fetched := b.agent :: s.eng.fetched } }
  | .tile op => { s with eng := { s.eng with tileOps := s.eng.tileOps.map (fun o => if o.id = op then { o with walked := true } else o) } }

/-- A walk at work in a cluster ends: its result fills the TLB, its walker goes on to the next page, and a batch without a walk
left is over. With none at work the cluster's walks take no time again. -/
def serveWalk (s : State) (cl n : Nat) : State :=
  match (s.atWork cl)[n]? with
  | none => if s.atWork cl = [] then { s with eng := { s.eng with held := s.eng.held.filter (fun c => c != cl) } } else s
  | some (k, v) =>
    let s : State := { s with eng := { s.eng with walkers := tset [] s.eng.walkers cl ((s.atWork cl).eraseIdx n) } }
    match s.eng.walks.find? (fun x => x.1 == k) with
    | none => startWalks cl 32 s
    | some (_, b) =>
      let s := (trPage s (s.walkReq b).1 v (s.walkReq b).2).1
      let s := if b.pages = [] ∧ s.outOf cl k = 0 then
          ({ s with eng := { s.eng with walks := s.eng.walks.filter (fun x => x.1 != k) } } : State).walksOver b
        else s
      startWalks cl 32 s

/-- The cluster's walks take time. -/
def holdWalkers (s : State) (cl : Nat) : State :=
  if cl < 4 ∧ !s.slowWalks cl then { s with eng := { s.eng with held := cl :: s.eng.held } } else s

end State
end Sys2Proof.Machine
end

