-- ==== Sys2Proof/Machine/Ops.lean ====
section
/-! DEFINITION. The named operations that every family shares: the death of lanes, trap records, taking an exception
(`finishTeam`, `threadTrap`) and returning from one (`handlerReturn`), parking and notices, leaving a slot and a block, the
implicit joins, the end of teams, crews and fixtures, eviction, and the OS-fatal stop. -/
namespace Sys2Proof.Machine

/-! ## Lanes, counts, records -/

/-- An entry of the divergence stack without the lanes of `m`. -/
def DivEntry.drop (e : DivEntry) (m : Mask) : DivEntry :=
  { e with sm := e.sm &&& ~~~ m, pm := e.pm &&& ~~~ m, am := e.am &&& ~~~ m }

/-- Lanes that exit or die leave the active mask and every mask of the stack (07 R180). -/
def Team.remove (t : Team) (m : Mask) : Team :=
  { t with active := t.active &&& ~~~ m, stack := t.stack.map (fun e => e.drop m) }

/-- The lanes of `m` that live die of `c` (16 R407, 01 R16). -/
def Team.kill (t : Team) (m : Mask) (c : Cause) : Team :=
  let m := m &&& t.live
  let t := t.remove m
  { t with live := t.live &&& ~~~ m, frame := { t.frame with hmask := t.frame.hmask &&& ~~~ m, rpm := t.frame.rpm &&& ~~~ m },
           dead := t.dead ++ (lanes t.width m).map (fun l => (l, c)) }

/-- The lowest lane of a mask. -/
def lowLane (w : Nat) (m : Mask) : Nat := (lanes w m).headD 0

/-- sr.trapmask, sr.trappc and sr.trapcause (16 R400). -/
def Team.setTrap (t : Team) (m : Mask) (pc : W64) (c : BitVec 8) : Team :=
  { t with trapmask := m, trappc := pc, trapcause := c }

/-- The trap count of a cause rises, by at most 1 in its class for one instruction (08 R233, 16 R401). -/
def Team.countTrap (t : Team) (c : Cause) : Team :=
  if t.counted.contains c.cls then t else { t with sum := t.sum.count c, counted := c.cls :: t.counted }

namespace State

/-- The first-trap record of the team's fixture, when it is still empty (18 R453). -/
def firstTrap (s : State) (a : Nat) (c : Cause) (lane : Nat) (pc : W64) : State :=
  s.modFixture (s.fxOf a) (fun f =>
    match f.first with
    | some _ => f
    | none => { f with first := some { pc := pc, cause := c.code, lane := lane, team := teamNo a,
                                       crew := (s.crew (crewNo a)).index } })

/-- A team's trap of cause `c` in the lanes `m`: the three registers, the count and the first-trap record. -/
def recordTrap (s : State) (a : Nat) (m : Mask) (c : Cause) (pc : W64) : State :=
  let s := s.modTeam a (fun t =>
    { (t.setTrap m pc c.code).countTrap c with causes := (lanes t.width m).map (fun l => (l, c)) })
  s.firstTrap a c (lowLane (s.team a).width m) pc

def killLanes (s : State) (a : Nat) (m : Mask) (c : Cause) : State := s.modTeam a (fun t => t.kill m c)

/-- Each listed lane dies of its own cause (18 R452). -/
def killEach (s : State) (a : Nat) (k : Traps) : State :=
  s.modTeam a (fun t => k.foldl (fun t x => t.kill (oneLane x.1) x.2) t)

/-- Consuming lanes die before anything else of the instruction (16 R407). The core is charged, but not for the lanes `mac`
alone, whose data failed verification (18 R458). -/
def ueDeath (s : State) (a : Nat) (pc : W64) (m mac : Mask) : State :=
  let s := (s.recordTrap a m .ue pc).killLanes a m .ue
  let s := if m &&& ~~~ mac = 0 then s else s.charge (.core (s.coreOf a)) 256
  s.log 0x06 1 (s.worldOf a) (s.coreOf a) (s.eidOf a) pc

/-- The deaths that the wait of an instruction has put off (07 R210). -/
def lateDeath (s : State) (a : Nat) (w : Waiting) : State := if w.ue = 0 then s else s.ueDeath a (s.team a).pc w.ue 0

/-! ## Notices and the call and fault queues (15 R381, R382, 16 R406, R410) -/

/-- Bit `k` of a thread's notice word is set and the thread is notified (16 R410). -/
def notify (s : State) (a k : Nat) : State :=
  let th := s.thread a
  match th.vec with
  | none => s.setThread a { th with pending := true }
  | some _ =>
    let s := match readBlock s osReq th.note.toNat 8 with
      | (s, none) => s
      | (s, some b) => (writeBlock s osReq th.note.toNat (leBytes 8 (leNat b ||| 2 ^ k))).1
    s.setThread a { th with pending := true }

/-- The entry of a call (15 R382). -/
def callEntry (s : State) (p : Post) : List Byte :=
  let t := s.team p.agent
  leBytes 4 p.fixid.toNat ++ leBytes 4 p.crew.toNat ++ leBytes 1 p.team ++ leBytes 1 p.part ++ leBytes 2 p.eid ++
    leBytes 4 0 ++ leBytes 8 p.pc.toNat ++ leBytes 8 p.token ++ leBytes 8 (t.ureg 0).toNat ++
    leBytes 8 (t.ureg 1).toNat ++ leBytes 8 (t.ureg 2).toNat ++ leBytes 8 (t.ureg 3).toNat

/-- KIND of a fault notice. -/
def PostKind.code : PostKind → Nat
  | .engine _ => 1
  | .thread => 2
  | _ => 0

/-- A fault notice (16 R406). -/
def faultEntry (p : Post) : List Byte :=
  leBytes 4 p.fixid.toNat ++ leBytes 4 p.crew.toNat ++ leBytes 1 p.team ++ leBytes 1 p.part ++ leBytes 2 p.eid ++
    leBytes 1 p.cause.code.toNat ++ leBytes 1 (PostKind.code p.kind) ++ leBytes 1 p.access ++ leBytes 1 0 ++
    leBytes 8 (match p.kind with | .engine _ => 0 | _ => p.pc.toNat) ++ leBytes 8 p.token ++ leBytes 8 p.wher ++
    leBytes 24 0

/-- Which of the two queues a post belongs to. -/
def Post.isCall (p : Post) : Bool := p.kind == .call

/-- Posting one entry: it is written, HEAD rises, and an empty queue's thread is notified. False when the queue is full,
absent or cannot be reached; the post then waits. -/
def postOne (s : State) (p : Post) : State × Bool :=
  match (if Post.isCall p then (s.part p.part).callQ else (s.part p.part).faultQ) with
  | none => (s, false)
  | some q =>
    match readBlock s osReq q.idx 8 with
    | (s, none) => (s, false)
    | (s, some ix) =>
      let head := bfld ix 0 4
      let used := (head + 2 ^ 32 - bfld ix 4 4) % 2 ^ 32
      if 2 ^ q.log2n ≤ used then (s, false)
      else
        let ent := if Post.isCall p then s.callEntry p else faultEntry p
        match writeBlock s osReq (q.ring + 64 * (head % 2 ^ q.log2n)) ent with
        | (s, false) => (s, false)
        | (s, true) =>
          match writeBlock s osReq q.idx (leBytes 4 ((head + 1) % 2 ^ 32)) with
          | (s, false) => (s, false)
          | (s, true) =>
            let s := if used = 0 then s.notify (2 * q.core + q.thr) (if Post.isCall p then 0 else 1) else s
            ({ s with posts := s.posts.map (fun x => if x.token = p.token then { x with posted := true } else x) }, true)

/-- Post the waiting entries in order, oldest first; after an entry that its queue cannot take, the queue takes no later
one (`full` lists such queues). -/
def postGo : State → List (Nat × Bool) → List Post → State
  | s, _, [] => s
  | s, full, p :: t =>
    if full.contains (p.part, Post.isCall p) then postGo s full t
    else match s.postOne p with
      | (s, true) => postGo s full t
      | (s, false) => postGo s ((p.part, Post.isCall p) :: full) t

/-- A new call or notice, with a fresh token, posted at once when its queue has room. -/
def addPost (s : State) (p : Post) : State :=
  let p := { p with token := s.nextToken + 1, posted := false }
  let s := { s with nextToken := s.nextToken + 1, posts := s.posts ++ [p] }
  if s.posts.any (fun x => !x.posted && x.token != p.token && x.part == p.part && Post.isCall x == Post.isCall p) then s
  else (s.postOne p).1

/-- The notice or call of a team. -/
def teamPost (s : State) (a : Nat) (kind : PostKind) (c : Cause) (access wher : Nat) (pc : W64) : Post :=
  let cr := s.crew (crewNo a)
  { token := 0, kind := kind, agent := a, part := cr.part, eid := cr.eid, cause := c, access := access, pc := pc,
    fixid := (s.fixture cr.fx).fid, crew := BitVec.ofNat 32 cr.rank, team := teamNo a, wher := wher, posted := false }

/-- WHERE of a notice: the page of a PAGEF, the stack of a TAGEXH (16 R406). -/
def noticeWhere (c : Cause) (wher : Nat) : Nat := if c = .pagef then wher % 2 ^ 64 / 65536 * 65536 else wher

/-- park(pc, u) (16 R404), with INH 0 or 1: RPM is `u`. A wait of the instruction is over, and its replay begins anew (04
R95). -/
def park (s : State) (a : Nat) (pc : W64) (u : Mask) (c : Cause) (access wher : Nat) : State :=
  let s := s.recordTrap a u c pc
  let s := s.modTeam a (fun t => { t with
    run := .parked, parkCause := c, replay := some u, waiting := none, token := s.nextToken + 1
    frame := { t.frame with rpm := u } })
  s.addPost (s.teamPost a .team c access (noticeWhere c wher) pc)

/-! ## The end of teams (14 R372, 07 R184) -/

/-- The team has ended or retired. -/
def Team.over (t : Team) : Bool := t.run == .ended || t.run == .retired

/-- Teams of a crew that have not ended. -/
def liveTeams (s : State) (n : Nat) : Nat :=
  ((List.range (s.crew n).nteams).filter (fun k => !Team.over (s.team (agentOf n k)))).length

/-- A barrier whose arrivals reach the expected count completes its phase. -/
def Barrier.check (b : Barrier) (liveN : Nat) : Barrier :=
  if b.arrived ≠ 0 ∧ b.arrived = liveN + b.extra then { phc := b.phc + 1, arrived := 0, extra := 0 } else b

/-- The key of a crew's squad barrier. -/
def squadKey (c : Crew) : Nat := c.fx * 2 ^ 32 + c.squad.getD 0

/-- Teams of a squad that have not ended. -/
def liveSquad (s : State) (c : Crew) : Nat :=
  ((s.crews.filter (fun x => x.2.fx == c.fx && x.2.squad == c.squad)).map (fun x => s.liveTeams x.1)).sum

/-- Check both barriers of a crew. -/
def checkBarriers (s : State) (n : Nat) : State :=
  let s := s.modCrew n (fun c => { c with bar := Barrier.check c.bar (s.liveTeams n) })
  let c := s.crew n
  match c.squad with
  | none => s
  | some _ => s.setSquad (squadKey c) (Barrier.check (s.squad (squadKey c)) (s.liveSquad c))

/-- A team of a fixture ends: an arrival of the current phase stands until the phase completes. -/
def endTeam (s : State) (a : Nat) : State :=
  let t := s.team a
  let c := s.crew (crewNo a)
  let s := s.setTeam a { t with run := .ended, active := 0, stack := [], waiting := none, replay := none, block := [] }
  let s := if t.arrC = some c.bar.phc then s.modCrew (crewNo a) (fun c => { c with bar := { c.bar with extra := c.bar.extra + 1 } }) else s
  let s := match c.squad with
    | none => s
    | some _ =>
      let b := s.squad (squadKey c)
      if t.arrQ = some b.phc then s.setSquad (squadKey c) { b with extra := b.extra + 1 } else s
  s.checkBarriers (crewNo a)

/-- A control thread stops (07 R196). -/
def stopThread (s : State) (a : Nat) : State :=
  s.modTeam a (fun t => { t with run := .stopped, waiting := none, replay := none, block := [], folded := false })

/-! ## Crews and fixtures end (16 R402, R425, 18 R451) -/

/-- A multicast that stops with CANCEL leaves its destinations in progress EMPTY (12 R314, R317). -/
def cancelMcast (s : State) (o : TileOp) : State :=
  o.dests.foldl (fun (s : State) x => if x.2 = .filling then s.endTile x.1 o.tile .empty 0x09 else s) s

/-- A crew leaves the device: its ranges are cleared and freed (18 R454). -/
def vacate (c : Crew) : Crew :=
  { c with done := true, core := none, onRes := false, frames := [], sp := [], badSp := [], tile := [], bank := [],
           badBank := [], act := .none, shd := .none, mops := [] }

/-- A completed crew leaves its core. In a squad the scratchpad rows stay until the whole squad is done (11 R283). -/
def crewOver (s : State) (n : Nat) : State :=
  let c := s.crew n
  match c.squad with
  | none => s.setCrew n (vacate c)
  | some _ =>
    let s := s.setCrew n { vacate c with sp := c.sp, badSp := c.badSp, core := c.core }
    let all := s.crews.filter (fun x => x.2.fx == c.fx && x.2.squad == c.squad)
    if all.all (fun x => x.2.done) then all.foldl (fun (s : State) (x : Nat × Crew) => s.modCrew x.1 vacate) s else s

/-- A crew of a fixture is terminated and reported failed. Its tile and matrix operations stop, its copies will retire
with CANCEL (12 R314), and its parked calls and notices are withdrawn. -/
def terminateCrew (s : State) (n : Nat) (reason detail : BitVec 8) : State :=
  let c := s.crew n
  if c.done then s
  else
    let mine := fun (a : Nat) => !isThread a && crewNo a == n
    let s : State := (List.range c.nteams).foldl (fun (s : State) k => s.modTeam (agentOf n k) (fun t =>
      if t.run == .retired then t
      else { t with run := .ended, active := 0, stack := [], waiting := none, replay := none, block := [],
                    cnt := { t.cnt with tile := 0, matrix := 0 } })) s
    let s : State := (s.eng.tileOps.filter (fun o => mine o.agent)).foldl cancelMcast s
    let s : State := { s with
      posts := s.posts.filter (fun p => !(mine p.agent && p.kind != .thread)),
      eng := { s.eng with tileOps := s.eng.tileOps.filter (fun o => !mine o.agent),
                          copyOps := s.eng.copyOps.map (fun o =>
                            if mine o.owner then { o with cancel := true, token := none } else o) } }
    let s := s.crewOver n
    s.modFixture c.fx (fun f => { f with
      doneCount := f.doneCount + 1
      fails := tset { reason := 0, detail := 0 } f.fails c.index { reason := reason, detail := detail } })

/-- Crew numbers of a fixture. -/
def crewsOf (s : State) (fx : Nat) : List Nat := (s.crews.filter (fun x => x.2.fx == fx && !x.2.done)).map (·.1)

/-- Every crew that has not retired is terminated, placed or not (16 R402). -/
def terminateFixture (s : State) (fx : Nat) (reason detail : BitVec 8) : State :=
  let s := (s.crewsOf fx).foldl (fun s n => s.terminateCrew n reason detail) s
  s.modFixture fx (fun f =>
    let rest := (List.range (f.ncrews - f.next)).map (fun i => f.next + i)
    { f with next := f.ncrews, doneCount := f.doneCount + rest.length,
             fails := rest.foldl (fun t i => tset { reason := 0, detail := 0 } t i { reason := reason, detail := detail }) f.fails })

/-! ## Returning from a handler or a vector (16 R422) -/

/-- eret_local: INH, the mask, S and the program counter are restored; the instruction there issues for RPM alone, and
with RPM empty it completes with no effect (`step` does both). `kill` is MODE KILL: each lane of sr.trapmask dies of the
cause that put it there. The trap counts go on where the instruction left them: a replay that faults again adds nothing
(16 R401). -/
def handlerReturn (s : State) (a : Nat) (retry kill : Bool) : State :=
  let t := s.team a
  let t := if kill then (lanes t.width t.trapmask).foldl (fun t l =>
      t.kill (oneLane l) (((t.causes.find? (fun x => x.1 == l)).map (·.2)).getD (Cause.ofCode t.trapcause))) t
    else t
  let rpm := if retry then t.frame.rpm ||| (t.trapmask &&& t.live) else t.frame.rpm
  s.setTeam a { t with
    frame := { t.frame with inh := false, rpm := 0 }
    active := t.frame.hmask &&& t.live &&& ~~~ t.exited
    pc := t.frame.hpc, sig := t.frame.sig, folded := t.frame.folded, replay := some (rpm &&& t.live),
    counted := t.frame.counted, block := [] }

end State

/-! ## The signature (00 R13, 07 R183, R187) -/

/-- One bit of crc24. -/
def crcBit (s : BitVec 24) (b : Bool) : BitVec 24 :=
  if s.getLsbD 23 != b then (s <<< 1) ^^^ 0x864CFB else s <<< 1

/-- crc24(s, w, n): bits n − 1 down to 0. -/
def crc24 (w : Nat) : Nat → BitVec 24 → BitVec 24
  | 0, s => s
  | n + 1, s => crc24 w n (crcBit s (w.testBit n))

/-- The fold of an instruction word. -/
def foldWord (s : BitVec 24) (w : Word96) : BitVec 24 := crc24 (w.toNat / 2 ^ 67) 29 s

/-! ## Slots and blocks (06 R136-R141, 07 R183-R188) -/

/-- The slot that a program counter names, and its block (06 R138). -/
def slotOf (pc : W64) : Nat := pc.toNat % 64
def blockOf (pc : W64) : W64 := pc - BitVec.ofNat 64 (pc.toNat % 64)

/-- The header of the block that the team runs; a team that holds no block reads as one in an unchecked block of five
slots. -/
def Team.header (t : Team) : Header := if t.block = [] then { slots := 5, sigx := false, zero := 0, sig := 0 } else blockHeader t.block

/-- The header says that `pc` is the last valid slot. -/
def Team.lastSlot (t : Team) (pc : W64) : Bool := decide (t.header.slots ≤ slotOf pc + 1)

/-- expect(e) (07 R183). -/
def Team.expect (t : Team) (e : DivEntry) : Mask := e.sm &&& t.live &&& ~~~ t.exited

/-- The team at another instruction: nothing is held of the last one, and RPM is empty after a replay (16 R422; log 12). -/
def Team.fresh (t : Team) : Team :=
  { t with
    folded := false, replay := none, counted := [], waiting := none
    frame := if t.replay.isSome then { t.frame with rpm := 0 } else t.frame }

/-- A move to a block by a branch, a join or a handler: S := 0 (07 R186). -/
def Team.goto (t : Team) (pc : W64) : Team := { t.fresh with pc := pc, sig := 0, block := [] }

/-- The implicit joins of 07 R184, over the stack `st`: a pending path runs, or the entry is popped. Answers the team
and whether a lane is active. -/
def Team.implicitJoin (t : Team) : List DivEntry → Team × Bool
  | [] => ({ t with active := 0, stack := [] }, false)
  | e :: st =>
    let pend := e.st = .pend ∧ (e.pm &&& t.live &&& ~~~ t.exited) ≠ 0
    if pend then
      ({ (t.goto e.pp) with active := e.pm, stack := { e with am := t.cur, pm := 0, st := .switched } :: st }, true)
    else if t.expect e ≠ 0 then ({ (t.goto e.j) with active := t.expect e, stack := st }, true)
    else t.implicitJoin st

/-- How an instruction ends. -/
inductive Flow where
  | seq                -- at the next slot
  | jump (pc : W64)    -- at slot 0 of another block
  | wait               -- it waits: `Team.waiting` says for what, and nothing of it is done but what the instruction says
  | gone               -- the agent's place was changed by the instruction itself
  deriving DecidableEq, Repr

/-- The place after the instruction at `pc` (06 R139, 07 R186). -/
def Team.move (t : Team) (pc : W64) (fl : Flow) : Team :=
  match fl with
  | .jump p => t.goto p
  | _ =>
    if t.lastSlot pc then
      { t.fresh with pc := blockOf pc + 64, sig := if t.header.sigx then 0 else t.sig, block := [] }
    else { t.fresh with pc := pc + 1 }

/-- The block that the team leaves through slot `pc` is checked, and S differs from SIG (07 R188). -/
def Team.sigBad (t : Team) (pc : W64) : Bool := t.lastSlot pc && t.header.sigx && t.sig != t.header.sig

/-- What a body answers: the state, the lanes that trapped with their causes, the lanes of a replayable stop with its
cause, WHERE and ACCESS, how the instruction ends, and the lanes whose data failed verification (03 R77). -/
structure Res where
  s : State
  k : Traps := []
  u : Mask := 0
  ucause : Cause := .pagef
  wher : Nat := 0
  acc : Nat := 0
  flow : Flow := .seq
  mac : Mask := 0

/-- Trapped lanes as a mask. -/
def trapMask (k : Traps) : Mask := maskOf (k.map (·.1))

/-- A trap of one cause in every lane of a mask. -/
def trapAll (w : Nat) (m : Mask) (c : Cause) : Traps := (lanes w m).map (fun l => (l, c))

namespace State

/-- The time of a power-fail handler is over (17 R433). -/
def pfOver (s : State) (a : Nat) : Bool :=
  decide ((s.team a).pfAt + 20000 ≤ s.clk.now) || decide (s.board.t0 + 100000 ≤ s.clk.now)

/-- A power-fail handler ends, and the team issues nothing more (17 R434). -/
def pfStop (s : State) (a : Nat) : State :=
  s.modTeam a (fun t => { t with run := .pfStopped, waiting := none, replay := none, block := [] })

/-- After any change of a team's masks at a boundary: the implicit joins of 07 R184, a handler without a live lane
(16 R403), or the end of the team or of its power-fail handler. -/
def settle (s : State) (a : Nat) : State :=
  let t := s.team a
  if t.cur ≠ 0 ∨ t.run = .ended ∨ t.run = .retired then s
  else
    let s := if t.frame.inh && !isThread a && t.run != .pfHandler then s.handlerReturn a false true else s
    let t := s.team a
    if t.cur ≠ 0 then s
    else
      let (t, runs) := t.implicitJoin t.stack
      if runs then s.setTeam a t
      else if t.run = .pfHandler then s.pfStop a
      else if isThread a then s.stopThread a
      else (s.setTeam a t).endTeam a

/-- SIGMIS of a team (07 R188). -/
def sigmisTeam (s : State) (a : Nat) (pc : W64) : State :=
  let live := (s.team a).live
  let s := (s.log 0x05 1 (s.worldOf a) (s.coreOf a) (s.eidOf a) pc).charge (.core (s.coreOf a)) 64
  if live = 0 then s.endTeam a
  else ((s.recordTrap a live .sigmis pc).killLanes a live .sigmis).endTeam a

/-! ## Control threads (02 R54, 16 R405, R408, R411) -/

/-- The result word of 02 R50. -/
def resWord (id status : Nat) : W64 := BitVec.ofNat 64 (id % 4096 + status * 2 ^ 16)

/-- A slot of an enclave. -/
def slotAt (s : State) (e k : Nat) : Slot := tget Slot.idle (s.enc e).slots k
def setSlot (s : State) (e k : Nat) (x : Slot) : State :=
  s.modEnc e (fun n => { n with slots := tset Slot.idle n.slots k x })

/-- The result of an ENENTER in the thread that issued it. -/
def enterResult (t : Team) (x : Slot) (e status : Nat) : Team :=
  (t.setdU x.retD (resWord e status)).setPredMask x.retPd.toNat t.cur (status = 0)

/-- The thread leaves its enclave: every register is cleared but s0 to s7, which are cleared too unless `keep`; the two
generators, which R54 does not save, hold the value of a cleared seed (07 R201, log 76). The state saved at the ENENTER
comes back, and the thread continues at the return point with the given status. -/
def leaveEnclave (s : State) (a : Nat) (keep : Bool) (status : Nat) : State :=
  let th := s.thread a
  let x := s.slotAt th.eid th.slot
  let inner := s.team a
  let outer := x.outer.getD Team.idle
  let low := (List.range 8).map (fun k => (k, if keep then inner.ureg k else 0))
  let outer := (low.foldl (fun t kv => t.setU kv.1 kv.2) outer).setRec 15 Rec.flat0
  let outer := { outer with
    badU := outer.badU ++ (if keep then inner.badU.filter (· < 8) else []), uwc := inner.uwc
    badSr := outer.badSr.filter (fun n => n != 0x11 && n != 0x14 && n != 0x1B && n != 0x20 && n != 0x21 && n != 0x22)
    srseed := Team.idle.srseed, amovGen := Team.idle.amovGen, tag := 0, sppass := 0, trapcause := 0, trappc := 0, trapmask := 0, causes := [] }
  let s := s.setTeam a (enterResult { outer with run := .running } x th.eid status)
  s.setThread a { th with eid := 0, slot := 0 }

/-- Asynchronous exit (02 R54): the enclave's state is sealed into the slot. -/
def aex (s : State) (a : Nat) : State :=
  let th := s.thread a
  let t := s.team a
  let x := s.slotAt th.eid th.slot
  let inner := { t with uwc := [], block := [] }
  ((s.leaveEnclave a false 0x0A).saveSlot th.eid th.slot inner).setSlot th.eid th.slot
    { x with entered := none, outer := none, inner := some inner }

/-- ENEXIT (02 R54). -/
def enexit (s : State) (a : Nat) : State :=
  let th := s.thread a
  let x := s.slotAt th.eid th.slot
  let s' := s.leaveEnclave a true 0
  s'.setSlot th.eid th.slot { x with entered := none, outer := none, inner := none }

/-! ## Eviction and suspension (16 R412, R413) -/

/-- A trap other than a replayable stop of a thread inside an enclave: it leaves by asynchronous exit, and the slot is
marked trapped, or killed by a machine check (16 R408, R411). -/
def slotTrap (s : State) (a : Nat) (pc : W64) (c : Cause) : State :=
  let th := s.thread a
  let s := (s.modTeam a (fun t => t.setTrap 1 pc c.code)).aex a
  let x := s.slotAt th.eid th.slot
  if c = .ue ∨ c = .sigmis then s.setSlot th.eid th.slot { x with killed := true, inner := none }
  else s.setSlot th.eid th.slot { x with trapped := some (c.code, pc), inner := none }

/-- A team, or a thread inside an enclave, is past the instruction at `pc`: as `leave`, which also serves the threads of the
operating system. -/
def leaveIn (s : State) (a : Nat) (pc : W64) : State :=
  let t := s.team a
  if t.sigBad pc then
    if isThread a then (s.log 0x05 0 (s.worldOf a) (s.coreOf a) (s.eidOf a) pc).slotTrap a pc .sigmis else s.sigmisTeam a pc
  else (s.setTeam a (t.move pc .seq)).settle a

/-- A team stops at its boundary: SLEEP and YIELD end (07 R210, 14 R375), a FENCE completes, the acknowledgements that it
waits for having come (14 R376, log 53), BAR and BARQ keep their arrival and wait on (14 R372), and every other wait has
had no effect and issues again, its walks no longer asked for. `lv` leaves the slot of what completes. -/
def pauseBy (lv : State → W64 → State) (s : State) (a : Nat) : State :=
  let s := s.dropWalks a
  let t := s.team a
  match t.waiting with
  | none => s
  | some w =>
    match w.instr with
    | .sleep i => lv ((s.setTeam a (t.setPredMask i.pd.toNat (t.en i.g) w.woken)).lateDeath a w) t.pc
    | .yield _ => lv (s.lateDeath a w) t.pc
    | .fence _ => lv (s.ackAll.lateDeath a w) t.pc
    | .bar _ | .barq _ => s
    | _ => s.setTeam a { t with waiting := none }

/-- A thread inside an enclave stops at its boundary and leaves by asynchronous exit. -/
def stepOut (s : State) (a : Nat) : State :=
  let s := pauseBy (fun s pc => s.leaveIn a pc) s a
  if (s.thread a).eid ≠ 0 then s.aex a else s

/-- One crew leaves its core, and its blob is sealed into its room. Its contents stay with it: they are what the blob holds
(log 15). -/
def evictOne (s : State) (n : Nat) : State :=
  let c := s.crew n
  if c.done || c.core.isNone then s
  else
    let s : State := (List.range c.nteams).foldl (fun (s : State) k => pauseBy (fun s pc => s.leaveIn (agentOf n k) pc) s (agentOf n k)) s
    (s.saveBlob n).modCrew n (fun c => { c with core := none, onRes := false, evictAt := s.clk.now })

/-- A crew is evicted, with its whole squad (16 R413). -/
def evict (s : State) (n : Nat) : State :=
  let c := s.crew n
  match c.squad with
  | none => s.evictOne n
  | some _ =>
    let all := s.crews.filter (fun x => x.2.fx == c.fx && x.2.squad == c.squad)
    let s := ((all.filter (fun x => x.2.done)).map (·.1)).foldl (fun (s : State) k => s.modCrew k (fun x => { x with core := none })) s
    ((all.filter (fun x => !x.2.done)).map (·.1)).foldl evictOne s

/-- TSAVE KIND 0 (16 R412): every resident crew is saved and nothing is placed until TREST. -/
def suspend (s : State) (p : Nat) : State :=
  let ns := (s.crews.filter (fun x => x.2.part == p && !x.2.done && x.2.core.isSome)).map (·.1)
  (ns.foldl evict s).modPart p (fun x => { x with suspended := true })

/-- The OS-fatal stop (16 R419). The reloaded operating system's threads start when it starts them (log 17). -/
def osFatal (s : State) : State :=
  let s := (s.parts.map (·.1)).foldl (fun (s : State) p => if (s.part p).cfg.isSome then (s.suspend p).modPart p (fun x => { x with osStop := true }) else s) s
  let s := (s.thr.filter (fun x => x.2.eid != 0)).foldl (fun (s : State) x => s.stepOut x.1) s
  let s := (s.parts.map (·.1)).foldl (fun (s : State) p => s.modPart p (fun x => { x with callQ := none, faultQ := none })) s
  let n := s.nextToken
  let ps := (List.range s.posts.length).zip s.posts |>.map (fun ip => { ip.2 with token := n + 1 + ip.1, posted := false })
  let s : State := { s with posts := ps, nextToken := n + ps.length }
  let s : State := ps.foldl (fun (s : State) p => match p.kind with
    | .call => s.modTeam p.agent (fun t => { t with token := p.token })
    | .team => s.modTeam p.agent (fun t => { t with token := p.token })
    | .engine op => { s with eng := { s.eng with
        tileOps := s.eng.tileOps.map (fun o => if o.id = op then { o with token := some p.token } else o)
        copyOps := s.eng.copyOps.map (fun o => if o.id = op then { o with token := some p.token } else o) } }
    | .thread => s) s
  (List.range 128).foldl (fun (s : State) a => if (s.thread a).monitor then s else s.setTeam a Team.idle) s

/-! ## Traps of control threads (16 R409, R411) -/

/-- Entry to the thread's vector; `cause` 0 is a notice. -/
def vectorEntry (s : State) (a : Nat) (pc : W64) (cause : BitVec 8) (vec : W64) : State :=
  s.modTeam a (fun t =>
    let t := { t with
      frame := { hpc := pc, hmask := t.active, rpm := 0, inh := true, sig := t.sig, folded := t.folded, counted := t.counted } }
    (t.goto vec).setTrap 1 pc cause)

/-- A trap or machine check of a thread outside every enclave. -/
def threadVector (s : State) (a : Nat) (pc : W64) (c : Cause) : State :=
  if (s.team a).frame.inh then (s.stopThread a).osFatal
  else match (s.thread a).vec with
    | none =>
      ((s.modTeam a (fun t => t.setTrap 1 pc c.code)).stopThread a).log 0x0E 0 (s.worldOf a) 0 0 (BitVec.ofNat 64 c.code.toNat)
    | some v => s.vectorEntry a pc c.code v

/-- The notice of a thread that left its enclave at a replayable stop (16 R405, R406). -/
def threadPost (s : State) (a : Nat) (c : Cause) (access wher : Nat) (pc : W64) : Post :=
  let th := s.thread a
  { token := 0, kind := .thread, agent := a, part := (s.enc th.eid).part, eid := th.eid, cause := c, access := access,
    pc := pc, fixid := 0xFFFFFFFF, crew := BitVec.ofNat 32 th.slot, team := 0, wher := noticeWhere c wher, posted := false }

/-- A trap of a control thread: the vector outside an enclave, an asynchronous exit inside (16 R405, R408, R411). -/
def threadTrap (s : State) (a : Nat) (pc : W64) (c : Cause) (access wher : Nat) : State :=
  let th := s.thread a
  if th.eid = 0 then s.threadVector a pc c
  else
    match c with
    | .pagef | .tagexh =>
      let s := s.modTeam a (fun t => t.setTrap 1 pc c.code)
      let post := s.threadPost a c access wher pc
      ((s.modTeam a (fun t => { t with replay := some 1, waiting := none })).aex a).addPost post
    | _ => s.slotTrap a pc c

/-- SIGMIS: the team's, or a machine check of the thread (07 R188, 16 R408). -/
def sigmis (s : State) (a : Nat) (pc : W64) : State :=
  if isThread a then (s.log 0x05 0 (s.worldOf a) (s.coreOf a) (s.eidOf a) pc).threadTrap a pc .sigmis 0 0
  else s.sigmisTeam a pc

/-- The instruction at `pc` is complete: the team leaves the slot, the block is compared when it ends, and the boundary
settles. -/
def leave (s : State) (a : Nat) (pc : W64) (fl : Flow) : State :=
  let t := s.team a
  if t.sigBad pc then s.sigmis a pc
  else (s.setTeam a (t.move pc fl)).settle a

/-- An agent stops at its boundary (`pauseBy`). -/
def pauseTeam (s : State) (a : Nat) : State := pauseBy (fun s pc => s.leave a pc .seq) s a

/-! ## Completing an instruction (16 R400-R404, R407) -/

/-- enter_handler(pc, u) (16 R403). `was` are the classes in which the instruction had been counted before this trap: a park of
it after the handler is counted, and only one that repeats an earlier park is not (16 R401). -/
def enterHandler (s : State) (a : Nat) (pc : W64) (k u : Mask) (traph : W64) (was : List Nat) : State :=
  s.modTeam a (fun t =>
    { (t.goto traph) with
      active := k
      frame := { hpc := pc, hmask := t.active, rpm := u, inh := true, sig := t.sig, folded := t.folded, counted := was } })

/-- The cause of the lowest-numbered trapped lane (16 R400). -/
def leadCause (w : Nat) (kl : Traps) : Cause :=
  ((kl.find? (fun x => x.1 == lowLane w (trapMask kl))).map (·.2)).getD .trap

/-- The lanes of K, each with its cause, under the fixture's trap policy, and whether the instruction ends there (16 R400,
R402, R403): a trap in a handler, or in a power-fail handler (17 R432), kills its lanes whatever the policy. A lane dies
of its own cause (18 R452). -/
def policy (s : State) (a : Nat) (pc : W64) (kl : Traps) (u : Mask) : State × Bool :=
  let k := trapMask kl
  let c := leadCause (s.team a).width kl
  let was := (s.team a).counted
  let s := (s.recordTrap a k c pc).modTeam a (fun t => { t with causes := kl })
  let d := (s.fixture (s.fxOf a)).desc
  if (s.team a).frame.inh ∨ (s.team a).run = .pfHandler then (s.killEach a kl, false)
  else if d.trapPol = 1 then (s.terminateFixture (s.fxOf a) 0x05 c.code, true)
  else if d.trapPol = 2 then (s.enterHandler a pc k u (BitVec.ofNat 64 d.traph) was, true)
  else (s.killEach a kl, false)

/-- finish(pc) of a team (16 R400). -/
def finishTeam (a : Nat) (pc : W64) (r : Res) : State :=
  let ue := trapMask (r.k.filter (fun x => x.2 == .ue))
  let kl := r.k.filter (fun x => x.2 != .ue)
  let k := trapMask kl
  let s := if ue ≠ 0 then r.s.ueDeath a pc ue r.mac else r.s
  let u := r.u &&& ~~~ k &&& ~~~ ue
  let (s, stop) := if k ≠ 0 then s.policy a pc kl u else (s, false)
  if stop then s
  else
    let u := u &&& (s.team a).live
    if u ≠ 0 then
      if (s.team a).run = .pfHandler then s.pfStop a else s.park a pc u r.ucause r.acc r.wher
    else match r.flow with
      | .gone => s
      | fl => s.leave a pc fl

/-- The instruction at `pc` of agent `a` has run its body. -/
def complete (a : Nat) (pc : W64) (r : Res) : State :=
  match r.flow with
  | .wait => r.s
  | fl =>
    if isThread a then
      match r.k with
      | (_, c) :: _ => r.s.threadTrap a pc c 0 0
      | [] =>
        if r.u ≠ 0 then r.s.threadTrap a pc r.ucause r.acc r.wher
        else match fl with
          | .gone => r.s
          | fl => r.s.leave a pc fl
    else finishTeam a pc r

end State
end Sys2Proof.Machine
end

