-- ==== Sys2Proof/Machine/Issue.lean ====
section
/-! DEFINITION. What every instruction of the opcode map shares at issue (06 R165, R166): availability, encoding, role and
privilege, the lanes of T, consumed uncorrectable sources (09 R239), the instructions a power-fail handler may not run
(17 R433), and the completion of 16 R400. A meaning is `issue` of a body. -/
namespace Sys2Proof.Machine

/-- Opcodes that control cores do not have (06 R169). -/
def simtOnly (op : Nat) : Bool :=
  (0x148 ≤ op && op ≤ 0x14C) || (0x153 ≤ op && op ≤ 0x158) || (0x1C0 ≤ op && op ≤ 0x1C8) || op == 0x205 || op == 0x206

/-- Opcodes marked "control only" (06 R169). -/
def threadOnly (op : Nat) : Bool := 0x286 ≤ op && op ≤ 0x28B

/-- Opcodes of level L1 (06 R169). -/
def levelOne (op : Nat) : Bool := op == 0x15B || op == 0x286 || op == 0x287 || (0x28C ≤ op && op ≤ 0x290)

/-- The roles that may issue an opcode (01 R25); `scalar` says that every operand is uniform, immediate or vz. -/
def roleOk (op : Nat) (scalar : Bool) : Role → Bool
  | .solo => true
  | .vx => !((0x153 ≤ op && op ≤ 0x157) || (0x159 ≤ op && op ≤ 0x15B) || (0x1C0 ≤ op && op ≤ 0x1C7))
  | .mx =>
    if (0x040 ≤ op && op ≤ 0x05B) || op == 0x064 then scalar
    else !((0x05C ≤ op && op ≤ 0x063) || (0x0C0 ≤ op && op ≤ 0x0DC) || (0x142 ≤ op && op ≤ 0x157) ||
      (0x159 ≤ op && op ≤ 0x15B) || op == 0x280)
  | .cp =>
    if (0x040 ≤ op && op ≤ 0x05B) || op == 0x064 then scalar
    else !((0x05C ≤ op && op ≤ 0x063) || (0x0C0 ≤ op && op ≤ 0x0DC) || (0x142 ≤ op && op ≤ 0x152) ||
      (0x1C0 ≤ op && op ≤ 0x1C7) || op == 0x280)

/-- What an instruction asks of the place where it issues. -/
structure Rule where
  guard : Guard
  scalar : Bool := false              -- its operands are all scalar (01 R25)
  ends : Bool := false                -- it must stand in the last valid slot (06 R140)
  ctx : Bool := true                  -- its encoding rules that need the crew, the ring or the record
  banned : Bool := false              -- a power-fail handler may not run it (17 R433)
  srcs : List (Operand × Nat) := []   -- its source operands, each with its number of registers
  first : Bool := false               -- all but the guard is read for the lowest lane of T alone (09 R241, R243)

/-- The issue checks of 06 R165 in their order. -/
def issueCheck (s : State) (a : Nat) (i : Instr) (r : Rule) : Option Cause :=
  let t := s.team a
  match opcode i with
  | none => none
  | some op =>
    if (isThread a && simtOnly op) || (!isThread a && threadOnly op) then some .illop
    else if !wellFormed i || (r.ends && !t.lastSlot t.pc) || !r.ctx then some .illenc
    else if !roleOk op r.scalar t.role then some .role
    else if levelOne op && s.levelOf a == .l0 then some .priv
    else none

/-- What an instruction reads beside the source operands of its rule: the operands whose index register it reads,
predicates beside the guard, index registers, record slots, special registers (with the two extra numbers of
`Team.badSr`), and whether it uses the tag in effect through the records it names (04 R87). -/
structure Reads where
  ops : List Operand := []
  preds : List Nat := []
  xs : List Nat := []
  recs : List Nat := []
  srs : List Nat := []
  tagged : Bool := false

/-- The reads of an R-format instruction with further predicates and special registers. -/
def readsR (a : RArgs) (preds srs : List Nat) : Reads := { ops := [a.d, a.a, a.b, a.c], preds := preds, srs := srs }

/-- A floating instruction reads its controls, and in mode SR the generator (08 R222, R228). -/
def readsF (a : RArgs) : Reads := readsR a [] (0x10 :: if a.rnd = .sr ∨ a.rnd = .dyn then [0x11] else [])

/-- A memory instruction reads its record and, with `tagged`, the tag in effect. -/
def readsM (a : MArgs) (tagged : Bool) : Reads := { ops := [a.d, a.a, a.b], recs := [a.br.toNat], tagged := tagged }

/-- The team state that each instruction reads beside its source operands (16 R407). -/
def Instr.reads : Instr → Reads
  | .pcmpi a => readsR a (if fnBits a.fn 16 2 = 0 then [] else [fnBits a.fn 12 4]) []
  | .pcmpf a => readsR a (if fnBits a.fn 16 2 = 0 then [] else [fnBits a.fn 12 4]) [0x10]
  | .plog a => readsR a [fnBits a.fn 4 4, fnBits a.fn 8 4] []
  | .pmovPack a => readsR a (List.range 16) []
  | .voteAll a | .voteAny a | .voteUni a | .voteBallot a | .voteCount a => readsR a [fnBits a.fn 3 4] []
  | .iadd a | .isub a => readsR a (if fnBits a.fn 8 1 = 1 then [fnBits a.fn 4 4] else []) []
  | .sel a => readsR a [fnBits a.fn 0 4] []
  | .idiv a | .irem a => readsR a [] [0x10]
  | .xadd a | .xget a => { readsR a [] [] with xs := [fnBits a.fn 0 3] }
  | .fadd a | .fsub a | .fmul a | .ffma a | .fmin a | .fmax a | .frcp a | .frsq a | .fsqrt a | .fdiv a | .fexp2 a
  | .flog2 a | .fsin a | .fcos a | .ftanh a | .hadd2 a | .hmul2 a | .hfma2 a | .hmin2 a | .hmax2 a | .dadd a | .dmul a
  | .dfma a | .cvt a | .cvtpk a | .frnd a | .fscl a | .fdot2 a => readsF a
  | .pmovUnpack a | .pmovSet a | .mov a | .imul a | .imulh a | .imad a | .imin a | .imax a | .iabs a | .lop3 a | .and a
  | .or a | .xor a | .not a | .shl a | .shr a | .sar a | .rotl a | .funsh a | .bfx a | .bfi a | .popc a | .clz a
  | .brev a | .idot4 a | .prmt a | .xset a | .shfl a | .redux a | .scan a | .matchLanes a | .fclass a => readsR a [] []
  | .movi a | .moviHi a => { ops := [a.d] }
  | .ld a | .st a | .atom a | .atomc a | .red a | .pref a | .pin a | .unpin a | .cinv a | .cflush a => readsM a true
  | .ldx a | .icinv a => readsM a false
  | .lds a | .sts a | .atoms a | .ldq a | .stq a => { ops := [a.d, a.a, a.b] }
  | .tfill a | .tdrain a | .tmcast a => { recs := [a.br.toNat], tagged := true }
  | .cpyt a | .cpyz a => { recs := [a.br.toNat, fnBits a.tfn 0 4], tagged := true }
  | .amov a | .amovTile a => { ops := [a.d], srs := [0x10, 0x11] }
  | .brget a => { recs := [fnBits a.sfn 0 4] }
  | .rdsr a => { srs := [fnBits a.sfn 0 8] }
  | .msdecl _ => { srs := [0x14] }
  | .msdeclRec a => { recs := [fnBits a.sfn 1 4], tagged := true }
  | .tagget _ => { srs := [0x14] }
  | .bra _ | .brx _ | .join _ => { srs := [0x100] }
  | .eretRetry _ | .eretSkip _ | .eretKill _ => { srs := [0x20, 0x22, 0x101] }
  | _ => {}

/-- A source register of lane `l` holds uncorrectable data (16 R407): a uniform source is the registers named, a
per-lane one those that the lane's operand resolves to (09 R240). -/
def Team.badSrc (t : Team) (l : Nat) (src : Operand × Nat) : Bool :=
  match src.1 with
  | .s r => (List.range src.2).any (fun j => t.badU.contains (r.toNat + j))
  | .imm _ => false
  | o =>
    match t.regOf l src.2 (rangeAl src.2) o with
    | .ok (some r) => (List.range src.2).any (fun j => t.badV.contains (l * 256 + r + j))
    | _ => false

/-- The index register of an operand holds uncorrectable data in lane `l`. -/
def Team.badIdx (t : Team) (l : Nat) : Operand → Bool
  | .idx k _ => t.badX.contains (l * 8 + k.toNat)
  | _ => false

/-- No register holds uncorrectable data. -/
def Team.sound (t : Team) : Bool :=
  t.badU.isEmpty && t.badV.isEmpty && t.badX.isEmpty && t.badP.isEmpty && t.badR.isEmpty && t.badSr.isEmpty

/-- Team state that the instruction reads for every lane holds uncorrectable data. -/
def Team.badShared (t : Team) (e : Reads) : Bool :=
  e.recs.any (fun b => t.badR.contains b || (e.tagged && (t.rslot b).tagm != 2 && t.badSr.contains 0x14)) ||
  e.srs.any (fun n => t.badSr.contains n)

/-- The lanes of `m` that consume uncorrectable data: those whose own registers, index registers or predicates do, and
all of them for an error in state of the team (16 R407). An instruction that reads for the lowest lane of T alone reads the
guards of all of them. A lane outside T, whose guard bit reads false, has consumed nothing, be that bit uncorrectable (DESIGN
CHOICE, log 75). -/
def Team.ueLanes (t : Team) (m : Mask) (i : Instr) (r : Rule) : List Nat :=
  if t.sound then []
  else
    let e := Instr.reads i
    let ls := lanes t.width m
    let own := fun (l : Nat) =>
      r.srcs.any (fun x => t.badSrc l x) || (e.ops ++ r.srcs.map (·.1)).any (fun o => t.badIdx l o) ||
      e.preds.any (fun k => t.badP.contains (l * 16 + k)) || e.xs.any (fun k => t.badX.contains (l * 8 + k))
    if t.badShared e then ls
    else ls.filter (fun l => t.badP.contains (l * 16 + r.guard.p.toNat) || ((!r.first || ls.head? == some l) && own l))

/-- What a body is given: the agent, the program counter, the team before the instruction, T without the lanes that
consumed uncorrectable data, and T itself, to which those lanes belong until the boundary after it (07 R210). -/
structure Ctx where
  a : Nat
  pc : W64
  t : Team
  m : Mask
  all : Mask

/-- The lanes of T in increasing order. -/
def Ctx.ls (c : Ctx) : List Nat := lanes c.t.width c.m

/-- Issue of instruction `i` by the current agent. A lane that consumes uncorrectable data dies of it and takes no other trap of
the instruction (DESIGN CHOICE, log 75). When an instruction that reads for the lowest lane of T alone meets an error there,
it writes nothing. -/
def issue (i : Instr) (r : Rule) (s : State) (body : Ctx → Res) : State :=
  let a := s.cur
  let t := s.team a
  match issueCheck s a i r with
  | some c => State.complete a t.pc { s := s, k := trapAll t.width t.cur c }
  | none =>
    let m := t.en r.guard
    let ue := t.ueLanes m i r
    let n := if r.first && ue.contains (lowLane t.width m) then 0 else m &&& ~~~ maskOf ue
    let res := if r.banned && t.run == .pfHandler then { s := s, k := trapAll t.width n .perm }
      else body { a := a, pc := t.pc, t := t, m := n, all := m }
    State.complete a t.pc { res with k := ue.map (fun l => (l, .ue)) ++ res.k.filter (fun x => !ue.contains x.1) }

/-- A body that answers a team and its trapped lanes. -/
def Ctx.done (c : Ctx) (s : State) (r : Team × Traps) : Res := { s := s.setTeam c.a r.1, k := r.2 }

/-- A per-lane instruction with a destination operand: `f` gives each lane's result. -/
def Ctx.perLane (c : Ctx) (s : State) (d : Operand) (wide : Bool) (f : Nat → Except Cause LaneRes) : Res :=
  c.done s (runLanes c.t c.m d wide f)

/-- An instruction that acts once for the team when at least one lane is enabled. -/
def Ctx.once (c : Ctx) (s : State) (f : Unit → Res) : Res := if c.m = 0 then { s := s } else f ()

/-- A trap in every lane of T. -/
def Ctx.trap (c : Ctx) (s : State) (x : Cause) : Res := { s := s, k := trapAll c.t.width c.m x }

/-- A wait that begins now. -/
def State.newWait (s : State) (a : Nat) (i : Instr) (until_ : Nat) (stack : Option Nat) (lives : Option (List (Nat × Nat))) :
    Waiting :=
  { instr := i, cycles := s.mcyc a, until_ := until_, woken := false, stack := stack, lives := lives, seq := s.nextWait,
    walked := false, ue := 0 }

/-- The team waits, with the lanes that are to die when it ends (07 R210); a wait that begins takes the next place in the order
of waits. -/
def Ctx.waitAs (c : Ctx) (s : State) (w : Waiting) : Res :=
  { s := { s.modTeam c.a (fun t => { t with waiting := some { w with ue := c.all &&& ~~~ c.m } }) with
      nextWait := if c.t.waiting.isSome then s.nextWait else s.nextWait + 1 }, flow := .wait }

/-- The instruction begins or goes on to wait: `until_` is for SLEEP and YIELD, `stack` for a cell slot, whose budget
counts that wait alone (04 R95), and `lives` the lives of the tags when its access began to wait (04 R101). -/
def Ctx.wait (c : Ctx) (s : State) (i : Instr) (until_ : Nat) (stack : Option Nat) (lives : Option (List (Nat × Nat)) := none) :
    Res :=
  c.waitAs s (match c.t.waiting with
    | some w => { w with woken := false, stack := stack, lives := w.lives <|> lives,
                         cycles := if w.stack.isSome == stack.isSome then w.cycles else s.mcyc c.a }
    | none => s.newWait c.a i until_ stack lives)

/-- A meaning: the next state of an issue. -/
def issues (i : Instr) (r : Rule) (s : State) (body : Ctx → Res) : Host.Outcome State Fault Refusal :=
  .next (issue i r s body)

/-! ## Rules of the formats -/

/-- An operand with the registers that it names: one uniform register holds a whole value (06 R157). -/
def srcN (o : Operand) (n : Nat) : Operand × Nat := (o, if o.isUni then 1 else n)

/-- The sources of an R-format instruction whose operands A, B and C have these numbers of registers. -/
def ruleR (a : RArgs) (na nb nc : Nat) : Rule :=
  { guard := a.g, scalar := a.d.isScalar && a.a.isScalar && a.b.isScalar && a.c.isScalar,
    srcs := [srcN a.a na, srcN a.b nb, srcN a.c nc] }

/-- A rule that only names the guard. -/
def ruleS (a : SArgs) : Rule := { guard := a.g, srcs := [(a.a, 1), (a.b, 1)] }

end Sys2Proof.Machine
end

