-- ==== Sys2Proof/Machine/Control.lean ====
section
/-! DEFINITION. Issue, divergence and control instructions (07 R190-R209): branches, joins, special registers, timing,
predicates and votes. -/
namespace Sys2Proof.Machine

/-! ## Branches and paths (07 R182-R196) -/

/-- A displacement in blocks from the instruction's own block. -/
def blockTarget (pc : W64) (disp : W32) : W64 := blockOf pc + BitVec.ofInt 64 (64 * disp.toInt)

/-- The target of BRX and CALLX. -/
def regTarget (t : Team) (a : Operand) (disp : W32) : W64 := t.opndU a + BitVec.ofInt 64 (64 * disp.toInt)

/-- F: the active live lanes outside T (07 R180). A lane of T that consumed uncorrectable data is of T until the boundary
after the instruction (07 R210). -/
def Ctx.f (c : Ctx) : Mask := c.t.cur &&& ~~~ c.all

/-- A target is no block address. -/
def misaligned (p : W64) : Bool := p.toNat % 64 != 0

/-- DIVSTK in every active live lane (07 R185). -/
def Ctx.divstk (c : Ctx) (s : State) : Res := { s := s, k := trapAll c.t.width c.t.cur .divstk }

/-- divbranch(target) (07 R182). -/
def divBranch (c : Ctx) (s : State) (target : W64) : Res :=
  if c.all = 0 then { s := s }
  else if misaligned target then c.trap s .alignb
  else if c.f = 0 then { s := s, flow := .jump target }
  else match c.t.stack with
    | [] => c.divstk s
    | e :: st =>
      if e.st = .switched ∨ (e.st = .pend ∧ e.pp ≠ target) then c.divstk s
      else { s := s.setTeam c.a { c.t with active := c.f, stack := { e with pm := e.pm ||| c.all, pp := target, st := .pend } :: st } }

/-- call(target) and ret(target) (07 R193); the link is written for the lanes of T that go on. -/
def wholePath (c : Ctx) (s : State) (target : W64) (link : Operand) : Res :=
  if c.all = 0 then { s := s }
  else if c.f ≠ 0 then c.divstk s
  else if misaligned target then c.trap s .alignb
  else { s := if c.m = 0 then s else s.setTeam c.a (c.t.setdU link (blockOf c.pc + 64)), flow := .jump target }

/-- NOP (R198). -/
def execNop (a : SArgs) (s : State) : Host.Outcome State Fault Refusal :=
  issues (.nop a) (ruleS a) s (fun _ => { s := s })

/-- BRA (R192). -/
def execBra (a : BArgs) (s : State) : Host.Outcome State Fault Refusal :=
  issues (.bra a) { guard := a.g } s (fun c => divBranch c s (blockTarget c.pc a.disp))

/-- BRX (R192). -/
def execBrx (a : BArgs) (s : State) : Host.Outcome State Fault Refusal :=
  issues (.brx a) { guard := a.g, srcs := [(a.a, 1)] } s (fun c => divBranch c s (regTarget c.t a.a a.disp))

/-- CALL (R193). -/
def execCall (a : BArgs) (s : State) : Host.Outcome State Fault Refusal :=
  issues (.call a) { guard := a.g, ends := true } s (fun c => wholePath c s (blockTarget c.pc a.disp) a.d)

/-- CALLX (R193). -/
def execCallx (a : BArgs) (s : State) : Host.Outcome State Fault Refusal :=
  issues (.callx a) { guard := a.g, ends := true, srcs := [(a.a, 1)] } s
    (fun c => wholePath c s (regTarget c.t a.a a.disp) a.d)

/-- RET (R193). -/
def execRet (a : BArgs) (s : State) : Host.Outcome State Fault Refusal :=
  issues (.ret a) { guard := a.g, srcs := [(a.a, 1)] } s (fun c => wholePath c s (c.t.opndU a.a) .vz)

/-- SPLIT (R194). -/
def execSplit (a : BArgs) (s : State) : Host.Outcome State Fault Refusal :=
  issues (.split a) { guard := a.g } s (fun c =>
    if 32 ≤ c.t.stack.length then c.divstk s
    else
      let e : DivEntry := { sm := c.t.cur, j := blockTarget c.pc a.disp, st := .opened, pm := 0, pp := 0, am := 0 }
      { s := s.setTeam c.a { c.t with stack := e :: c.t.stack } })

/-- join() of a team with top entry `e` over `st`, with the fold of its bit: the team and the block where it goes on. -/
def joinTop (t : Team) (e : DivEntry) (st : List DivEntry) : Team × W64 :=
  if e.st = .pend then
    let ok := (t.cur ||| e.pm) = t.expect e
    ({ t with sig := crcBit t.sig ok, active := e.pm,
              stack := { e with am := t.cur, pm := 0, st := .switched } :: st }, e.pp)
  else
    let ok := (e.am ||| t.cur) = t.expect e
    ({ t with sig := crcBit t.sig ok, active := t.expect e, stack := st }, e.j)

/-- JOIN (R183, R195). -/
def execJoin (a : BArgs) (s : State) : Host.Outcome State Fault Refusal :=
  issues (.join a) { guard := a.g, ends := true } s (fun c =>
    match c.t.stack with
    | [] => c.divstk s
    | e :: st => { s := s.setTeam c.a (joinTop c.t e st).1, flow := .jump (joinTop c.t e st).2 })

/-- EXIT (R196): on a control core it acts as ENEXIT inside an enclave and stops the thread outside. -/
def execExit (a : BArgs) (s : State) : Host.Outcome State Fault Refusal :=
  issues (.exit a) { guard := a.g } s (fun c =>
    c.once s (fun _ =>
      if isThread c.a then
        { s := if c.t.sigBad c.pc then s.sigmis c.a c.pc
               else if (s.thread c.a).eid ≠ 0 then s.enexit c.a else s.stopThread c.a, flow := .gone }
      else { s := s.setTeam c.a { c.t.remove c.m with exited := c.t.exited ||| c.m } }))

/-! ## Timing and special registers (07 R197-R203, 06 R161) -/

/-- YIELD (R199): no issue slot for CYC cycles. -/
def execYield (a : SArgs) (s : State) : Host.Outcome State Fault Refusal :=
  issues (.yield a) (ruleS a) s (fun c =>
    c.once s (fun _ =>
      if fnBits a.sfn 0 10 = 0 then { s := s }
      else c.wait s (.yield a) (s.mcyc c.a + 1000 * fnBits a.sfn 0 10) none))

/-- YIELD_END (R199): the cycles have passed. -/
def execYieldEnd (agent : Nat) (s : State) : Host.Outcome State Fault Refusal :=
  let t := s.team agent
  .next (match t.waiting with
    | some w =>
      match w.instr with
      | .yield _ =>
        if w.until_ ≤ s.mcyc agent then ((s.setTeam agent { t with since := s.mcyc agent }).lateDeath agent w).leave agent t.pc .seq
        else s
      | _ => s
    | none => s)

/-- sr.wswin at time `now` (11 R298). -/
def wswinAt (now : Nat) : W32 :=
  let k := now / 4000
  let inwin := if now % 4000 < 400 then 2 ^ (k % 8) else 0
  BitVec.ofNat 32 (inwin + (k + 1) % 8 * 2 ^ 8 + (4000 - now % 4000) * 2 ^ 16)

/-- sr.role (06 R161). -/
def Role.word : Role → W64
  | .solo => 0 | .vx => 4 | .mx => 5 | .cp => 6

/-- A special register for lane `l` (06 R161); `w` selects a mask word. -/
def State.special (s : State) (a l num w : Nat) : W64 :=
  let t := s.team a
  let th := isThread a
  let c := s.crew (crewNo a)
  match num with
  | 0x00 => BitVec.ofNat 64 l
  | 0x01 => if th then 0 else BitVec.ofNat 64 (teamNo a)
  | 0x02 => if th then 0xFFFFFFFF else BitVec.ofNat 64 c.rank
  | 0x03 => if th then 0xFFFFFFFF else match c.squad with | some k => BitVec.ofNat 64 k | none => 0xFFFFFFFF
  | 0x04 => if th then 0xFFFFFFFF else (s.fixture c.fx).fid.setWidth 64
  | 0x05 => BitVec.ofNat 64 (s.coreOf a)
  | 0x06 => BitVec.ofNat 64 (s.clusterOf a)
  | 0x07 => BitVec.ofNat 64 t.width
  | 0x08 => (maskWord t.live w).setWidth 64
  | 0x09 => Role.word t.role
  | 0x0A => if 4 ≤ s.worldOf a then BitVec.ofNat 64 (s.partOf a) else 0xFFFFFFFF
  | 0x0B => BitVec.ofNat 64 (s.eidOf a)
  | 0x10 => t.fpmode.setWidth 64
  | 0x11 => t.srseed.setWidth 64
  | 0x12 => t.fpflags.setWidth 64
  | 0x13 => t.devflags.setWidth 64
  | 0x14 => t.tag.setWidth 64
  | 0x18 => s.cycle a
  | 0x19 => BitVec.ofNat 64 s.clk.ptp
  | 0x1A => if th then 0 else (wswinAt s.clk.now).setWidth 64
  | 0x1B => t.sppass
  | 0x20 => t.trapcause.setWidth 64
  | 0x21 => t.trappc
  | 0x22 => (maskWord t.trapmask w).setWidth 64
  | 0x28 => BitVec.ofNat 64 t.regs
  | 0x29 => BitVec.ofNat 64 t.uwc.length
  | _ => 0

/-- The register is 64 bits wide. -/
def srWide (num : Nat) : Bool := ((srInfo num).map (·.1)).getD false

/-- RDSR (R200). -/
def execRdsr (a : SArgs) (s : State) : Host.Outcome State Fault Refusal :=
  issues (.rdsr a) (ruleS a) s (fun c =>
    let num := fnBits a.sfn 0 8
    c.perLane s a.d (srWide num) (fun l => .ok { val := s.special c.a l num (fnBits a.sfn 8 5) }))

/-- The tag may become sr.tag: 0, or LIVE and owned by the enclave (04 R105). -/
def State.tagMine (s : State) (a : Nat) (tag : BitVec 16) : Bool :=
  tag == 0 || (tag != 0xFFFF && (tget .free (s.part (s.partOf a)).tags tag.toNat).liveIn == some (s.eidOf a))

/-- TAGSET (04 R102, R103, R105), also of WRSR to sr.tag. -/
def tagSet (c : Ctx) (s : State) (v : W64) : Res :=
  let tag : BitVec 16 := v.setWidth 16
  if s.eidOf c.a = 0 then c.trap s .perm
  else if !s.tagMine c.a tag then c.trap s .tagbad
  else { s := s.setTeam c.a { c.t with tag := tag } }

/-- A write to a special register other than sr.tag (R201, 08 R224, R228, R229). -/
def Team.writeSpecial (t : Team) (num : Nat) (v : W32) : Team :=
  match num with
  | 0x10 => { t with fpmode := v &&& 0xFF3F }
  | 0x11 =>
    let g : W32 := if v = 0 then 0x25450000 + 0xF491 else v
    { t with srseed := g, amovGen := g }
  | 0x12 => { t with fpflags := v &&& 0x7F }
  | 0x13 => { t with devflags := v &&& 0x3F }
  | _ => t

/-- WRSR (R201). -/
def execWrsr (a : SArgs) (s : State) : Host.Outcome State Fault Refusal :=
  issues (.wrsr a) (ruleS a) s (fun c =>
    c.once s (fun _ =>
      let v := c.t.opndU a.a
      if fnBits a.sfn 0 8 = 0x14 then tagSet c s v
      else { s := s.setTeam c.a (c.t.writeSpecial (fnBits a.sfn 0 8) (v.setWidth 32)) }))

/-- CLOCK (R202): every earlier instruction and access is complete in this model (log 2), so DRAIN waits for nothing. -/
def execClock (a : SArgs) (s : State) : Host.Outcome State Fault Refusal :=
  issues (.clock a) (ruleS a) s (fun c =>
    c.once s (fun _ =>
      let v := if fnBits a.sfn 0 1 = 0 then s.cycle c.a else BitVec.ofNat 64 s.clk.ptp
      { s := s.setTeam c.a (c.t.setdU a.d v) }))

/-- BPT (R203). -/
def execBpt (a : SArgs) (s : State) : Host.Outcome State Fault Refusal :=
  issues (.bpt a) (ruleS a) s (fun c => c.trap s .bpt)

/-! ## Predicates (07 R204-R208) -/

/-- bop of BOP 1 to 3. -/
def boolOp (bop : Nat) (r q : Bool) : Bool :=
  match bop with
  | 1 => r && q
  | 2 => r || q
  | _ => r != q

/-- The predicate writes of compare() (R204) for relation `r` in lane `l`. -/
def cmpWrites (t : Team) (fn : BitVec 20) (l : Nat) (r : Bool) : List (Nat × Bool) :=
  let q := t.predLane (fnBits fn 12 4) l != (fnBits fn 18 1 == 1)
  let bop := fnBits fn 16 2
  let r1 := if bop = 0 then r else boolOp bop r q
  let r2 := if bop = 0 then !r else boolOp bop (!r) q
  [(fnBits fn 4 4, r1), (fnBits fn 8 4, r2)]

/-- The relations of R205. -/
def relInt (cmp : Nat) (a b : Int) : Bool :=
  match cmp with
  | 0 => a == b
  | 1 => a != b
  | 2 => decide (a < b)
  | 3 => decide (a ≤ b)
  | 4 => decide (b < a)
  | _ => decide (b ≤ a)

/-- PCMPI (R205). -/
def execPcmpi (a : RArgs) (s : State) : Host.Outcome State Fault Refusal :=
  issues (.pcmpi a) (ruleR a (if a.ty.wide then 2 else 1) (if a.ty.wide then 2 else 1) 1) s (fun c =>
    c.perLane s .vz false (fun l => do
      let x ← c.t.rdData l a.ty.wide a.a
      let y ← c.t.rdData l a.ty.wide a.b
      .ok { pw := cmpWrites c.t a.fn l (relInt (fnBits a.fn 0 4) (Ty.intVal a.ty x.toNat) (Ty.intVal a.ty y.toNat)) }))

/-- The relations of R206 on two values; CMP 8 to 13 also hold for a NaN. -/
def relFlt (cmp : Nat) (a b : FV) : Bool :=
  let nan := a.isNan || b.isNan
  let lt := a.lt false b
  let gt := b.lt false a
  let base := fun k : Nat =>
    match k with
    | 0 => !lt && !gt
    | 1 => lt || gt
    | 2 => lt
    | 3 => !gt
    | 4 => gt
    | _ => !lt
  match cmp with
  | 6 => !nan
  | 7 => nan
  | 1 => nan || base 1
  | k => if 8 ≤ k then nan || base (k - 8) else !nan && base k

/-- PCMPF (R206). -/
def execPcmpf (a : RArgs) (s : State) : Host.Outcome State Fault Refusal :=
  issues (.pcmpf a) (ruleR a (if a.ty.wide then 2 else 1) (if a.ty.wide then 2 else 1) 1) s (fun c =>
    c.perLane s .vz false (fun l => do
      let x ← c.t.rdData l a.ty.wide a.a
      let y ← c.t.rdData l a.ty.wide a.b
      let p := fsrc a.ty a.ftzi a.na a.aa (x.toNat % 2 ^ a.ty.bits)
      let q := fsrc a.ty a.ftzi a.nb a.ab (y.toNat % 2 ^ a.ty.bits)
      let u := Ty.val a.ty p.pat
      let v := Ty.val a.ty q.pat
      let cmp := fnBits a.fn 0 4
      let quiet := (u.isNan || v.isNan) && 2 ≤ cmp && cmp ≤ 5
      .ok { pw := cmpWrites c.t a.fn l (relFlt cmp u v), fl := p.fl ||| q.fl ||| flagIf quiet fIV }))

/-- PLOG (R207). -/
def execPlog (a : RArgs) (s : State) : Host.Outcome State Fault Refusal :=
  issues (.plog a) (ruleR a 1 1 1) s (fun c =>
    c.perLane s .vz false (fun l =>
      let i := (if c.t.predLane (fnBits a.fn 4 4) l then 2 else 0) + (if c.t.predLane (fnBits a.fn 8 4) l then 1 else 0)
      let r := (fnBits a.fn 16 4).testBit i
      .ok { pw := [(fnBits a.fn 0 4, r), (fnBits a.fn 12 4, !r)] }))

/-- PMOV.pack (R208). -/
def execPmovPack (a : RArgs) (s : State) : Host.Outcome State Fault Refusal :=
  issues (.pmovPack a) (ruleR a 1 1 1) s (fun c =>
    c.perLane s a.d false (fun l =>
      .ok { val := BitVec.ofNat 64 (((List.range 16).map (fun k => if c.t.predLane k l then 2 ^ k else 0)).sum) }))

/-- The predicates that MASK selects (R208). -/
def maskPreds (fn : BitVec 20) : List Nat := (List.range 16).filter (fun k => 1 ≤ k && (fnBits fn 3 15).testBit (k - 1))

/-- PMOV.unpack (R208). -/
def execPmovUnpack (a : RArgs) (s : State) : Host.Outcome State Fault Refusal :=
  issues (.pmovUnpack a) (ruleR a 1 1 1) s (fun c =>
    c.perLane s .vz false (fun l => do
      let x ← c.t.rd32 l a.a
      .ok { pw := (maskPreds a.fn).map (fun k => (k, x.getLsbD k)) }))

/-- PMOV.set0 and PMOV.set1 (R208). -/
def execPmovSet (a : RArgs) (s : State) : Host.Outcome State Fault Refusal :=
  issues (.pmovSet a) (ruleR a 1 1 1) s (fun c =>
    c.perLane s .vz false (fun _ => .ok { pw := (maskPreds a.fn).map (fun k => (k, fnBits a.fn 2 1 == 1)) }))

/-! ## Votes (07 R209) -/

/-- The lanes of T whose vote is 1. -/
def Ctx.ayes (c : Ctx) (fn : BitVec 20) : Mask :=
  let p := c.t.pred (fnBits fn 3 4)
  c.m &&& (if fnBits fn 7 1 = 1 then ~~~ p else p)

/-- A vote that writes one predicate. -/
def votePred (c : Ctx) (s : State) (fn : BitVec 20) (r : Bool) : Res :=
  c.perLane s .vz false (fun _ => .ok { pw := [(fnBits fn 8 4, r)] })

/-- VOTE.all (R209). -/
def execVoteAll (a : RArgs) (s : State) : Host.Outcome State Fault Refusal :=
  issues (.voteAll a) (ruleR a 1 1 1) s (fun c => votePred c s a.fn (c.ayes a.fn = c.m))

/-- VOTE.any (R209). -/
def execVoteAny (a : RArgs) (s : State) : Host.Outcome State Fault Refusal :=
  issues (.voteAny a) (ruleR a 1 1 1) s (fun c => votePred c s a.fn (c.ayes a.fn ≠ 0))

/-- VOTE.uni (R209). -/
def execVoteUni (a : RArgs) (s : State) : Host.Outcome State Fault Refusal :=
  issues (.voteUni a) (ruleR a 1 1 1) s (fun c => votePred c s a.fn (c.ayes a.fn = c.m ∨ c.ayes a.fn = 0))

/-- VOTE.ballot (R209). -/
def execVoteBallot (a : RArgs) (s : State) : Host.Outcome State Fault Refusal :=
  issues (.voteBallot a) (ruleR a 1 1 1) s (fun c =>
    let v := c.ayes a.fn
    c.perLane s a.d false (fun l =>
      let w := if fnBits a.fn 17 1 = 1 then l / 32 else fnBits a.fn 12 5
      .ok { val := (maskWord v w).setWidth 64 }))

/-- VOTE.count (R209). -/
def execVoteCount (a : RArgs) (s : State) : Host.Outcome State Fault Refusal :=
  issues (.voteCount a) (ruleR a 1 1 1) s (fun c =>
    let n := popMask c.t.width (c.ayes a.fn)
    c.perLane s a.d false (fun _ => .ok { val := BitVec.ofNat 64 n }))

end Sys2Proof.Machine
end

