-- ==== Sys2Proof/Machine/Integer.lean ====
section
/-! DEFINITION. The integer, logical and index-register instructions (09 R234-R255). -/
namespace Sys2Proof.Machine

/-! ## Shared forms -/

/-- Registers of a data operand of the type. -/
def nReg (t : Ty) : Nat := if t.wide then 2 else 1

/-- val(X, l) (09 R235). -/
def Team.opI (t : Team) (l : Nat) (ty : Ty) (o : Operand) : Except Cause Int :=
  (t.rdData l ty.wide o).map (fun v => Ty.intVal ty v.toNat)

/-- A pattern of the type's width. -/
def Team.opP (t : Team) (l : Nat) (ty : Ty) (o : Operand) : Except Cause Nat :=
  (t.rdData l ty.wide o).map (fun v => v.toNat % 2 ^ ty.bits)

/-- sat(e, TYPE) or wrap(e, n) as a lane's result (09 R235, R238). -/
def intRes (ty : Ty) (sat : Bool) (e : Int) : LaneRes :=
  { val := Ty.extend ty (narrow ty sat e).pat, fl := (narrow ty sat e).fl }

/-- A bit pattern as a lane's result. -/
def patRes (ty : Ty) (p : Nat) : LaneRes := { val := Ty.extend ty (p % 2 ^ ty.bits) }

/-- An instruction of one data source. -/
def int1 (i : Instr) (a : RArgs) (s : State) (f : Int → Except Cause LaneRes) : Host.Outcome State Fault Refusal :=
  issues i (ruleR a (nReg a.ty) 1 1) s (fun c => c.perLane s a.d a.ty.wide (fun l => do
    f (← c.t.opI l a.ty a.a)))

/-- An instruction of two data sources. -/
def int2 (i : Instr) (a : RArgs) (s : State) (f : Int → Int → Except Cause LaneRes) : Host.Outcome State Fault Refusal :=
  issues i (ruleR a (nReg a.ty) (nReg a.ty) 1) s (fun c => c.perLane s a.d a.ty.wide (fun l => do
    f (← c.t.opI l a.ty a.a) (← c.t.opI l a.ty a.b)))

/-- A bit instruction of one data source and a control operand in B. -/
def bit2 (i : Instr) (a : RArgs) (s : State) (f : Nat → Nat → Nat) : Host.Outcome State Fault Refusal :=
  issues i (ruleR a (nReg a.ty) 1 1) s (fun c => c.perLane s a.d a.ty.wide (fun l => do
    let x ← c.t.opP l a.ty a.a
    let y ← c.t.rd32 l a.b
    .ok (patRes a.ty (f x y.toNat))))

/-- A bit instruction of two data sources. -/
def log2 (i : Instr) (a : RArgs) (s : State) (f : Nat → Nat → Nat) : Host.Outcome State Fault Refusal :=
  issues i (ruleR a (nReg a.ty) (nReg a.ty) 1) s (fun c => c.perLane s a.d a.ty.wide (fun l => do
    let x ← c.t.opP l a.ty a.a
    let y ← c.t.opP l a.ty a.b
    .ok (patRes a.ty (f x y))))

/-! ## Move and select (R241) -/

/-- MOV (R241): with FIRST, D receives A of the lowest lane of T. -/
def execMov (a : RArgs) (s : State) : Host.Outcome State Fault Refusal :=
  issues (.mov a) { ruleR a (nReg a.ty) 1 1 with first := a.d.isUni && !a.a.isScalar } s (fun c => c.perLane s a.d a.ty.wide (fun l => do
    .ok { val := (← c.t.rdData l a.ty.wide a.a) }))

/-- MOVI (R241). -/
def execMovi (a : IArgs) (s : State) : Host.Outcome State Fault Refusal :=
  issues (.movi a) { guard := a.g, scalar := a.d.isScalar } s (fun c => c.perLane s a.d a.ty.wide (fun _ =>
    .ok { val := if a.ty = .i64 then a.imm.signExtend 64 else a.imm.setWidth 64 }))

/-- The team `t` with the error marks that the low halves of destination `d` had in `t0`: a low half that stays keeps
its error. -/
def Team.keepLow (t t0 : Team) (ls : List Nat) (d : Operand) : Team :=
  { t with
    badV := t.badV ++ t0.badV.filter (fun k => !t.badV.contains k &&
      ls.any (fun l => match t0.regOf l 2 2 d with | .ok (some r) => k == l * 256 + r | _ => false))
    badU := t0.badU }

/-- MOVI.hi (R241): the low half of D stays. -/
def execMoviHi (a : IArgs) (s : State) : Host.Outcome State Fault Refusal :=
  issues (.moviHi a) { guard := a.g, scalar := a.d.isScalar } s (fun c =>
    let r := runLanes c.t c.m a.d true (fun l => do
      let old ← c.t.rd64 l a.d
      .ok { val := a.imm ++ old.setWidth 32 })
    c.done s (r.1.keepLow c.t c.ls a.d, r.2))

/-- SEL (R241). -/
def execSel (a : RArgs) (s : State) : Host.Outcome State Fault Refusal :=
  issues (.sel a) (ruleR a (nReg a.ty) (nReg a.ty) 1) s (fun c => c.perLane s a.d a.ty.wide (fun l => do
    let x ← c.t.rdData l a.ty.wide a.a
    let y ← c.t.rdData l a.ty.wide a.b
    .ok { val := if c.t.predLane (fnBits a.fn 0 4) l != (fnBits a.fn 4 1 == 1) then x else y }))

/-! ## Arithmetic (R242-R246) -/

/-- IADD and ISUB (R243): the exact result and the carry or borrow over n bits. -/
def addSub (sub : Bool) (n : Nat) (x y : Int) (ci : Int) : Int × Bool :=
  let ux : Int := (wrapI x n : Nat)
  let uy : Int := (wrapI y n : Nat)
  if sub then (x - y - ci, decide (ux < uy + ci)) else (x + y + ci, decide (2 ^ n ≤ ux + uy + ci))

/-- One lane of IADD or ISUB. -/
def addSubLane (sub : Bool) (a : RArgs) (t : Team) (l : Nat) : Except Cause LaneRes := do
  let x ← t.opI l a.ty a.a
  let y ← t.opI l a.ty a.b
  let ci : Int := if fnBits a.fn 8 1 = 1 ∧ t.predLane (fnBits a.fn 4 4) l then 1 else 0
  let (e, co) := addSub sub a.ty.bits x y ci
  .ok { intRes a.ty a.sat e with pw := [(fnBits a.fn 0 4, co)] }

/-- The rule of IADD and ISUB: with a uniform destination the carry-in is that of the lowest lane of T alone (R243). -/
def ruleAdd (a : RArgs) : Rule := { ruleR a (nReg a.ty) (nReg a.ty) 1 with first := a.d.isUni && fnBits a.fn 8 1 == 1 }

/-- IADD (R243). -/
def execIadd (a : RArgs) (s : State) : Host.Outcome State Fault Refusal :=
  issues (.iadd a) (ruleAdd a) s (fun c => c.perLane s a.d a.ty.wide (addSubLane false a c.t))

/-- ISUB (R243). -/
def execIsub (a : RArgs) (s : State) : Host.Outcome State Fault Refusal :=
  issues (.isub a) (ruleAdd a) s (fun c => c.perLane s a.d a.ty.wide (addSubLane true a c.t))

/-- IMUL (R244). -/
def execImul (a : RArgs) (s : State) : Host.Outcome State Fault Refusal :=
  int2 (.imul a) a s (fun x y => .ok (intRes a.ty a.sat (x * y)))

/-- IMULH (R244). -/
def execImulh (a : RArgs) (s : State) : Host.Outcome State Fault Refusal :=
  int2 (.imulh a) a s (fun x y => .ok (intRes a.ty false (x * y / 2 ^ a.ty.bits)))

/-- The 64-bit type of the same signedness. -/
def wideOf (t : Ty) : Ty := if t.isI then .i64 else .w64

/-- IMAD (R244): with WIDE, C and D are 64 bits wide. -/
def execImad (a : RArgs) (s : State) : Host.Outcome State Fault Refusal :=
  let cty := if fnBits a.fn 0 1 = 1 then wideOf a.ty else a.ty
  issues (.imad a) (ruleR a (nReg a.ty) (nReg a.ty) (nReg cty)) s (fun c => c.perLane s a.d cty.wide (fun l => do
    let x ← c.t.opI l a.ty a.a
    let y ← c.t.opI l a.ty a.b
    let z ← c.t.opI l cty a.c
    .ok (intRes cty a.sat (x * y + z))))

/-- IMIN (R245). -/
def execImin (a : RArgs) (s : State) : Host.Outcome State Fault Refusal :=
  int2 (.imin a) a s (fun x y => .ok (intRes a.ty false (min x y)))

/-- IMAX (R245). -/
def execImax (a : RArgs) (s : State) : Host.Outcome State Fault Refusal :=
  int2 (.imax a) a s (fun x y => .ok (intRes a.ty false (max x y)))

/-- IABS (R245). -/
def execIabs (a : RArgs) (s : State) : Host.Outcome State Fault Refusal :=
  int1 (.iabs a) a s (fun x => .ok (intRes a.ty a.sat (x.natAbs : Int)))

/-- A division by zero (R246, 08 R231). -/
def divZero (t : Team) (ty : Ty) : Except Cause LaneRes :=
  if t.idze then .error .idiv0 else .ok { intRes ty false (-1) with dfl := dDIV0 }

/-- IDIV (R246). -/
def execIdiv (a : RArgs) (s : State) : Host.Outcome State Fault Refusal :=
  int2 (.idiv a) a s (fun x y =>
    if y = 0 then divZero (s.team s.cur) a.ty else .ok (intRes a.ty a.sat (x.tdiv y)))

/-- IREM (R246). -/
def execIrem (a : RArgs) (s : State) : Host.Outcome State Fault Refusal :=
  int2 (.irem a) a s (fun x y =>
    if y = 0 then divZero (s.team s.cur) a.ty else .ok (intRes a.ty false (x - y * x.tdiv y)))

/-! ## Logic, shifts and bit fields (R247-R253) -/

/-- A number with the bits that `f` gives. -/
def ofBits (n : Nat) (f : Nat → Bool) : Nat := ((List.range n).map (fun i => if f i then 2 ^ i else 0)).sum

/-- LOP3 (R248). -/
def lop3 (lut n x y z : Nat) : Nat :=
  ofBits n (fun i => lut.testBit ((if x.testBit i then 1 else 0) + (if y.testBit i then 2 else 0) + (if z.testBit i then 4 else 0)))

/-- LOP3 (R248). -/
def execLop3 (a : RArgs) (s : State) : Host.Outcome State Fault Refusal :=
  issues (.lop3 a) (ruleR a (nReg a.ty) (nReg a.ty) (nReg a.ty)) s (fun c => c.perLane s a.d a.ty.wide (fun l => do
    let x ← c.t.opP l a.ty a.a
    let y ← c.t.opP l a.ty a.b
    let z ← c.t.opP l a.ty a.c
    .ok (patRes a.ty (lop3 (fnBits a.fn 0 8) a.ty.bits x y z))))

/-- AND (R248). -/
def execAnd (a : RArgs) (s : State) : Host.Outcome State Fault Refusal := log2 (.and a) a s (fun x y => x &&& y)

/-- OR (R248). -/
def execOr (a : RArgs) (s : State) : Host.Outcome State Fault Refusal := log2 (.or a) a s (fun x y => x ||| y)

/-- XOR (R248). -/
def execXor (a : RArgs) (s : State) : Host.Outcome State Fault Refusal := log2 (.xor a) a s (fun x y => x ^^^ y)

/-- A bit instruction of one data source. -/
def bit1 (i : Instr) (a : RArgs) (s : State) (f : Nat → Nat) : Host.Outcome State Fault Refusal :=
  issues i (ruleR a (nReg a.ty) 1 1) s (fun c => c.perLane s a.d a.ty.wide (fun l => do
    .ok (patRes a.ty (f (← c.t.opP l a.ty a.a)))))

/-- NOT (R248). -/
def execNot (a : RArgs) (s : State) : Host.Outcome State Fault Refusal := bit1 (.not a) a s (fun x => 2 ^ a.ty.bits - 1 - x)

/-- The amount of a shift with MODA, or none when a clamped amount is n or more (R249). -/
def shiftAmt (n modA sh : Nat) : Option Nat := if modA = 1 then some (sh % n) else if n ≤ sh then none else some sh

/-- SHL (R249). -/
def shl (n modA x sh : Nat) : Nat := match shiftAmt n modA sh with | none => 0 | some k => x * 2 ^ k % 2 ^ n

/-- SHR (R249). -/
def shr (n modA x sh : Nat) : Nat := match shiftAmt n modA sh with | none => 0 | some k => x / 2 ^ k

/-- SAR (R249): the sign bit fills. -/
def sar (n modA x sh : Nat) : Nat := match shiftAmt n modA sh with
  | none => if x.testBit (n - 1) then 2 ^ n - 1 else 0
  | some k => wrapI (sextI x n / 2 ^ k) n

/-- SHL (R249). -/
def execShl (a : RArgs) (s : State) : Host.Outcome State Fault Refusal := bit2 (.shl a) a s (shl a.ty.bits (fnBits a.fn 0 1))

/-- SHR (R249). -/
def execShr (a : RArgs) (s : State) : Host.Outcome State Fault Refusal := bit2 (.shr a) a s (shr a.ty.bits (fnBits a.fn 0 1))

/-- SAR (R249). -/
def execSar (a : RArgs) (s : State) : Host.Outcome State Fault Refusal := bit2 (.sar a) a s (sar a.ty.bits (fnBits a.fn 0 1))

/-- A left rotation within n bits (R249). -/
def rotlN (n x sh : Nat) : Nat := x * 2 ^ (sh % n) % 2 ^ n + x / 2 ^ (n - sh % n)

/-- ROTL (R249). -/
def execRotl (a : RArgs) (s : State) : Host.Outcome State Fault Refusal := bit2 (.rotl a) a s (rotlN a.ty.bits)

/-- FUNSH (R250). -/
def funsh (half clampB : Bool) (lo hi ctl : Nat) : Nat :=
  let k : Int := if clampB then max (-64) (min 64 (sextI ctl 32)) else sextI ctl 7
  let v := hi * 2 ^ 32 + lo
  let v := if 0 ≤ k then v / 2 ^ k.toNat else v * 2 ^ (-k).toNat % 2 ^ 64
  if half then v / 2 ^ 32 else v % 2 ^ 32

/-- FUNSH (R250). -/
def execFunsh (a : RArgs) (s : State) : Host.Outcome State Fault Refusal :=
  issues (.funsh a) (ruleR a 1 1 1) s (fun c => c.perLane s a.d false (fun l => do
    let x ← c.t.opP l .b32 a.a
    let y ← c.t.opP l .b32 a.b
    let z ← c.t.rd32 l a.c
    .ok (patRes .b32 (funsh (fnBits a.fn 0 1 == 1) (fnBits a.fn 1 1 == 1) x y z.toNat))))

/-- BFX (R251). -/
def bfx (signed : Bool) (n x ctl : Nat) : Nat :=
  let p := ctl % 256
  let w := min (ctl / 256 % 256) n
  if w = 0 then 0
  else
    let f := ofBits w (fun i => if p + i < n then x.testBit (p + i) else signed && x.testBit (n - 1))
    if signed then wrapI (sextI f w) n else f

/-- BFX (R251). -/
def execBfx (a : RArgs) (s : State) : Host.Outcome State Fault Refusal := bit2 (.bfx a) a s (bfx a.ty.isI a.ty.bits)

/-- BFI (R251). -/
def bfi (n x base ctl : Nat) : Nat :=
  let p := ctl % 256
  let w := min (ctl / 256 % 256) n
  ofBits n (fun i => if p ≤ i && i < p + w then x.testBit (i - p) else base.testBit i)

/-- BFI (R251). -/
def execBfi (a : RArgs) (s : State) : Host.Outcome State Fault Refusal :=
  issues (.bfi a) (ruleR a (nReg a.ty) (nReg a.ty) 1) s (fun c => c.perLane s a.d a.ty.wide (fun l => do
    let x ← c.t.opP l a.ty a.a
    let y ← c.t.opP l a.ty a.b
    let z ← c.t.rd32 l a.c
    .ok (patRes a.ty (bfi a.ty.bits x y z.toNat))))

/-- POPC (R252): the result has 32 bits. -/
def execPopc (a : RArgs) (s : State) : Host.Outcome State Fault Refusal :=
  issues (.popc a) (ruleR a (nReg a.ty) 1 1) s (fun c => c.perLane s a.d false (fun l => do
    let x ← c.t.opP l a.ty a.a
    .ok { val := BitVec.ofNat 64 ((List.range a.ty.bits).filter (fun i => x.testBit i)).length }))

/-- CLZ (R252). -/
def execClz (a : RArgs) (s : State) : Host.Outcome State Fault Refusal :=
  issues (.clz a) (ruleR a (nReg a.ty) 1 1) s (fun c => c.perLane s a.d false (fun l => do
    let x ← c.t.opP l a.ty a.a
    .ok { val := BitVec.ofNat 64 (if x = 0 then a.ty.bits else a.ty.bits - 1 - x.log2) }))

/-- BREV (R252). -/
def execBrev (a : RArgs) (s : State) : Host.Outcome State Fault Refusal :=
  bit1 (.brev a) a s (fun x => ofBits a.ty.bits (fun i => x.testBit (a.ty.bits - 1 - i)))

/-- Result byte j of PRMT (R253). -/
def prmtByte (x y ctl j : Nat) : Nat :=
  let k := ctl / 2 ^ (5 * j) % 32
  let b := (x + y * 2 ^ 32) / 256 ^ (k % 8) % 256
  match k / 8 with
  | 0 => b
  | 1 => if b.testBit 7 then 255 else 0
  | 2 => 0
  | _ => 255

/-- PRMT (R253). -/
def execPrmt (a : RArgs) (s : State) : Host.Outcome State Fault Refusal :=
  issues (.prmt a) (ruleR a 1 1 1) s (fun c => c.perLane s a.d false (fun l => do
    let x ← c.t.opP l .b32 a.a
    let y ← c.t.opP l .b32 a.b
    let z ← c.t.rd32 l a.c
    .ok (patRes .b32 (((List.range 4).map (fun j => prmtByte x y z.toNat j * 256 ^ j)).sum))))

/-! ## Dot product (R254) -/

/-- The sum of products of IDOT4. -/
def idot (asg bsg nib : Bool) (x y : Nat) : Int :=
  let m := if nib then 4 else 8
  let e := fun (sg : Bool) (v j : Nat) => if sg then sextI (v / 2 ^ (m * j)) m else zextI (v / 2 ^ (m * j)) m
  ((List.range (32 / m)).map (fun j => e asg x j * e bsg y j)).sum

/-- IDOT4 (R254). -/
def execIdot4 (a : RArgs) (s : State) : Host.Outcome State Fault Refusal :=
  issues (.idot4 a) (ruleR a 1 1 1) s (fun c => c.perLane s a.d false (fun l => do
    let x ← c.t.opP l .b32 a.a
    let y ← c.t.opP l .b32 a.b
    let z ← c.t.opI l a.ty a.c
    .ok (intRes a.ty a.sat (z + idot (fnBits a.fn 0 1 == 1) (fnBits a.fn 1 1 == 1) (fnBits a.fn 2 1 == 1) x y))))

/-! ## Index registers (R255) -/

/-- The lane result of a write of `e` to x[K]. -/
def xRes (a : RArgs) (e : Int) : LaneRes :=
  let o := narrow .i16 a.sat e
  { xw := some (fnBits a.fn 0 3, BitVec.ofNat 16 o.pat), fl := o.fl }

/-- XSET (R255). -/
def execXset (a : RArgs) (s : State) : Host.Outcome State Fault Refusal :=
  issues (.xset a) (ruleR a 1 1 1) s (fun c => c.perLane s .vz false (fun l => do
    let x ← c.t.rd32 l a.a
    .ok (xRes a x.toInt)))

/-- XADD (R255). -/
def execXadd (a : RArgs) (s : State) : Host.Outcome State Fault Refusal :=
  issues (.xadd a) (ruleR a 1 1 1) s (fun c => c.perLane s .vz false (fun l => do
    let x ← c.t.rd32 l a.a
    .ok (xRes a ((c.t.xreg l (fnBits a.fn 0 3)).toInt + x.toInt))))

/-- XGET (R255). -/
def execXget (a : RArgs) (s : State) : Host.Outcome State Fault Refusal :=
  issues (.xget a) (ruleR a 1 1 1) s (fun c => c.perLane s a.d false (fun l =>
    .ok { val := ((c.t.xreg l (fnBits a.fn 0 3)).signExtend 32).setWidth 64 }))

end Sys2Proof.Machine
end

