-- ==== Sys2Proof/Machine/Memory.lean ====
section
/-! DEFINITION. Buffer records, and the per-lane memory instructions through them: LD, ST, LDX, the atomics, and the events
that end a stall for a cell slot (12 R299-R307, 04 R95). -/
namespace Sys2Proof.Machine

/-! ## Buffer records (03 R63, R64, 12 R300) -/

/-- The swizzle fields lie within bits [39:0], and the destination overlaps no source (03 R64). -/
def swizzleOk (mode w d s1 s2 : Nat) : Bool :=
  mode == 0 ||
  (1 ≤ w && w ≤ 8 && d + w ≤ 40 && s1 + w ≤ 40 && (d + w ≤ s1 || s1 + w ≤ d) &&
   (mode == 1 || (s2 + w ≤ 40 && (d + w ≤ s2 || s2 + w ≤ d))))

/-- The image of W0 to W3 when it is valid (03 R64). With SWMODE 0, SWW is zero (03 R63). -/
def recOfWords (w0 w1 w2 w3 : W64) : Option Rec :=
  let r : Rec :=
    { base := fnBits w0 0 57, extent := fnBits w1 0 40, esize := fnBits w1 40 3, trapOob := fnBits w1 43 1 == 1,
      tagm := fnBits w1 44 2, cclass := fnBits w1 46 2, flat := fnBits w1 48 1 == 1, stride := BitVec.ofNat 32 (fnBits w2 0 32),
      swmode := fnBits w2 32 2, sww := fnBits w2 34 4, swd := fnBits w2 38 6, sws1 := fnBits w2 44 6,
      sws2 := fnBits w2 50 6, tag := BitVec.ofNat 16 (fnBits w3 0 16) }
  if fnBits w0 57 7 = 0 ∧ fnBits w1 49 15 = 0 ∧ fnBits w2 56 8 = 0 ∧ fnBits w3 16 48 = 0 ∧
     r.esize ≤ 4 ∧ r.tagm ≠ 3 ∧ r.swmode ≠ 3 ∧ r.tag ≠ 0xFFFF ∧ (r.swmode ≠ 0 ∨ r.sww = 0) ∧
     swizzleOk r.swmode r.sww r.swd r.sws1 r.sws2 ∧ (!r.flat ∨ (r.swmode = 0 ∧ r.tagm = 0))
  then some r else none

/-- The k-th uniform register from the one that an operand names. -/
def Team.uniAt (t : Team) (o : Operand) (k : Nat) : W64 :=
  match o with
  | .s r => t.ureg (r.toNat + k)
  | _ => 0

/-- Uniform registers written from the one that an operand names. -/
def Team.setUnis (t : Team) (o : Operand) : List W64 → Team
  | [] => t
  | v :: vs =>
    match o with
    | .s r => (t.setU r.toNat v).setUnis (.s (r + 1)) vs
    | _ => t

/-- BRSET (R300). -/
def execBrset (a : SArgs) (s : State) : Host.Outcome State Fault Refusal :=
  issues (.brset a) { guard := a.g, srcs := [(a.a, 4)] } s (fun c => c.once s (fun _ =>
    let r := recOfWords (c.t.uniAt a.a 0) (c.t.uniAt a.a 1) (c.t.uniAt a.a 2) (c.t.uniAt a.a 3)
    let t := (c.t.setRec (fnBits a.sfn 0 4) (r.getD .null)).setPredMask a.pd.toNat c.m r.isSome
    { s := s.setTeam c.a (if r.isSome then t else t.raise 0 dBADREC) }))

/-- BRGET (R300). -/
def execBrget (a : SArgs) (s : State) : Host.Outcome State Fault Refusal :=
  issues (.brget a) (ruleS a) s (fun c => c.once s (fun _ =>
    { s := s.setTeam c.a (c.t.setUnis a.d (c.t.rslot (fnBits a.sfn 0 4)).words) }))

/-! ## The lanes of a memory instruction (R303) -/

/-- What the lanes so far have done: the trapped lanes, the lanes stopped by PAGEF with its address, and the lanes that
must wait, for a cell slot of a stack or for sr.uwc, and the lanes whose data fail verification. -/
structure MemAcc where
  s : State
  k : Traps := []
  u : List (Nat × Nat) := []
  full : List (Nat × Nat) := []
  busy : Bool := false
  mac : Mask := 0

/-- One lane. -/
def MemAcc.lane (f : State → Nat → Ans Unit) (r : MemAcc) (l : Nat) : MemAcc :=
  match f r.s l with
  | (s, .ok _) => { r with s := s }
  | (s, .error (.cause .pagef va)) => { r with s := s, u := r.u ++ [(l, va)] }
  | (s, .error (.cause c _)) => { r with s := s, k := r.k ++ [(l, c)] }
  | (s, .error .firewall) => { r with s := s, k := r.k ++ [(l, .perm)] }
  | (s, .error .ue) => { r with s := s, k := r.k ++ [(l, .ue)] }
  | (s, .error .mac) => { r with s := s, k := r.k ++ [(l, .ue)], mac := r.mac ||| oneLane l }
  | (s, .error (.full st)) => { r with s := s, full := r.full ++ [(l, st)] }
  | (s, .error .busy) => { r with s := s, busy := true }

/-- The lanes of one pass, which share the requests of their lines (03 R68). -/
def MemAcc.pass (f : State → Nat → Ans Unit) (r : MemAcc) (ls : List Nat) : MemAcc :=
  let r := ls.foldl (MemAcc.lane f) r
  { r with s := { r.s with pass := [] } }

/-- The budget of a stalled cell write has run out (04 R95). -/
def Ctx.stalledOut (c : Ctx) (s : State) : Bool :=
  match c.t.waiting with
  | some w => decide (w.cycles + 2 ^ 20 * 1000 ≤ s.mcyc c.a)
  | none => false

/-- Off-package writes are outstanding that a release at SYSTEM scope waits for: the team's own, and those of every other
agent, which it may have observed (14 R366, log 53). -/
def State.offWrites (s : State) : Bool := s.teams.any (fun x => x.2.uwc != [])

/-! ## Walks (03 R80) -/

/-- The pages of the accesses of lanes, `n` bytes of elements of `es` bytes each, in lane order. -/
def Ctx.pages (c : Ctx) (a : MArgs) (n es : Nat) (ls : List Nat) : List Nat :=
  ls.flatMap (fun l => match c.t.address (c.t.rslot a.br.toNat) l a.a a.disp n es with
    | .ok ad => ad.segs.map (fun x => x.1 / 65536)
    | .error _ => [])

/-- The requester that a lane's access through a record is: its cache class is HINT.CC, or the record's (06 R148). -/
def Ctx.accReq (c : Ctx) (s : State) (a : MArgs) : Req :=
  { s.req c.a with
    cls := if a.cc = 0 then (c.t.rslot a.br.toNat).cclass else a.cc.toNat
    acq := (match a.ord with | .acq | .ar => true | _ => false) && (match a.scope with | .team | .crew => false | _ => true)
    acqAp := (match a.ord with | .acq | .ar => true | _ => false)
    rel := (match a.ord with | .rel | .ar => true | _ => false)
    lane := true }

/-- The life that a tag had when the instruction began to wait, if it has (04 R101). -/
def Ctx.lifeOf (c : Ctx) (tag : BitVec 16) : Option Nat := (c.t.waiting.bind (fun w => w.lives)).map (fun ls => tget 0 ls tag.toNat)

/-- The lives of the tags of the team's partition, for an access that begins to wait. -/
def Ctx.lives (c : Ctx) (s : State) : Option (List (Nat × Nat)) := some (s.part (s.partOf c.a)).lives

/-- The tag in effect through a record; an access that has waited names the life that the tag had then (04 R101). -/
def Ctx.useOf (c : Ctx) (b : Rec) : TagUse := { c.t.tagUse b with life := c.lifeOf (c.t.tagUse b).tag }

/-- A memory instruction over the lanes `ls`, each doing `f`. A lane that must wait makes the instruction wait with
nothing of it done (log 21); after 2^20 cycles the lanes that still need a cell stop with TAGEXH. WHERE
of a page fault is the lowest faulting address (16 R406). With `uni` the one
access stands for every lane of T (R303). The walks of its lines come first (03 R80). -/
def Ctx.memRun (c : Ctx) (s : State) (i : Instr) (a : MArgs) (k : Kind) (n es : Nat) (uni : Bool) (f : State → Nat → Ans Unit) : Res :=
  let ls := if uni then c.ls.take 1 else c.ls
  let need := s.missing (s.req c.a) (c.pages a n es ls)
  if need ≠ [] ∧ s.slowWalks (s.clusterOf c.a) ∧ !c.t.waiting.any (fun w => w.walked) then
    c.wait (s.queueWalks c.a .instr need) i 0 none (c.lives s)
  else
  let s := s.walkAll (s.req c.a) k need
  let r := (passWords c.m).foldl (fun r w => MemAcc.pass f r (ls.filter (fun l => l / 32 == w))) { s := s }
  if r.busy then c.wait s i 0 none (c.lives s)
  else if r.full ≠ [] ∧ !(c.stalledOut s && c.t.waiting.any (fun w => w.stack.isSome)) then
    c.wait s i 0 (r.full.map (·.2)).head? (c.lives s)
  else
    let soft := r.u.map (fun x => (x.1, Cause.pagef, x.2)) ++ r.full.map (fun x => (x.1, Cause.tagexh, x.2))
    let um := maskOf (soft.map (·.1))
    let first := (soft.find? (fun x => x.1 == lowLane c.t.width um)).getD (0, .pagef, 0)
    let wher := if first.2.1 = .pagef then r.u.foldl (fun v x => min v x.2) first.2.2 else first.2.2
    { s := r.s, k := if uni then (match r.k with | [] => [] | (_, x) :: _ => trapAll c.t.width c.m x) else r.k,
      u := if uni ∧ um ≠ 0 then c.m else um, ucause := first.2.1, wher := wher, acc := k.code
      mac := if uni ∧ r.mac ≠ 0 then c.m else r.mac }

/-- An operand or address cause as an answer. -/
def causeAns {α : Type} (s : State) (c : Cause) (va : Nat) : Ans α := (s, .error (.cause c va))

/-! ## Data of an access (R301, R304) -/

/-- Bytes of an element. -/
def esOf (t : Ty) : Nat := t.bits / 8

/-- Registers of an access (R301). -/
def argRegs (a : MArgs) : Nat := accRegs a.vec a.ty

/-- The bytes of `n` registers of a lane from register `r`. -/
def Team.regBytes (t : Team) (l r n : Nat) : List Byte :=
  ((List.range n).map (fun j => leBytes 4 (t.vreg l (r + j)).toNat)).flatten

/-- A register range filled with bytes. -/
def Team.setRegBytes (t : Team) (l r : Nat) (n : Nat) (bs : List Byte) : Team :=
  (List.range n).foldl (fun t j => t.setV l (r + j) (BitVec.ofNat 32 (leNat ((bs.drop (4 * j)).take 4)))) t

/-- The stored bytes: element j from register D + j (D + 2j for 64-bit types), from s(D + j), or the immediate. -/
def Team.storeBytes (t : Team) (l : Nat) (ty : Ty) (vec : Nat) (d : Operand) : Except Cause (List Byte) :=
  let es := esOf ty
  match d with
  | .s r => .ok (((List.range vec).map (fun j => leBytes es (t.ureg (r.toNat + j)).toNat)).flatten)
  | .imm x => .ok (((List.range vec).map (fun _ => leBytes es (BitVec.ofInt 64 (immVal x)).toNat)).flatten)
  | d =>
    let r := if ty.wide then 2 * vec else vec
    match t.regOf l r (rangeAl r) d with
    | .error c => .error c
    | .ok none => .ok (List.replicate (es * vec) 0)
    | .ok (some k) =>
      .ok (((List.range vec).map (fun j =>
        let b := t.regBytes l (if ty.wide then k + 2 * j else k + j) (if ty.wide then 2 else 1)
        b.take es)).flatten)

/-- Loaded elements written to the destination, extended as 08 R216 states. -/
def Team.putElems (t : Team) (l : Nat) (ty : Ty) (vec : Nat) (d : Operand) (base : Option Nat) (bs : List Byte) : Team :=
  (List.range vec).foldl (fun t j =>
    let v := Ty.extend ty (leNat ((bs.drop (esOf ty * j)).take (esOf ty)))
    match d with
    | .s _ => t.putUni ty.wide d v
    | _ => t.putLane l ty.wide (base.map (fun r => if ty.wide then r + 2 * j else r + j)) v) t

/-- The destination register of a load in a lane. -/
def Team.destOf (t : Team) (l r : Nat) (d : Operand) : Except Cause (Option Nat) :=
  if d.isUni then .ok none else t.regOf l r (rangeAl r) d

/-! ## Rules and addresses -/

/-- The index operand that a flat record takes: a uniform register, or a pair of per-lane registers (03 R65). -/
def flatIndexOk (o : Operand) : Bool :=
  match o with
  | .s _ => true
  | .imm _ => false
  | o => o.pairOk

/-- The rule of an instruction that names record slot REC. -/
def ruleM (t : Team) (a : MArgs) (srcs : List (Operand × Nat)) : Rule :=
  let b := t.rslot a.br.toNat
  { guard := a.g, ctx := !b.flat || flatIndexOk a.a, srcs := srcN a.a (if b.flat then 2 else 1) :: srcs }

/-- Some granule lies out of bounds under the ZERO policy: device flag OOB (03 R66). -/
def Team.zeroOob (t : Team) (b : Rec) (l : Nat) (a : Operand) (disp : BitVec 24) (n : Nat) : Bool :=
  match t.offset b l a disp with
  | .ok off => !b.flat && !b.trapOob && boundRun off b.extent (min (esizeBytes b.esize) n) n != (0, n)
  | .error _ => false

/-- The lane's access with the device flag raised. -/
def laneAddr (c : Ctx) (s : State) (a : MArgs) (l n es : Nat) : State × Except Cause Addr :=
  let b := c.t.rslot a.br.toNat
  let s := if c.t.zeroOob b l a.a a.disp n then s.modTeam c.a (fun t => t.raise 0 dOOB) else s
  (s, c.t.address b l a.a a.disp n es)

/-- The address that a failed address computation would have named, for the notice. -/
def failVa (c : Ctx) (a : MArgs) (l : Nat) : Nat :=
  let b := c.t.rslot a.br.toNat
  match c.t.offset b l a.a a.disp with
  | .ok off => (((b.base : Int) + off) % 2 ^ 64).toNat
  | .error _ => 0

/-- ORD rel or ar (14 R357). -/
def isRel : Ord4 → Bool
  | .rel => true
  | .ar => true
  | _ => false

/-- The access reaches an aperture, so that it is at SYSTEM scope (03 R79). -/
def State.viaAperture (s : State) (r : Req) (segs : List (Nat × Nat)) : Bool :=
  segs.any (fun x => (s.apertOf r x.1).isSome)

/-- A SYSTEM-scope release waits until the writes that it covers are acknowledged (14 R366). -/
def relWaits (s : State) (a : MArgs) : Bool := isRel a.ord && a.scope == .system && s.offWrites

/-- The same of a lane's access through an aperture. -/
def relWaitsAt (c : Ctx) (s : State) (a : MArgs) (segs : List (Nat × Nat)) : Bool :=
  isRel a.ord && (c.t.uwc != [] || s.teams.any (fun x => x.1 != c.a && x.2.uwc != [])) && s.viaAperture (s.req c.a) segs

/-! ## Loads and stores (R304) -/

/-- One lane of LD or LDX under the tag `g`. -/
def loadLane (c : Ctx) (a : MArgs) (g : Nat → Except Cause TagUse) (s : State) (l : Nat) : Ans Unit :=
  let n := a.vec.n * esOf a.ty
  match g l with
  | .error x => causeAns s x 0
  | .ok g =>
    match laneAddr c s a l n (esOf a.ty) with
    | (s, .error x) => causeAns s x (failVa c a l)
    | (s, .ok ad) =>
      match c.t.destOf l (argRegs a) a.d with
      | .error x => causeAns s x 0
      | .ok base =>
        match readV s (c.accReq s a) g .read ad.segs with
        | (s, .error b) => (s, .error b)
        | (s, .ok bs) =>
          let bs := List.replicate ad.lo 0 ++ bs ++ List.replicate (n - ad.hi) 0
          (s.modTeam c.a (fun t => t.putElems l a.ty a.vec.n a.d base bs), .ok ())

/-- LD (R304). -/
def execLd (a : MArgs) (s : State) : Host.Outcome State Fault Refusal :=
  issues (.ld a) (ruleM (s.team s.cur) a []) s (fun c =>
    c.memRun s (.ld a) a .read (a.vec.n * esOf a.ty) (esOf a.ty) a.d.isUni
      (loadLane c a (fun _ => .ok (c.useOf (c.t.rslot a.br.toNat)))))

/-- LDX (04 R109): the tag is that of the lane's B operand. -/
def execLdx (a : MArgs) (s : State) : Host.Outcome State Fault Refusal :=
  issues (.ldx a) (ruleM (s.team s.cur) a [srcN a.b 1]) s (fun c =>
    c.memRun s (.ldx a) a .read (a.vec.n * esOf a.ty) (esOf a.ty) a.d.isUni
      (loadLane c a (fun l => (c.t.rd32 l a.b).map (fun v => { tag := v.setWidth 16, must := false, life := c.lifeOf (v.setWidth 16) }))))

/-- One lane of ST. -/
def storeLane (c : Ctx) (a : MArgs) (s : State) (l : Nat) : Ans Unit :=
  let n := a.vec.n * esOf a.ty
  match laneAddr c s a l n (esOf a.ty) with
  | (s, .error x) => causeAns s x (failVa c a l)
  | (s, .ok ad) =>
    match c.t.storeBytes l a.ty a.vec.n a.d with
    | .error x => causeAns s x 0
    | .ok bs =>
      if relWaitsAt c s a ad.segs then (s, .error .busy)
      else writeV s (c.accReq s a) (c.useOf (c.t.rslot a.br.toNat)) .write none ad.segs
        ((bs.drop ad.lo).take (ad.hi - ad.lo))

/-- ST (R304). -/
def execSt (a : MArgs) (s : State) : Host.Outcome State Fault Refusal :=
  issues (.st a) (ruleM (s.team s.cur) a [(a.d, if a.d.isUni then a.vec.n else (argRegs a))]) s (fun c =>
    if c.m ≠ 0 ∧ relWaits s a then c.wait s (.st a) 0 none (c.lives s)
    else c.memRun s (.st a) a .write (a.vec.n * esOf a.ty) (esOf a.ty) false (storeLane c a))

/-! ## Atomics (R306, R307) -/

/-- RNE with no flush and no flag (R306). -/
def faddPat (t : Ty) (m v : Nat) : Nat :=
  (rnd t .exact (sumX .rne [some (Ty.val t m), some (Ty.val t v)])).pat

/-- The new value of an atomic operation (R306). -/
def newVal (mfn : Nat) (ty : Ty) (m v : Nat) : Nat :=
  let n := ty.bits
  match mfn with
  | 0 => (m + v) % 2 ^ n
  | 1 => if Ty.intVal ty v < Ty.intVal ty m then v else m
  | 2 => if Ty.intVal ty m < Ty.intVal ty v then v else m
  | 3 => m &&& v
  | 4 => m ||| v
  | 5 => m ^^^ v
  | 6 => v
  | 7 => if v ≤ m then 0 else m + 1
  | 8 => if m = 0 ∨ v < m then v else m - 1
  | _ =>
    match ty with
    | .f16x2 => faddPat .f16 (m % 65536) (v % 65536) + faddPat .f16 (m / 65536) (v / 65536) * 65536
    | .bf16x2 => faddPat .bf16 (m % 65536) (v % 65536) + faddPat .bf16 (m / 65536) (v / 65536) * 65536
    | t => faddPat t m v

/-- How a route sees the operation (03 R71). -/
def atomKind (mfn : Nat) : AtomOp :=
  match mfn with
  | 0 => .add
  | 6 => .swap
  | _ => .other

/-- One lane's atomic step on `n` bytes: the old bytes, or none when an out-of-bounds granule under ZERO keeps it from
being performed. -/
def atomAt (c : Ctx) (a : MArgs) (q : AtomReq) (ret : Bool) (n : Nat) (s : State) (ad : Addr) (f : List Byte → Option (List Byte)) :
    Ans (Option (List Byte)) :=
  if ad.oob n then (s, .ok none)
  else if relWaitsAt c s a ad.segs then (s, .error .busy)
  else
    match atomicV s (c.accReq s a) (c.useOf (c.t.rslot a.br.toNat)) q ret ad.segs f with
    | (s, .error b) => (s, .error b)
    | (s, .ok old) => (s, .ok (some old))

/-- One lane of ATOM or RED. -/
def atomLane (c : Ctx) (a : MArgs) (ret : Bool) (s : State) (l : Nat) : Ans Unit :=
  let n := esOf a.ty
  match laneAddr c s a l n n with
  | (s, .error x) => causeAns s x (failVa c a l)
  | (s, .ok ad) =>
    match c.t.destOf l (argRegs a) (if ret then a.d else .vz), c.t.opP l a.ty a.b with
    | .error x, _ => causeAns s x 0
    | _, .error x => causeAns s x 0
    | .ok base, .ok v =>
      let q : AtomReq := { op := atomKind a.mfn.toNat, bytes := n, system := a.scope == .system }
      match atomAt c a q ret n s ad (fun old => some (leBytes n (newVal a.mfn.toNat a.ty (leNat old) v))) with
      | (s, .error b) => (s, .error b)
      | (s, .ok old) =>
        (if ret then s.modTeam c.a (fun t => t.putElems l a.ty 1 a.d base (old.getD (List.replicate n 0))) else s, .ok ())

/-- ATOM (R307). -/
def execAtom (a : MArgs) (s : State) : Host.Outcome State Fault Refusal :=
  issues (.atom a) (ruleM (s.team s.cur) a [srcN a.b (nReg a.ty)]) s (fun c =>
    if c.m ≠ 0 ∧ relWaits s a then c.wait s (.atom a) 0 none (c.lives s)
    else c.memRun s (.atom a) a .atomic (esOf a.ty) (esOf a.ty) false (atomLane c a true))

/-- RED (R307). -/
def execRed (a : MArgs) (s : State) : Host.Outcome State Fault Refusal :=
  issues (.red a) (ruleM (s.team s.cur) a [srcN a.b (nReg a.ty)]) s (fun c =>
    if c.m ≠ 0 ∧ relWaits s a then c.wait s (.red a) 0 none (c.lives s)
    else c.memRun s (.red a) a .atomic (esOf a.ty) (esOf a.ty) false (atomLane c a false))

/-- Registers of an ATOMC operand: four in the 128-bit form. -/
def casRegs (a : MArgs) : Nat := if a.vec = .two then 4 else nReg a.ty

/-- One lane of ATOMC: the comparison, and the new value written when it holds. -/
def casLane (c : Ctx) (a : MArgs) (s : State) (l : Nat) : Ans Unit :=
  let n := a.vec.n * esOf a.ty
  let k := casRegs a
  let al := if k = 4 then 4 else rangeAl k
  match laneAddr c s a l n (esOf a.ty) with
  | (s, .error x) => causeAns s x (failVa c a l)
  | (s, .ok ad) =>
    if ad.va % n ≠ 0 then causeAns s .misalign 0
    else
      match c.t.regOf l k al a.d, c.t.regOf l k al a.b with
      | .error x, _ => causeAns s x 0
      | _, .error x => causeAns s x 0
      | .ok d, .ok b =>
        let d := d.getD 0
        let new := c.t.regBytes l d k
        let cmp := c.t.regBytes l (b.getD 0) k
        let q : AtomReq := { op := .cas, bytes := n, system := a.scope == .system }
        match atomAt c a q true n s ad (fun old => if old = cmp then some new else none) with
        | (s, .error x) => (s, .error x)
        | (s, .ok old) =>
          (s.modTeam c.a (fun t =>
            (t.setRegBytes l d k (old.getD (List.replicate n 0))).setPredLane a.mfn.toNat l (old == some cmp)), .ok ())

/-- ATOMC (R307). -/
def execAtomc (a : MArgs) (s : State) : Host.Outcome State Fault Refusal :=
  issues (.atomc a) (ruleM (s.team s.cur) a [(a.d, casRegs a), (a.b, casRegs a)]) s (fun c =>
    if c.m ≠ 0 ∧ relWaits s a then c.wait s (.atomc a) 0 none (c.lives s)
    else c.memRun s (.atomc a) a .atomic (a.vec.n * esOf a.ty) (esOf a.ty) false (casLane c a))

/-! ## Stalled writes (04 R95) -/

/-- A write that waits for a cell slot of a stack. -/
def stallsForCell (t : Team) : Bool :=
  match t.waiting with
  | some { instr := .st _, .. } => true
  | some { instr := .atom _, .. } => true
  | some { instr := .atomc _, .. } => true
  | some { instr := .red _, .. } => true
  | _ => false

/-- CELL_SLOT_GRANT (04 R95): a slot of the pool of the stalled team's partition is free in its stack, so its write issues again. -/
def execCellSlotGrant (agent : Nat) (s : State) : Host.Outcome State Fault Refusal :=
  let t := s.team agent
  let stack : Option Nat := t.waiting.bind (fun w => w.stack)
  let free := (s.part (s.partOf agent)).pool.any (fun f =>
    some (f / 2 ^ 20) == stack && (List.range 16).any (fun k => !s.mem.cells.any (fun c => c.slot == f * 65536 + k * 4096)))
  .next (if stallsForCell t && free then s.wake agent else s)

/-- TAGEXH_TIMEOUT (04 R95): after 2^20 cycles the write issues again, and the lanes that still need a cell trap. -/
def execTagexhTimeout (agent : Nat) (s : State) : Host.Outcome State Fault Refusal :=
  let t := s.team agent
  let out := t.waiting.any (fun w => w.stack.isSome && decide (w.cycles + 2 ^ 20 * 1000 ≤ s.mcyc agent))
  .next (if stallsForCell t && out then s.wake agent else s)

end Sys2Proof.Machine
end

