-- ==== Sys2Proof/Machine/Engine.lean ====
section
/-! DEFINITION. What the engines share (12 R311-R314, 14 R362): the team counters, the statuses, the order of one team's
operations of a class, and the accesses of an operation with its page faults and stalls. -/
namespace Sys2Proof.Machine

/-! ## Counters (14 R362) -/

/-- Engine classes in the order of CLS (14 R374). -/
inductive EngClass where
  | copy | tile | matrix | coll | tag
  deriving DecidableEq, Repr

/-- The counter of a class. -/
def Counters.get (c : Counters) : EngClass → Nat
  | .copy => c.copy
  | .tile => c.tile
  | .matrix => c.matrix
  | .coll => c.coll
  | .tag => c.tag

/-- The counters with one class set. -/
def Counters.put (c : Counters) (k : EngClass) (n : Nat) : Counters :=
  match k with
  | .copy => { c with copy := n }
  | .tile => { c with tile := n }
  | .matrix => { c with matrix := n }
  | .coll => { c with coll := n }
  | .tag => { c with tag := n }

/-- An instruction whose wait the fall of a counter can end: SLEEP (14 R375), and an engine instruction whose class is full
(R311). It issues again and looks. -/
def counterWaits : Instr → Bool
  | .sleep _ | .tfill _ | .tdrain _ | .tmcast _ | .cpyt _ | .cpyz _ | .wsld _ | .ldw _ | .ldwWs _ | .swpw _ | .mma _
  | .mmas _ | .aclr _ | .ald _ | .amovTile _ | .scacc _ | .tagret _ | .evsig _ => true
  | _ => false

/-- An operation issues: its counter rises. -/
def Team.cntUp (t : Team) (k : EngClass) : Team := { t with cnt := t.cnt.put k (t.cnt.get k + 1) }

/-- The fall of a counter at time `now` wakes a wait: SLEEP only with WAKE and before its time is over (14 R375). -/
def Waiting.wokenBy (w : Waiting) (now : Nat) : Bool :=
  match w.instr with
  | .sleep a => fnBits a.sfn 0 1 == 1 && decide (now < w.until_)
  | i => counterWaits i

/-- An operation retires at time `now`, `cyc` in thousandths of a cycle: its counter falls. -/
def Team.cntDown (t : Team) (k : EngClass) (now cyc : Nat) : Team :=
  let t := { t with cnt := t.cnt.put k (t.cnt.get k - 1) }
  if t.waiting.any (fun w => w.wokenBy now) then t.wake cyc else t

/-- A class is full: one more operation of it waits at issue (R311). -/
def Team.cntFull (t : Team) (k : EngClass) : Bool := decide (255 ≤ t.cnt.get k)

/-! ## Whose operation it is

A control thread's operations belong to what it runs: inside an enclave to the thread slot, which keeps them when the
thread leaves by asynchronous exit. An owner is an agent, or 2^64 + enclave · 2^16 + slot. -/

/-- The owner of a thread slot. -/
def slotKey (e k : Nat) : Nat := 2 ^ 64 + e * 2 ^ 16 + k

/-- The owner of what an agent issues now. -/
def State.ownOf (s : State) (a : Nat) : Nat :=
  if isThread a && (s.thread a).eid != 0 then slotKey (s.thread a).eid (s.thread a).slot else a

/-- A change to the owner's team, wherever that team is kept. -/
def State.modOwn (s : State) (o : Nat) (f : Team → Team) : State :=
  if o < 2 ^ 64 then
    let th := s.thread o
    if isThread o && th.eid != 0 then
      let x := s.slotAt th.eid th.slot
      s.setSlot th.eid th.slot { x with outer := x.outer.map f }
    else s.modTeam o f
  else
    let e := (o - 2 ^ 64) / 2 ^ 16
    let k := (o - 2 ^ 64) % 2 ^ 16
    let x := s.slotAt e k
    match x.entered with
    | some a => s.modTeam a f
    | none => s.setSlot e k { x with inner := x.inner.map f }

/-- The next operation number. -/
def State.takeOp (s : State) : Nat × State :=
  (s.eng.nextOp, { s with eng := { s.eng with nextOp := s.eng.nextOp + 1 } })

/-! ## Statuses (R313) -/

def stOK : BitVec 8 := 0x00
def stFirewall : BitVec 8 := 0x01
def stFault : BitVec 8 := 0x02
def stOob : BitVec 8 := 0x03
def stTagbad : BitVec 8 := 0x04
def stTagexh : BitVec 8 := 0x05
def stUe : BitVec 8 := 0x06
def stBaddest : BitVec 8 := 0x07
def stBadreq : BitVec 8 := 0x08
def stCancel : BitVec 8 := 0x09
def stFormat : BitVec 8 := 0x0A

/-- How a run of an operation's accesses ends: all done, a status, a page fault at an address, no free cell slot in a
stack, or a wait for the link. -/
inductive MoveEnd where
  | ok
  | stop (st : BitVec 8)
  | page (va : Nat)
  | full (stack : Nat)
  | busy
  deriving DecidableEq, Repr

/-- How a refused access ends an operation (R313). -/
def moveEnd : Bad → MoveEnd
  | .cause .pagef va => .page va
  | .cause .oob _ => .stop stOob
  | .cause .misalign _ => .stop stOob
  | .cause .tagbad _ => .stop stTagbad
  | .cause .ue _ => .stop stUe
  | .cause _ _ => .stop stFault
  | .firewall => .stop stFirewall
  | .ue => .stop stUe
  | .mac => .stop stUe
  | .full k => .full k
  | .busy => .busy

/-- The address of `n` bytes at a record offset with its own granule (R316, R319, R321): none out of bounds under ZERO. -/
def moveVa (b : Rec) (off : Int) (n : Nat) : Except (BitVec 8) (Option Nat) :=
  if !b.flat && (decide (off < 0) || decide ((b.extent : Int) < off + n)) then
    if b.trapOob then .error stOob else .ok none
  else
    let va : Int := (b.base : Int) + (if b.flat then off else (swizzle b off.toNat : Int))
    if va < 0 ∨ 2 ^ 57 ≤ va then .error stFault
    else if va.toNat % n ≠ 0 then .error stOob
    else .ok (some va.toNat)

/-- One read of an operation; an out-of-bounds granule reads 0. -/
def moveRead (s : State) (r : Req) (g : TagUse) (b : Rec) (off : Int) (n : Nat) : State × Except MoveEnd (List Byte) :=
  match moveVa b off n with
  | .error st => (s, .error (.stop st))
  | .ok none => (s, .ok (List.replicate n 0))
  | .ok (some va) =>
    match readV s r g .read [(va, n)] with
    | (s, .error x) => (s, .error (moveEnd x))
    | (s, .ok bs) => (s, .ok bs)

/-- One write of an operation; an out-of-bounds granule is not written. -/
def moveWrite (s : State) (r : Req) (g : TagUse) (b : Rec) (off : Int) (bs : List Byte) : State × MoveEnd :=
  match moveVa b off bs.length with
  | .error st => (s, .stop st)
  | .ok none => (s, .ok)
  | .ok (some va) =>
    match writeV s r g .write none [(va, bs.length)] bs with
    | (s, .error x) => (s, moveEnd x)
    | (s, .ok _) => (s, .ok)

/-- An offset is out of bounds under the ZERO policy: device flag OOB (R316). -/
def moveOob (b : Rec) (off : Int) (n : Nat) : Bool :=
  !b.flat && !b.trapOob && (decide (off < 0) || decide ((b.extent : Int) < off + n))

/-- The offset's byte leads to an aperture (R312). -/
def State.moveAp (s : State) (r : Req) (b : Rec) (off : Int) (n : Nat) : Bool :=
  match moveVa b off n with
  | .ok (some va) => (s.apertOf r va).isSome
  | _ => false

/-- The notice of an engine operation at a page fault (16 R405, R406); for a control thread's the fields are those of kind
THREAD. -/
def State.enginePost (s : State) (o part eid op access va : Nat) : State :=
  let p := s.teamPost o (.engine op) .pagef access (noticeWhere .pagef va) 0
  s.addPost (if isThread o || decide (2 ^ 64 ≤ o) then
      { p with part := part, eid := eid, fixid := 0xFFFFFFFF, team := 0,
               crew := if o < 2 ^ 64 then 0 else BitVec.ofNat 32 ((o - 2 ^ 64) % 2 ^ 16) }
    else p)

/-- When the stall at byte `k` of an operation began: the budget is that of one write (04 R95). -/
def stallAt (st : Option (Nat × Nat)) (k now : Nat) : Nat :=
  match st with
  | some (j, c) => if j = k then c else now
  | none => now

/-- The stall of an operation at byte `k` has lasted 2^20 cycles (04 R95). -/
def stallOver (st : Option (Nat × Nat)) (k now : Nat) : Bool := decide (stallAt st k now + 2 ^ 20 * 1000 ≤ now)

end Sys2Proof.Machine
end

