-- ==== Sys2Proof/Machine/Copy.lean ====
section
/-! DEFINITION. Tensor copies, compressed copies, weight-store loads and the refresh-window query (12 R318-R325, 11 R297,
R298). A copy-class operation takes effect at its retirement event (log 5). -/
namespace Sys2Proof.Machine

/-! ## Issue -/

/-- The rule of a copy instruction. -/
def ruleC (a : TArgs) : Rule := { guard := a.g, banned := true, srcs := [(a.a, 1)] }

/-- Bytes of the descriptor. -/
def CopyKind.size : CopyKind → Nat
  | .cpyt => 256
  | _ => 64

/-- The requester of a copy: its partition and enclave, world 2 outside any enclave. -/
def CopyOp.req (o : CopyOp) : Req := engReq o.part o.eid

/-- Reading the descriptor at `va` (R318, R321), under tag 0 (log 68): the operation holds it, waits for the page fault of
that read, or is to retire with a status and no completion word. The part of it below 2^57 is read first, and a page fault
that was declined ends it (R313). -/
def readDesc (s : State) (o : CopyOp) : State × CopyOp :=
  if o.va % 64 ≠ 0 then (s, { o with fin := some { st := stBadreq, inn := 0, out := 0, fl := 0, dfl := 0 } })
  else if o.decl ∨ 2 ^ 57 ≤ o.va then (s, { o with fin := some { st := stFault, inn := 0, out := 0, fl := 0, dfl := 0 } })
  else match readV s o.req .none .read (linesOf o.va (min o.kind.size (2 ^ 57 - o.va))) with
    | (s, .ok bs) =>
      if 2 ^ 57 < o.va + o.kind.size then (s, { o with fin := some { st := stFault, inn := 0, out := 0, fl := 0, dfl := 0 } })
      else (s, { o with desc := some bs })
    | (s, .error b) =>
      match moveEnd b with
      | .page va => (s, { o with token := some va })
      | .stop st => (s, { o with fin := some { st := st, inn := 0, out := 0, fl := 0, dfl := 0 } })
      | _ => (s, o)

/-- A new operation at the end of the engines' queue; one at a page fault posts its notice. -/
def addCopy (s : State) (o : CopyOp) : State :=
  let put := fun (s : State) (o : CopyOp) => { s with eng := { s.eng with copyOps := s.eng.copyOps ++ [o] } }
  match o.token with
  | none => put s o
  | some va => (put s { o with token := some (s.nextToken + 1) }).enginePost o.owner o.part o.eid o.id Kind.read.code va

/-- An implicit request for a copy engine (05 R123). -/
def implicitCpy (s : State) (p : Nat) : State :=
  let c := ((s.part p).cfg.map (fun c => c.cpyMax)).getD 0
  s.modPart p (fun x => { x with
    usedCpy := true, impCpy := x.impCpy || (c != 0 && !s.eng.bindCpy.any (fun x => x.2 == p + 1)) })

/-- CPYT and CPYZ: outside any enclave PERM (R318). -/
def startCopy (i : Instr) (k : CopyKind) (a : TArgs) (s : State) (c : Ctx) : Res :=
  c.once s (fun _ =>
    if s.eidOf c.a = 0 then c.trap s .perm
    else if c.t.cntFull .copy then c.wait s i 0 none
    else
      let b := c.t.rslot a.br.toNat
      let d := c.t.rslot (fnBits a.tfn 0 4)
      let p := s.partOf c.a
      let o : CopyOp :=
        { id := s.eng.nextOp, owner := s.ownOf c.a, agent := c.a, kind := k, part := p, eid := s.eidOf c.a, va := (c.t.opndU a.a).toNat,
          desc := none, src := b, dst := d, srcTag := (c.t.tagUse b).tag, dstTag := (c.t.tagUse d).tag,
          srcLife := s.tagLife p (c.t.tagUse b).tag, dstLife := s.tagLife p (c.t.tagUse d).tag, cc := a.cc.toNat, mark := .zero, seen := .zero, fin := none,
          token := none, decl := false, stall := none, cancel := false }
      let (s, o) := readDesc s o
      let s := ((s.takeOp).2.modTeam c.a (fun t => t.cntUp .copy))
      { s := implicitCpy (addCopy s o) p })

/-- CPYT (R318, R319). -/
def execCpyt (a : TArgs) (s : State) : Host.Outcome State Fault Refusal :=
  issues (.cpyt a) (ruleC a) s (startCopy (.cpyt a) .cpyt a s)

/-- CPYZ (R321, R322). -/
def execCpyz (a : TArgs) (s : State) : Host.Outcome State Fault Refusal :=
  issues (.cpyz a) (ruleC a) s (startCopy (.cpyz a) .cpyz a s)

/-! ## The descriptors -/

/-- A little-endian field as a two's-complement number. -/
def sfld (b : List Byte) (o n : Nat) : Int := sextI (bfld b o n) (8 * n)

/-- A CPYT descriptor (R318). -/
structure CpytDesc where
  src : Int
  dst : Int
  es  : Nat
  dims : List (Nat × Int × Int)    -- COUNT, SSTR, DSTR, dimension 0 first

/-- The descriptor when no limit is broken. -/
def cpytDesc (b : List Byte) : Option CpytDesc :=
  let nd := bfld b 0x18 1
  let es : Nat := 2 ^ bfld b 0x19 1
  let dims := (List.range (min nd 12)).map (fun k => (bfld b (0x20 + 16 * k) 4, sfld b (0x24 + 16 * k) 6, sfld b (0x2A + 16 * k) 6))
  let mult := fun (x : Int) => x % (es : Int) == 0
  if 1 ≤ nd ∧ nd ≤ 12 ∧ bfld b 0x19 1 ≤ 4 ∧ bfld b 0x10 8 % 32 = 0 ∧ zeroIn b 0x1A 6 ∧ zeroIn b 0xE0 32 ∧
     zeroIn b (0x20 + 16 * nd) (16 * (12 - nd)) ∧ dims.all (fun d => decide (1 ≤ d.1) && mult d.2.1 && mult d.2.2) ∧
     (dims.map (fun d => d.1)).prod ≤ 2 ^ 40 ∧ mult (sfld b 0 8) ∧ mult (sfld b 8 8)
  then some { src := sfld b 0 8, dst := sfld b 8 8, es := es, dims := dims } else none

/-- Source and destination offset of the k-th tuple, dimension 0 fastest (R319). -/
def tupleAt : List (Nat × Int × Int) → Nat → Int × Int
  | [], _ => (0, 0)
  | (n, a, b) :: t, k =>
    let r := tupleAt t (k / n)
    (((k % n : Nat) : Int) * a + r.1, ((k % n : Nat) : Int) * b + r.2)

/-- A CPYZ descriptor (R321). -/
structure CpyzDesc where
  src : Int
  dst : Int
  len : Nat
  mode : Nat
  k : Nat

/-- The descriptor when no limit is broken. -/
def cpyzDesc (b : List Byte) : Option CpyzDesc :=
  let m := bfld b 0x20 1
  let k := bfld b 0x21 1
  let len := bfld b 0x18 8
  if sfld b 0 8 % 4 = 0 ∧ sfld b 8 8 % 4 = 0 ∧ bfld b 0x10 8 % 32 = 0 ∧ len % 128 = 0 ∧ 128 ≤ len ∧ len ≤ 2 ^ 40 ∧ m ≤ 3 ∧
     (if m < 2 then k = 0 else 2 ≤ k ∧ k ≤ 24) ∧ zeroIn b 0x22 30
  then some { src := sfld b 0 8, dst := sfld b 8 8, len := len, mode := m, k := k } else none

/-! ## The codecs (R322) -/

/-- The ZWS encoding of a block. -/
def zwsPack (ws : List W32) : List W32 :=
  BitVec.ofNat 32 (((List.range 32).map (fun j => if ws.getD j 0 ≠ 0 then 2 ^ j else 0)).sum) :: ws.filter (fun w => w != 0)

/-- The block that a mask and its words encode. -/
def zwsUnpack (mask : W32) : Nat → List W32 → List W32
  | 0, _ => []
  | n + 1, ws =>
    if mask.getLsbD (31 - n) then (ws.headD 0) :: zwsUnpack mask n ws.tail else 0 :: zwsUnpack mask n ws

/-- The exponent field of an f32, and whether it is finite. -/
def expField (x : W32) : Nat := x.toNat / 2 ^ 23 % 256
def finite32 (x : W32) : Bool := expField x != 255

/-- E of a block. -/
def bfqE (xs : List W32) : Nat := max 1 (((xs.filter finite32).map expField).foldl max 0)

/-- The code of one value with the flags that it raises: |x| / Q is its significand over 2^(E + 25 − K − exponent). -/
def bfqCode (e k : Nat) (x : W32) : Int × W32 :=
  if !finite32 x then (-(2 : Int) ^ (k - 1), fIV)
  else
    let m := x.toNat % 2 ^ 23 + (if expField x = 0 then 0 else 2 ^ 23)
    let sh := e + 25 - k - max 1 (expField x)
    let q := m / 2 ^ sh
    let r := m % 2 ^ sh
    let q := if 2 ^ sh < 2 * r ∨ (2 ^ sh = 2 * r ∧ q % 2 = 1) then q + 1 else q
    let top := 2 ^ (k - 1) - 1
    let fl := flagIf (r ≠ 0) fNX ||| flagIf (top < q) fSAT
    ((if x.getLsbD 31 then -(min q top : Nat) else (min q top : Nat) : Int), fl)

/-- The BFQ encoding of a block as words, with the flags. -/
def bfqPack (k : Nat) (xs : List W32) : List W32 × W32 :=
  let e := bfqE xs
  let cs := xs.map (bfqCode e k)
  let n := (List.range 32).foldl (fun acc j => acc + wrapI (cs.getD j (0, 0)).1 k * 2 ^ (k * j)) 0
  (BitVec.ofNat 32 (e + k * 256) :: (List.range k).map (fun j => BitVec.ofNat 32 (n / 2 ^ (32 * j))),
   cs.foldl (fun f c => f ||| c.2) 0)

/-- The value of one code. -/
def bfqVal (e k : Nat) (c : Nat) : W32 :=
  let q := sextI c k
  if q = 0 then 0
  else if q = -(2 : Int) ^ (k - 1) then 0x7FC00000
  else BitVec.ofNat 32 (rnd .f32 .exact (XR.ofFin (q < 0) q.natAbs ((e : Int) - 125 - k))).pat

/-- The header of a BFQ block is valid for K. -/
def bfqOk (h : W32) (k : Nat) : Bool :=
  h.toNat % 256 != 0 && h.toNat % 256 != 255 && h.toNat / 256 % 256 == k && h.toNat / 65536 == 0

/-- The block of a payload. -/
def bfqUnpack (e k : Nat) (ws : List W32) : List W32 :=
  let n := leNat (ws.flatMap (fun w => leBytes 4 w.toNat))
  (List.range 32).map (fun j => bfqVal e k (n / 2 ^ (k * j) % 2 ^ k))

/-! ## Moving data -/

/-- A run of an operation's accesses so far; `mark` is the start of the unit that runs, and `acc` the kind of the access that
ended the run (16 R406). -/
structure CopyRun where
  s : State
  inn : Nat := 0
  out : Nat := 0
  fl : W32 := 0
  dfl : W32 := 0
  e : MoveEnd := .ok
  acc : Nat := 0
  mark : CopyMark := .zero

/-- A unit begins: unit `k`, with the offsets `a` and `b` further on. -/
def CopyRun.begin (r : CopyRun) (k : Nat) (a b : Int) : CopyRun :=
  { r with mark := { k := k, a := a, b := b, inn := r.inn, out := r.out, fl := r.fl, dfl := r.dfl } }

/-- The counts and flags of a run. -/
def CopyRun.seen (r : CopyRun) : CopyMark := { r.mark with inn := r.inn, out := r.out, fl := r.fl, dfl := r.dfl }

/-- An operation goes on where it stopped. -/
def CopyOp.resume (o : CopyOp) (s : State) : CopyRun :=
  { s := s, inn := o.mark.inn, out := o.mark.out, fl := o.mark.fl, dfl := o.mark.dfl, mark := o.mark }

def CopyOp.srcUse (o : CopyOp) : TagUse := { tag := o.srcTag, must := o.src.tagm == 1, life := some o.srcLife }
def CopyOp.dstUse (o : CopyOp) : TagUse := { tag := o.dstTag, must := o.dst.tagm == 1, life := some o.dstLife }

/-- The requester through one of the operation's records: the cache class is HINT.CC, or the record's (06 R148). -/
def CopyOp.reqOf (o : CopyOp) (b : Rec) : Req := { o.req with cls := if o.cc = 0 then b.cclass else o.cc }

/-- One read of `n` bytes at a source offset; a granule out of bounds counts no byte. -/
def CopyRun.read (r : CopyRun) (o : CopyOp) (off : Int) (n : Nat) : CopyRun × List Byte :=
  match moveRead r.s (o.reqOf o.src) o.srcUse o.src off n with
  | (s, .error e) => ({ r with s := s, e := e }, [])
  | (s, .ok bs) =>
    let oob := moveOob o.src off n
    ({ r with s := s, inn := if oob then r.inn else r.inn + n, dfl := r.dfl ||| flagIf oob dOOB }, bs)

/-- One write at a destination offset. -/
def CopyRun.write (r : CopyRun) (o : CopyOp) (off : Int) (bs : List Byte) : CopyRun :=
  match moveWrite r.s (o.reqOf o.dst) o.dstUse o.dst off bs with
  | (s, .ok) =>
    let oob := moveOob o.dst off bs.length
    { r with s := s, out := if oob then r.out else r.out + bs.length, dfl := r.dfl ||| flagIf oob dOOB }
  | (s, e) => { r with s := s, e := e, acc := Kind.write.code }

/-- `n` words from a source offset on. -/
def CopyRun.readWords (o : CopyOp) : CopyRun → Int → Nat → CopyRun × List W32
  | r, _, 0 => (r, [])
  | r, off, n + 1 =>
    match r.e with
    | .ok =>
      let (r, bs) := r.read o off 4
      let (r, ws) := CopyRun.readWords o r (off + 4) n
      (r, BitVec.ofNat 32 (leNat bs) :: ws)
    | _ => (r, [])

/-- Words written from a destination offset on. -/
def CopyRun.writeWords (o : CopyOp) (r : CopyRun) (off : Int) (ws : List W32) : CopyRun :=
  (ws.foldl (fun (x : CopyRun × Int) w =>
    match x.1.e with
    | .ok => (x.1.write o x.2 (leBytes 4 w.toNat), x.2 + 4)
    | _ => x) (r, off)).1

/-- CPYT: the tuples in order (R319). -/
def cpytRun (o : CopyOp) (d : CpytDesc) : CopyRun → Nat → Nat → CopyRun
  | r, _, 0 => r
  | r, k, n + 1 =>
    match r.e with
    | .ok =>
      let r := r.begin k 0 0
      let (x, y) := tupleAt d.dims k
      let (r, bs) := r.read o (d.src + x) d.es
      match r.e with
      | .ok => cpytRun o d (r.write o (d.dst + y) bs) (k + 1) n
      | _ => r
    | _ => r

/-- CPYZ: the last `n` blocks in order, at source offset `a` and destination offset `b` (R322). -/
def cpyzRun (o : CopyOp) (d : CpyzDesc) : CopyRun → Int → Int → Nat → CopyRun
  | r, _, _, 0 => r
  | r, a, b, n + 1 =>
    match r.e with
    | .ok =>
      let r := r.begin (d.len / 128 - (n + 1)) (a - d.src) (b - d.dst)
      if d.mode = 0 ∨ d.mode = 2 then
        let (r, ws) := r.readWords o a 32
        match r.e with
        | .ok =>
          let (out, fl) := if d.mode = 0 then (zwsPack ws, 0) else bfqPack d.k ws
          cpyzRun o d ({ r with fl := r.fl ||| fl }.writeWords o b out) (a + 128) (b + 4 * out.length) n
        | _ => r
      else
        let (r, h) := r.readWords o a 1
        match r.e with
        | .ok =>
          let h := h.headD 0
          if d.mode = 3 ∧ !bfqOk h d.k then { r with e := .stop stFormat }
          else
            let k := if d.mode = 1 then ((List.range 32).filter (fun j => h.getLsbD j)).length else d.k
            let (r, ws) := r.readWords o (a + 4) k
            match r.e with
            | .ok =>
              let out := if d.mode = 1 then zwsUnpack h 32 ws else bfqUnpack (h.toNat % 256) d.k ws
              cpyzRun o d (r.writeWords o b out) (a + 4 + 4 * k) (b + 128) n
            | _ => r
        | _ => r
    | _ => r

/-- WSLD: the lines of the source into the store (R324). A source beyond the address space is FAULT (R313). -/
def wsldRun (o : CopyOp) (die off src : Nat) : CopyRun → Nat → Nat → CopyRun
  | r, _, 0 => r
  | r, k, n + 1 =>
    match r.e with
    | .ok =>
      let r := r.begin k 0 0
      if 2 ^ 57 ≤ src + 128 * k then { r with e := .stop stFault }
      else match readV r.s o.req .none .read [(src + 128 * k, 128)] with
      | (s, .error b) => { r with s := s, e := moveEnd b }
      | (s, .ok bs) =>
        let key := die * 2 ^ 28 + off + 128 * k
        let s : State := { s with mem := { s.mem with
          ws := (List.range 128).foldl (fun m j => tset 0 m (key + j) (bs.getD j 0)) s.mem.ws
          badWs := s.mem.badWs.filter (fun x => x != key / 128) } }
        wsldRun o die off src { r with s := s, inn := r.inn + 128, out := r.out + 128 } (k + 1) n
    | _ => r

/-- A range of a die's weight store cleared to zero. -/
def State.zeroWs (s : State) (key n : Nat) : State :=
  { s with mem := { s.mem with
      ws := s.mem.ws.filter (fun x => !(decide (key ≤ x.1) && decide (x.1 < key + n)))
      badWs := s.mem.badWs.filter (fun x => !(decide (key / 128 ≤ x) && decide (x < (key + n) / 128))) } }

/-- Die, first granule and granules of a WSLD block. -/
def wsldRange (b : List Byte) : Nat × Nat × Nat := (bfld b 2 1, bfld b 4 2, bfld b 6 2)

/-! ## Retirement -/

/-- A partition's copies have an engine, or never wait for one (05 R123). -/
def engineFor (s : State) (o : CopyOp) : Bool :=
  match o.kind with
  | .wsld => true
  | _ => s.eng.bindCpy.any (fun x => x.2 == o.part + 1)

/-- CPYMAX is 0: the operation retires with BADREQ (05 R123). -/
def noCopies (s : State) (o : CopyOp) : Bool := o.kind != .wsld && ((s.part o.part).cfg.map (fun c => c.cpyMax)).getD 0 == 0

/-- The data part of an operation with its descriptor, from where it stopped last. -/
def copyData (s : State) (o : CopyOp) (b : List Byte) : CopyRun :=
  if noCopies s o then { s := s, e := .stop stBadreq }
  else if !s.engineOpen o.req then { s := s.fwBlock o.req .write o.va, e := .stop stFirewall }
  else match o.kind with
    | .cpyt =>
      match cpytDesc b with
      | none => { s := s, e := .stop stBadreq }
      | some d => cpytRun o d (o.resume s) o.mark.k ((d.dims.map (fun d => d.1)).prod - o.mark.k)
    | .cpyz =>
      match cpyzDesc b with
      | none => { s := s, e := .stop stBadreq }
      | some d => cpyzRun o d (o.resume s) (d.src + o.mark.a) (d.dst + o.mark.b) (d.len / 128 - o.mark.k)
    | .wsld =>
      let (die, g, n) := wsldRange b
      wsldRun o die (g * 65536) (bfld b 8 8) (o.resume s) o.mark.k (n * 512 - o.mark.k)

/-- The operation with another record of its progress. -/
def State.setCopyOp (s : State) (o : CopyOp) : State :=
  { s with eng := { s.eng with copyOps := s.eng.copyOps.map (fun x => if x.id = o.id then o else x) } }

/-- The operation waits at a page fault. -/
def State.copyPage (s : State) (o : CopyOp) (access va : Nat) : State :=
  (s.setCopyOp { o with token := some (s.nextToken + 1), decl := false }).enginePost o.owner o.part o.eid o.id access va

/-- The operation leaves the queue: its counter falls and its flags are ORed in (R311, R312). -/
def State.dropCopy (s : State) (o : CopyOp) (e : CopyEnd) : State :=
  let s : State := { s with eng := { s.eng with copyOps := s.eng.copyOps.filter (fun x => x.id != o.id) } }
  s.modOwn o.owner (fun t => (t.cntDown .copy s.clk.now (s.mcyc o.owner)).raise e.fl e.dfl)

/-- Who writes the completion word (R320): WSLD's word lies in world-2 space. -/
def CopyOp.wordReq (o : CopyOp) (s : State) : Req :=
  match o.kind with
  | .wsld => engReq 0 0
  | _ => { o.req with dep := (s.enc o.eid).st == .dying }

/-- The completion word (R320). -/
def copyWord (e : CopyEnd) : List Byte :=
  leBytes 1 e.st.toNat ++ leBytes 7 0 ++ leBytes 8 e.inn ++ leBytes 8 e.out ++ leBytes 8 0

/-- The completion word is written and the operation retires; a failed write is recorded (R320). -/
def copyFinish (s : State) (o : CopyOp) (e : CopyEnd) : State :=
  let o := { o with fin := some e }
  match o.desc with
  | none => s.dropCopy o e
  | some b =>
    let va := bfld b 0x10 8
    let fail := fun (s : State) => (s.log 0x09 0 (o.wordReq s).world 0 o.eid (BitVec.ofNat 64 va)).dropCopy o e
    if va % 32 ≠ 0 ∨ 2 ^ 57 ≤ va then fail s
    else match writeV s (o.wordReq s) .none .write none [(va, 32)] (copyWord e) with
      | (s, .ok _) => s.dropCopy o e
      | (s', .error x) =>
        match moveEnd x with
        | .page va => if o.decl || o.cancel then fail s' else s.copyPage o Kind.write.code va
        | .busy => s.setCopyOp o
        | _ => fail s'

/-- An error status of a WSLD clears its granules (R324). -/
def wsldClear (s : State) (o : CopyOp) (st : BitVec 8) : State :=
  match o.kind, o.desc with
  | .wsld, some b =>
    let (die, g, n) := wsldRange b
    if st = stOK then s else s.zeroWs (die * 2 ^ 28 + g * 65536) (n * 65536)
  | _, _ => s

/-- An operation that stops for good while it waits: what it has moved counts. -/
def CopyOp.endAt (o : CopyOp) (st : BitVec 8) : CopyEnd :=
  { st := st, inn := o.seen.inn, out := o.seen.out, fl := o.seen.fl, dfl := o.seen.dfl }

/-- The data part runs, and then the completion. At a page fault, or when it must wait, the bytes written so far remain
(R313). -/
def copyRunEnd (s : State) (o : CopyOp) (b : List Byte) : State :=
  let done := fun (s : State) (st : BitVec 8) (r : CopyRun) =>
    copyFinish (wsldClear s o st) { o with decl := false } { st := st, inn := r.inn, out := r.out, fl := r.fl, dfl := r.dfl }
  let hold := fun (r : CopyRun) => { o with mark := r.mark, seen := r.seen }
  if o.decl then copyFinish (wsldClear s o stFault) { o with decl := false } (o.endAt stFault)
  else
    let r := copyData s o b
    match r.e with
    | .ok => done r.s stOK r
    | .stop st => done r.s st r
    | .page va => r.s.copyPage (hold r) r.acc va
    | .full _ =>
      if stallOver o.stall r.out (s.mcycOf 0) then done r.s stTagexh r
      else r.s.setCopyOp { hold r with stall := some (r.out, stallAt o.stall r.out (s.mcycOf 0)) }
    | .busy => r.s.setCopyOp (hold r)

/-- The operation of a number, when no earlier one of its owner's copy class is outstanding. -/
def State.copyHead (s : State) (id : Nat) : Option CopyOp :=
  match s.eng.copyOps.find? (fun o => o.id == id) with
  | none => none
  | some o => if s.eng.copyOps.any (fun x => x.owner == o.owner && decide (x.id < id)) then none else some o

/-- There is no off-package write outstanding that a release at SYSTEM scope by the operation's team would wait for (R312,
14 R350); the writes of a control thread are counted in the thread. -/
def copyReleased (s : State) (o : CopyOp) : Bool :=
  !s.offWrites || (s.part o.part).apert == []

/-- COPY_OP_RETIRE (R320). -/
def execCopyOpRetire (op : Nat) (s : State) : Host.Outcome State Fault Refusal :=
  .next (match s.copyHead op with
    | none => s
    | some o =>
      if o.token.isSome || s.board.power != .on then s
      else match o.fin with
        | some e => copyFinish s o e
        | none =>
          if o.cancel then copyFinish (wsldClear s o stCancel) o (o.endAt stCancel)
          else match o.desc with
            | none =>
              let (s', o') := readDesc s o
              match o'.token with
              | some va => s.copyPage o Kind.read.code va
              | none =>
                match o'.fin with
                | some e => copyFinish s' o' e
                | none => s'.setCopyOp { o' with decl := false }
            | some b =>
              if !noCopies s o && (!engineFor s o || !copyReleased s o) then s
              else copyRunEnd s o b)

/-! ## WSLD (R323) -/

/-- The limits of a WSLD block. -/
def wsldOk (b : List Byte) : Bool :=
  let (die, g, n) := wsldRange b
  decide (die ≤ 7) && zeroIn b 3 1 && decide (g ≤ 4095) && decide (1 ≤ n) && decide (n ≤ 4096) && decide (g + n ≤ 4096) &&
    bfld b 8 8 % 65536 == 0 && bfld b 0x10 8 % 32 == 0 && zeroIn b 0x18 40

/-- A fixture of the enclave maps its granules of a die (11 R297, 13 R346). -/
def wsMapped (s : State) (eid die : Nat) : Bool :=
  s.crews.any (fun x => x.2.eid == eid && !x.2.done &&
    (match x.2.core with
     | some k => k / 96 == die
     | none => x.2.mops.any (fun o => match o.instr with | .ldwWs _ => true | _ => false)))

/-- A granule is the target of an outstanding WSLD. -/
def wsldBusy (s : State) (die g : Nat) : Bool :=
  s.eng.copyOps.any (fun o => o.kind == .wsld && o.desc.any (fun b =>
    let (d, f, n) := wsldRange b
    d == die && decide (f ≤ g) && decide (g < f + n)))

/-- The granules named by a block. -/
def wsldGrans (b : List Byte) : List Nat :=
  let (_, g, n) := wsldRange b
  (List.range n).map (fun j => g + j)

/-- The status of a WSLD whose block was read, in the table's order. -/
def wsldStatus (s : State) (b : List Byte) : Nat :=
  let eid := bfld b 0 2
  let (die, _, _) := wsldRange b
  let owner := fun g => tget 0 s.mem.gran (die * 4096 + g)
  if !wsldOk b then 0x02
  else if (s.enc eid).st = .free ∨ (s.enc eid).st = .dying then 0x08
  else if (s.enc eid).st ≠ .sealed then 0x07
  else if (wsldGrans b).any (fun g => owner g != 0 && owner g != eid) then 0x05
  else if (wsldGrans b).any (fun g => (owner g == eid && wsMapped s eid die) || wsldBusy s die g) then 0x09
  else 0x00

/-- WSLD (R323, R324). The result word echoes A[11:0] (02 R50). -/
def execWsld (a : TArgs) (s : State) : Host.Outcome State Fault Refusal :=
  issues (.wsld a) (ruleC a) s (fun c => c.once s (fun _ =>
    let va := (c.t.opndU a.a).toNat
    if !s.osThread c.a then c.trap s .perm
    else if c.t.cntFull .copy then c.wait s (.wsld a) 0 none
    else
      let res := fun (s : State) (id st : Nat) => s.modTeam c.a (fun t => t.setdU a.d (State.resWord id st))
      if va % 64 ≠ 0 then { s := res s va 0x02 }
      else match readBlock s (s.req c.a) va 64 with
        | (s, none) => { s := res s va 0x03 }
        | (s, some b) =>
          let eid := bfld b 0 2
          let st := wsldStatus s b
          if st ≠ 0 then { s := res s va st }
          else
            let (die, _, _) := wsldRange b
            let o : CopyOp :=
              { id := s.eng.nextOp, owner := s.ownOf c.a, agent := c.a, kind := .wsld, part := (s.enc eid).part, eid := eid, va := va,
                desc := some b, src := .null, dst := .null, srcTag := 0, dstTag := 0, srcLife := 0, dstLife := 0, cc := 0, mark := .zero, seen := .zero, fin := none, token := none,
                decl := false, stall := none, cancel := false }
            let s : State := { s with mem := { s.mem with
              gran := (wsldGrans b).foldl (fun m g => tset 0 m (die * 4096 + g) eid) s.mem.gran } }
            let s := addCopy ((s.takeOp).2.modTeam c.a (fun t => t.cntUp .copy)) o
            { s := res s va 0 }))

/-! ## Refresh windows (11 R298, R325) -/

/-- Nanoseconds from `now` to the next start of bank `b`'s window, and to the end of the window that it is in. -/
def wswinBank (now b : Nat) : Nat × Nat :=
  let x := (now + 32000 - 4000 * b) % 32000
  if x < 400 then (0, 400 - x) else (32000 - x, 0)

/-- WSWIN (R325). -/
def execWswin (a : SArgs) (s : State) : Host.Outcome State Fault Refusal :=
  issues (.wswin a) (ruleS a) s (fun c => c.once s (fun _ =>
    let (n, e) := wswinBank s.clk.now ((c.t.opndU a.a).toNat % 8)
    let v : W64 := if isThread c.a then 0
      else if fnBits a.sfn 0 1 = 0 then (wswinAt s.clk.now).setWidth 64
      else BitVec.ofNat 64 (n + e * 65536)
    { s := s.setTeam c.a (c.t.setdU a.d v) }))

end Sys2Proof.Machine
end

