-- ==== Sys2Proof/Machine/Approx.lean ====
section
/-! DEFINITION. The seven approximate functions (10 R275, R276). A reference value of each function is computed in fixed
point, close enough to hold the opaque candidate pattern of Config.approx against the stated bound; a candidate outside
the bound is replaced by the rounded reference (log 9). -/
namespace Sys2Proof.Machine

/-- floor(2π · 2^320). -/
def twoPi320 : Nat :=
  0x6487ed5110b4611a62633145c06e0e68948127044533e63a0105df531d89cd9128a5043cc71a026ef

/-- floor(ln 2 · 2^320). -/
def ln2x320 : Nat :=
  0xb17217f7d1cf79abc9e3b39803f2f6af40f343267298b62d8a0d175b8baafa2be7b876206debac98

/-- Σ x^i / i! from term i on, `term` being the last term, at scale 2^p. -/
def expGo (p x : Nat) : Nat → Nat → Nat → Nat
  | 0, _, _ => 0
  | k + 1, i, term => let t := term * x / 2 ^ p / i; t + expGo p x k (i + 1) t

/-- e^x at scale 2^p for 0 ≤ x < 32. -/
def expFix (p x : Nat) : Nat := 2 ^ p + expGo p x 160 1 (2 ^ p)

/-- The alternating sum of every second term of the series of e^x: the sine from i = 2 with term x, the cosine from
i = 1 with term 1. -/
def trigGo (p x : Nat) : Nat → Nat → Int → Int
  | 0, _, _ => 0
  | k + 1, i, term =>
    let t := -(term * (x : Int) / 2 ^ p * x / 2 ^ p / (i * (i + 1) : Nat))
    t + trigGo p x k (i + 2) t

/-- sin and cos of x at scale 2^128 for 0 ≤ x < 2π. -/
def sinFix (x : Nat) : Int := x + trigGo 128 x 40 2 x
def cosFix (x : Nat) : Int := 2 ^ 128 + trigGo 128 x 40 1 (2 ^ 128)

/-- The bits of log2 of m / 2^p below the point, for 1 ≤ m / 2^p < 2. -/
def log2Go (p : Nat) : Nat → Nat → Nat → Nat
  | 0, _, acc => acc
  | k + 1, m, acc =>
    let m2 := m * m / 2 ^ p
    if 2 ^ (p + 1) ≤ m2 then log2Go p k (m2 / 2) (2 * acc + 1) else log2Go p k m2 (2 * acc)

/-- The functions of Config.approx. -/
inductive ApproxFn where
  | rcp | rsq | exp2 | log2 | sin | cos | tanh
  deriving DecidableEq, Repr

def ApproxFn.code : ApproxFn → Nat
  | .rcp => 0 | .rsq => 1 | .exp2 => 2 | .log2 => 3 | .sin => 4 | .cos => 5 | .tanh => 6

/-- A signed rational. -/
structure Ref where
  num : Int
  den : Nat

/-- n · 2^e. -/
def Ref.pow (n : Int) (e : Int) : Ref := { num := n * 2 ^ e.toNat, den := 2 ^ (-e).toNat }

/-- The reference value of the function at ±n · 2^e with n > 0, within 2^−110 of the exact value, relatively, or
absolutely where 10 R275 bounds the absolute error. FRCP is exact. -/
def refVal (fn : ApproxFn) (neg : Bool) (n : Nat) (e : Int) : Ref :=
  match fn with
  | .rcp => { num := (if neg then -1 else 1) * ((2 ^ (-e).toNat : Nat) : Int), den := n * 2 ^ e.toNat }
  | .rsq =>
    let n2 := if e % 2 = 0 then n else 2 * n
    .pow ((isqrt (2 ^ 400 / n2) : Nat) : Int) (-200 - e / 2)
  | .exp2 =>
    let a : Int := if neg then -(((n * 2 ^ (e + 149).toNat : Nat)) : Int) else ((n * 2 ^ (e + 149).toNat : Nat) : Int)
    let k := max (-200) (min 200 (a / 2 ^ 149))
    let f := (a % 2 ^ 149).toNat
    .pow ((expFix 320 (f * ln2x320 / 2 ^ 149) : Nat) : Int) (k - 320)
  | .log2 =>
    let l := floorLog2 (n * 2 ^ e.toNat) (2 ^ (-e).toNat)
    .pow (l * 2 ^ 160 + (log2Go 480 160 (n * 2 ^ (480 - n.log2)) 0 : Nat)) (-160)
  | .sin =>
    let x := n * 2 ^ (e + 320).toNat % twoPi320
    .pow ((if neg then -1 else 1) * sinFix (x / 2 ^ 192)) (-128)
  | .cos =>
    let x := n * 2 ^ (e + 320).toNat % twoPi320
    .pow (cosFix (x / 2 ^ 192)) (-128)
  | .tanh =>
    let s : Int := if neg then -1 else 1
    if floorLog2 (n * 2 ^ e.toNat) (2 ^ (-e).toNat) < -26 then
      let d := 2 ^ (-e).toNat                              -- e < 0: the source is n / d, and the series a − a³/3 + 2a⁵/15
      { num := s * (((15 * n * d ^ 4 : Nat) : Int) - ((5 * n ^ 3 * d ^ 2 : Nat) : Int) + ((2 * n ^ 5 : Nat) : Int)), den := 15 * d ^ 5 }
    else if n * 2 ^ (e + 149).toNat < 15 * 2 ^ 149 then
      let y := expFix 192 (n * 2 ^ (e + 149).toNat * 2 ^ 44)
      { num := s * ((y : Int) - 2 ^ 192), den := y + 2 ^ 192 }
    else { num := s * (2 ^ 60 - 1), den := 2 ^ 60 }         -- below 1 by less than 2^−42, which no f32 tells apart

/-- ulp(y) (10 R275) as a power of two. -/
def ulpExp (y : Ref) : Int :=
  if y.num = 0 then -149 else max (floorLog2 y.num.natAbs y.den) (-126) - 23

/-- |r − y| ≤ b · 2^u, or < for FRCP and FRSQ, less 2^(u − 80) for a reference that is not exact. -/
def within (fn : ApproxFn) (r y : Ref) (b : Nat) (u : Int) : Bool :=
  let d := (r.num * y.den - y.num * r.den).natAbs * 2 ^ 80
  let w := r.den * y.den
  let lim := b * 2 ^ 80 - (if fn = .rcp then 0 else 1)
  let lhs := d * 2 ^ (-u).toNat
  let rhs := lim * w * 2 ^ u.toNat
  if fn = .rcp || fn = .rsq then lhs < rhs else lhs ≤ rhs

/-- The bound of 10 R275 at the source with exponent `l` = floor(log2 |a|): a multiple of a power of two. -/
def approxBound (fn : ApproxFn) (l : Int) (one : Bool) (y : Ref) : Nat × Int :=
  match fn with
  | .rcp => (1, ulpExp y)
  | .rsq => (1, ulpExp y)
  | .exp2 => (2, ulpExp y)
  | .log2 => if l = -1 ∨ l = 0 ∨ (l = 1 ∧ one) then (1, -23) else (2, ulpExp y)
  | .sin => (1, -22)
  | .cos => (1, -22)
  | .tanh => (2, ulpExp y)

/-- The range and sign rules of 10 R275: FSIN, FCOS and FTANH stay in [−1, 1], FTANH keeps the sign of its source, and
FRCP, FRSQ and FEXP2 give the sign of the exact value. -/
def approxRange (fn : ApproxFn) (neg : Bool) (r : W32) : Bool :=
  let mag := r.toNat % 2 ^ 31
  let s := Ty.negP .f32 r.toNat
  match fn with
  | .rcp => s == neg
  | .rsq | .exp2 => !s
  | .log2 => true
  | .sin | .cos => mag ≤ 0x3F800000
  | .tanh => mag ≤ 0x3F800000 && s == neg

/-- A candidate as a rational; the pattern of infinity stands for 2^128. -/
def candVal (r : W32) : Ref :=
  match Ty.val .f32 r.toNat with
  | .nan => .pow 0 0
  | .inf neg => .pow (if neg then -1 else 1) 128
  | .fin neg n e => .pow (if neg then -(n : Int) else n) e

/-- The result pattern r before FTZO and SAT, within the bound. -/
def approxPat (fn : ApproxFn) (ctl : Nat) (src : W32) (neg : Bool) (n : Nat) (e : Int) : Nat :=
  let y := refVal fn neg n e
  let l := floorLog2 (n * 2 ^ e.toNat) (2 ^ (-e).toNat)
  let b := approxBound fn l (n = 2 ^ n.log2) y
  let r := Config.approx fn.code ctl src
  if !Ty.isNaN .f32 r.toNat && approxRange fn neg r && within fn (candVal r) y b.1 b.2 then r.toNat
  else (rnd .f32 .exact (.fin (y.num < 0) y.num.natAbs y.den false)).pat

/-- The exact cases of 10 R275 for a finite source that is not zero. -/
def approxExact (fn : ApproxFn) (neg : Bool) (n : Nat) (e : Int) : Option XR :=
  let two := n = 2 ^ n.log2
  let l : Int := e + n.log2
  match fn with
  | .rcp => if two ∧ -l < 128 then some (.ofFin neg 1 (-l)) else none
  | .rsq => if two ∧ l % 2 = 0 then some (.ofFin false 1 (-(l / 2))) else none
  | .exp2 =>
    let i : Int := (if neg then -1 else 1) * ((n * 2 ^ e.toNat / 2 ^ (-e).toNat : Nat) : Int)
    if n * 2 ^ e.toNat % 2 ^ (-e).toNat = 0 ∧ -149 ≤ i ∧ i < 128 then some (.ofFin false 1 i) else none
  | .log2 => if two then some (.ofFin (l < 0) l.natAbs 0) else none
  | _ => none

/-- The special sources of 10 R276 and the exact cases of 10 R275; none where the bound decides. The flag is the one
that the table names. -/
def approxSpecial (fn : ApproxFn) (x : FV) : Option (XR × W32) :=
  match x with
  | .nan => some (.nan false, 0)
  | .inf neg =>
    match fn with
    | .rcp => some (.fin neg 0 1 false, 0)
    | .rsq => if neg then some (.nan true, 0) else some (.fin false 0 1 false, 0)
    | .exp2 => if neg then some (.fin false 0 1 false, 0) else some (.inf false, 0)
    | .log2 => if neg then some (.nan true, 0) else some (.inf false, 0)
    | .sin | .cos => some (.nan true, 0)
    | .tanh => some (.ofFin neg 1 0, 0)
  | .fin neg n e =>
    if n = 0 then
      match fn with
      | .rcp | .rsq => some (.inf neg, fDZ)
      | .exp2 | .cos => some (.ofFin false 1 0, 0)
      | .log2 => some (.inf true, fDZ)
      | .sin | .tanh => some (.fin neg 0 1 false, 0)
    else if neg && (fn = .rsq || fn = .log2) then some (.nan true, 0)
    else (approxExact fn neg n e).map (fun r => (r, 0))

/-- The result of an approximate function for a processed source (10 R275, R276); `src` is the source pattern. -/
def approxX (fn : ApproxFn) (v : FEnv) (src : W32) (p : Nat) : FOut :=
  let x := Ty.val .f32 p
  match approxSpecial fn x with
  | some (r, fl) => let o := rnd .f32 v r; { pat := o.pat, fl := fl ||| o.fl }
  | none =>
    match x with
    | .fin neg n e =>
      let ctl := (if v.fi then 1 else 0) + (if v.fo then 2 else 0) + (if v.sa then 4 else 0)
      let r := approxPat fn ctl src neg n e
      if Ty.isInf .f32 r then
        let o := ovf .f32 .rne (Ty.negP .f32 r) false v.sa
        { pat := o.pat, fl := o.fl }
      else
        let tiny := Ty.magP .f32 r < 2 ^ 23
        { pat := if v.fo && tiny then Ty.sgn .f32 (Ty.negP .f32 r) 0 else r, fl := fNX ||| flagIf tiny fUF }
    | _ => nanres .f32

end Sys2Proof.Machine
end

