-- ==== Sys2Proof/Machine/Floating.lean ====
section
/-! DEFINITION. The floating-point and conversion instructions (10 R261-R281): effective controls, the stochastic
generator's passes, sources, and one meaning per instruction over the exact arithmetic of `Float.lean`. -/
namespace Sys2Proof.Machine

/-! ## Controls and passes (06 R163, 08 R222, R228) -/

/-- The mode that an RMODE code selects; 6 and 7 act as RNE. -/
def rmode (k : Nat) : Rnd :=
  match Rnd.ofCode k with
  | some .dyn => .rne
  | some m => m
  | none => .rne

/-- Effective controls of a word, but for the random word. -/
def controls (t : Team) (r : Rnd) (fi fo sa : Bool) : FEnv :=
  if r = .dyn then { md := rmode (t.fpmode.toNat % 8), fi := t.fpmode.getLsbD 3, fo := t.fpmode.getLsbD 4,
                     sa := t.fpmode.getLsbD 5, w := 0 }
  else { md := r, fi := fi, fo := fo, sa := sa, w := 0 }

/-- Every operand is a uniform register, an immediate or vz: one pass (07 R178). -/
def scalarWord (a : RArgs) : Bool := a.d.isScalar && a.a.isScalar && a.b.isScalar && a.c.isScalar

/-- The passes of the instruction: mask words of the active mask, or one. -/
def passList (t : Team) (one : Bool) : List Nat := if one then (passWords t.cur).take 1 else passWords t.cur

/-- w_l (08 R222): the pass of lane `l` is the n-th that issues. -/
def laneWord (g : W32) (ps : List Nat) (one : Bool) (l : Nat) : W32 :=
  rotl (advN (if one then 1 else ps.idxOf (l / 32) + 1) g) (5 * (l % 32))

/-- A floating instruction: `f` gives a lane's result under its controls, and the generator has advanced once per pass
when the effective mode is SR. -/
def Ctx.flt (c : Ctx) (s : State) (a : RArgs) (wide : Bool) (f : Nat → FEnv → Except Cause LaneRes) : Res :=
  let v := controls c.t a.rnd a.ftzi a.ftzo a.sat
  let one := scalarWord a
  let ps := passList c.t one
  let r := c.perLane s a.d wide (fun l => f l { v with w := laneWord c.t.srseed ps one l })
  if v.md = .sr then { r with s := r.s.modTeam c.a (fun t => { t with srseed := advN ps.length c.t.srseed }) } else r

/-! ## Sources (R262) -/

/-- The pattern of a scalar source of type `ty`. -/
def Team.fpat (t : Team) (l : Nat) (ty : Ty) (o : Operand) : Except Cause Nat :=
  (t.rdData l ty.wide o).map (fun v => v.toNat % 2 ^ ty.bits)

/-- The value of a processed pattern. -/
def fval (ty : Ty) (o : FOut) : FV := Ty.val ty o.pat

/-- A lane's result with the flags of its sources and of its rounding. -/
def fltRes (o : FOut) (fl : W32) : LaneRes := { val := BitVec.ofNat 64 o.pat, fl := o.fl ||| fl }

/-- A product as an exact result. -/
def mulX (a b : FV) : XR :=
  match a.mul b with
  | none => .nan true
  | some v => v.toX

/-- One processed source of a lane. -/
def srcA1 (a : RArgs) (t : Team) (v : FEnv) (l : Nat) : Except Cause FOut :=
  (t.fpat l a.ty a.a).map (fsrc a.ty v.fi a.na a.aa)

def srcB1 (a : RArgs) (t : Team) (v : FEnv) (l : Nat) : Except Cause FOut :=
  (t.fpat l a.ty a.b).map (fsrc a.ty v.fi a.nb a.ab)

def srcC1 (a : RArgs) (t : Team) (v : FEnv) (l : Nat) : Except Cause FOut :=
  (t.fpat l a.ty a.c).map (fsrc a.ty v.fi a.nc a.ac)

/-- An instruction of two sources with one rounding of `f`. -/
def flt2 (i : Instr) (a : RArgs) (s : State) (f : Rnd → FV → FV → XR) : Host.Outcome State Fault Refusal :=
  issues i (ruleR a (nReg a.ty) (nReg a.ty) 1) s (fun c => c.flt s a a.ty.wide (fun l v => do
    let x ← srcA1 a c.t v l
    let y ← srcB1 a c.t v l
    .ok (fltRes (rnd a.ty v (f v.md (fval a.ty x) (fval a.ty y))) (x.fl ||| y.fl))))

/-- A fused multiply-add. -/
def flt3 (i : Instr) (a : RArgs) (s : State) : Host.Outcome State Fault Refusal :=
  issues i (ruleR a (nReg a.ty) (nReg a.ty) (nReg a.ty)) s (fun c => c.flt s a a.ty.wide (fun l v => do
    let x ← srcA1 a c.t v l
    let y ← srcB1 a c.t v l
    let z ← srcC1 a c.t v l
    .ok (fltRes (rnd a.ty v (sumX v.md [(fval a.ty x).mul (fval a.ty y), some (fval a.ty z)])) (x.fl ||| y.fl ||| z.fl))))

/-! ## Arithmetic (R267-R269) -/

/-- The exact sum of two sources. -/
def addX (md : Rnd) (x y : FV) : XR := sumX md [some x, some y]

/-- FADD (R267). -/
def execFadd (a : RArgs) (s : State) : Host.Outcome State Fault Refusal := flt2 (.fadd a) a s addX

/-- FSUB (R267): the addends are a and −b (R264). -/
def execFsub (a : RArgs) (s : State) : Host.Outcome State Fault Refusal := flt2 (.fsub a) a s (fun md x y => addX md x y.neg)

/-- FMUL (R267). -/
def execFmul (a : RArgs) (s : State) : Host.Outcome State Fault Refusal := flt2 (.fmul a) a s (fun _ x y => mulX x y)

/-- FFMA (R267). -/
def execFfma (a : RArgs) (s : State) : Host.Outcome State Fault Refusal := flt3 (.ffma a) a s

/-- DADD (R267). -/
def execDadd (a : RArgs) (s : State) : Host.Outcome State Fault Refusal := flt2 (.dadd a) a s addX

/-- DMUL (R267). -/
def execDmul (a : RArgs) (s : State) : Host.Outcome State Fault Refusal := flt2 (.dmul a) a s (fun _ x y => mulX x y)

/-- DFMA (R267). -/
def execDfma (a : RArgs) (s : State) : Host.Outcome State Fault Refusal := flt3 (.dfma a) a s

/-- FDIV (R268). -/
def execFdiv (a : RArgs) (s : State) : Host.Outcome State Fault Refusal :=
  issues (.fdiv a) (ruleR a (nReg a.ty) (nReg a.ty) 1) s (fun c => c.flt s a a.ty.wide (fun l v => do
    let x ← srcA1 a c.t v l
    let y ← srcB1 a c.t v l
    let q := divX (fval a.ty x) (fval a.ty y)
    .ok (fltRes (rnd a.ty v q.1) (x.fl ||| y.fl ||| flagIf q.2 fDZ))))

/-- FSQRT (R268). -/
def execFsqrt (a : RArgs) (s : State) : Host.Outcome State Fault Refusal :=
  issues (.fsqrt a) (ruleR a (nReg a.ty) 1 1) s (fun c => c.flt s a a.ty.wide (fun l v => do
    let x ← srcA1 a c.t v l
    .ok (fltRes (rnd a.ty v (sqrtX (fval a.ty x))) x.fl)))

/-- FMIN and FMAX (R269). -/
def fltMinMax (i : Instr) (a : RArgs) (s : State) (isMax : Bool) : Host.Outcome State Fault Refusal :=
  issues i (ruleR a (nReg a.ty) (nReg a.ty) 1) s (fun c => c.flt s a a.ty.wide (fun l v => do
    let x ← srcA1 a c.t v l
    let y ← srcB1 a c.t v l
    .ok (fltRes (minmaxF a.ty isMax x.pat y.pat) (x.fl ||| y.fl))))

/-- FMIN (R269). -/
def execFmin (a : RArgs) (s : State) : Host.Outcome State Fault Refusal := fltMinMax (.fmin a) a s false

/-- FMAX (R269). -/
def execFmax (a : RArgs) (s : State) : Host.Outcome State Fault Refusal := fltMinMax (.fmax a) a s true

/-! ## Packed instructions (R270, R271) -/

/-- The element type of a packed type. -/
def elemTy : Ty → Ty
  | .bf16x2 => .bf16
  | _ => .f16

/-- Element j of a packed word. -/
def half (x j : Nat) : Nat := x / 65536 ^ j % 65536

/-- The element of B that element j of the result uses (R270). -/
def bswElem (bsw j : Nat) : Nat :=
  match bsw with
  | 0 => j
  | 1 => 0
  | 2 => 1
  | _ => 1 - j

/-- A packed instruction: `f` gives one element of the result from the processed elements of A, B and C. -/
def packed (i : Instr) (a : RArgs) (s : State) (f : FEnv → FOut → FOut → FOut → FOut) : Host.Outcome State Fault Refusal :=
  issues i (ruleR a 1 1 1) s (fun c => c.flt s a false (fun l v => do
    let x ← c.t.rd32 l a.a
    let y ← c.t.rd32 l a.b
    let z ← c.t.rd32 l a.c
    let t := elemTy a.ty
    let el := fun j : Nat =>
      let p := fsrc t v.fi a.na a.aa (half x.toNat j)
      let q := fsrc t v.fi a.nb a.ab (half y.toNat (bswElem (fnBits a.fn 0 2) j))
      let r := fsrc t v.fi a.nc a.ac (half z.toNat j)
      let o := f { v with w := rotl v.w (4 * j) } p q r
      ({ pat := o.pat, fl := o.fl ||| p.fl ||| q.fl ||| r.fl } : FOut)
    .ok { val := BitVec.ofNat 64 ((el 0).pat + (el 1).pat * 65536), fl := (el 0).fl ||| (el 1).fl }))

/-- HADD2 (R270). -/
def execHadd2 (a : RArgs) (s : State) : Host.Outcome State Fault Refusal :=
  packed (.hadd2 a) a s (fun v p q _ => rnd (elemTy a.ty) v (addX v.md (fval (elemTy a.ty) p) (fval (elemTy a.ty) q)))

/-- HMUL2 (R270). -/
def execHmul2 (a : RArgs) (s : State) : Host.Outcome State Fault Refusal :=
  packed (.hmul2 a) a s (fun v p q _ => rnd (elemTy a.ty) v (mulX (fval (elemTy a.ty) p) (fval (elemTy a.ty) q)))

/-- HFMA2 (R270). -/
def execHfma2 (a : RArgs) (s : State) : Host.Outcome State Fault Refusal :=
  packed (.hfma2 a) a s (fun v p q r =>
    rnd (elemTy a.ty) v (sumX v.md [(fval (elemTy a.ty) p).mul (fval (elemTy a.ty) q), some (fval (elemTy a.ty) r)]))

/-- HMIN2 (R270). -/
def execHmin2 (a : RArgs) (s : State) : Host.Outcome State Fault Refusal :=
  packed (.hmin2 a) a s (fun _ p q _ => minmaxF (elemTy a.ty) false p.pat q.pat)

/-- HMAX2 (R270). -/
def execHmax2 (a : RArgs) (s : State) : Host.Outcome State Fault Refusal :=
  packed (.hmax2 a) a s (fun _ p q _ => minmaxF (elemTy a.ty) true p.pat q.pat)

/-- FDOT2 (R271): D and C are f32. -/
def execFdot2 (a : RArgs) (s : State) : Host.Outcome State Fault Refusal :=
  issues (.fdot2 a) (ruleR a 1 1 1) s (fun c => c.flt s a false (fun l v => do
    let x ← c.t.rd32 l a.a
    let y ← c.t.rd32 l a.b
    let z ← c.t.rd32 l a.c
    let t := elemTy a.ty
    let p := fun j : Nat => fsrc t v.fi a.na a.aa (half x.toNat j)
    let q := fun j : Nat => fsrc t v.fi a.nb a.ab (half y.toNat j)
    let r := fsrc .f32 v.fi a.nc a.ac z.toNat
    let prod := fun j : Nat => (fval t (p j)).mul (fval t (q j))
    .ok (fltRes (rnd .f32 v (sumX v.md [prod 0, prod 1, some (fval .f32 r)]))
      ((p 0).fl ||| (p 1).fl ||| (q 0).fl ||| (q 1).fl ||| r.fl))))

/-! ## Classes, integral rounding, scaling (R272-R274) -/

/-- FCLASS (R272). -/
def execFclass (a : RArgs) (s : State) : Host.Outcome State Fault Refusal :=
  issues (.fclass a) (ruleR a (nReg a.ty) 1 1) s (fun c => c.perLane s a.d false (fun l => do
    let w := fclassX a.ty (← c.t.fpat l a.ty a.a)
    .ok { val := w.setWidth 64, pw := [(fnBits a.fn 10 4, w.toNat &&& fnBits a.fn 0 10 != 0)] }))

/-- FRND (R273). -/
def execFrnd (a : RArgs) (s : State) : Host.Outcome State Fault Refusal :=
  issues (.frnd a) (ruleR a (nReg a.ty) 1 1) s (fun c => c.flt s a a.ty.wide (fun l v => do
    let x ← srcA1 a c.t v l
    .ok (fltRes (frndX a.ty v x.pat) x.fl)))

/-- The exponent of FSCL; none for the e8 NaN (R274). -/
def fsclExp (be8 : Bool) (b : W32) : Option Int :=
  if be8 then (if b.toNat % 256 = 0xFF then none else some ((b.toNat % 256 : Nat) - 127)) else some b.toInt

/-- FSCL (R274). -/
def execFscl (a : RArgs) (s : State) : Host.Outcome State Fault Refusal :=
  issues (.fscl a) (ruleR a (nReg a.ty) 1 1) s (fun c => c.flt s a a.ty.wide (fun l v => do
    let x ← srcA1 a c.t v l
    let b ← c.t.rd32 l a.b
    .ok (fltRes (fsclX a.ty v x.pat (fsclExp (fnBits a.fn 0 1 == 1) b)) x.fl)))

/-! ## Approximate functions (R275, R276) -/

/-- An approximate function of f32. -/
def approx1 (i : Instr) (a : RArgs) (s : State) (fn : ApproxFn) : Host.Outcome State Fault Refusal :=
  issues i (ruleR a 1 1 1) s (fun c => c.flt s a false (fun l v => do
    let raw ← c.t.fpat l .f32 a.a
    let x := fsrc .f32 v.fi a.na a.aa raw
    .ok (fltRes (approxX fn v (BitVec.ofNat 32 x.pat) x.pat) x.fl)))

/-- FRCP (R275). -/
def execFrcp (a : RArgs) (s : State) : Host.Outcome State Fault Refusal := approx1 (.frcp a) a s .rcp
/-- FRSQ (R275). -/
def execFrsq (a : RArgs) (s : State) : Host.Outcome State Fault Refusal := approx1 (.frsq a) a s .rsq
/-- FEXP2 (R275). -/
def execFexp2 (a : RArgs) (s : State) : Host.Outcome State Fault Refusal := approx1 (.fexp2 a) a s .exp2
/-- FLOG2 (R275). -/
def execFlog2 (a : RArgs) (s : State) : Host.Outcome State Fault Refusal := approx1 (.flog2 a) a s .log2
/-- FSIN (R275). -/
def execFsin (a : RArgs) (s : State) : Host.Outcome State Fault Refusal := approx1 (.fsin a) a s .sin
/-- FCOS (R275). -/
def execFcos (a : RArgs) (s : State) : Host.Outcome State Fault Refusal := approx1 (.fcos a) a s .cos
/-- FTANH (R275). -/
def execFtanh (a : RArgs) (s : State) : Host.Outcome State Fault Refusal := approx1 (.ftanh a) a s .tanh

/-! ## Conversions (R277-R281) -/

/-- The source type of CVT and CVTPK. -/
def styOf (fn : BitVec 20) : Ty := (Ty.ofCode (fnBits fn 0 8)).getD .b32

/-- Element `e` of a source operand (R277). -/
def Team.elem (t : Team) (l : Nat) (st : Ty) (e : Nat) (o : Operand) : Except Cause Nat :=
  (t.rdData l st.wide o).map (fun v => v.toNat / 2 ^ (st.bits * e) % 2 ^ st.bits)

/-- CVT (R277). -/
def execCvt (a : RArgs) (s : State) : Host.Outcome State Fault Refusal :=
  issues (.cvt a) (ruleR a (nReg (styOf a.fn)) 1 1) s (fun c => c.flt s a a.ty.wide (fun l v => do
    let p ← c.t.elem l (styOf a.fn) (fnBits a.fn 8 4) a.a
    let o := convert (styOf a.fn) a.ty v a.na a.aa p
    .ok { val := Ty.extend a.ty o.1.pat, fl := o.1.fl, dfl := flagIf o.2 dBADT }))

/-- `base` with element `pos` of width n replaced. -/
def putElem (n base pos e : Nat) : Nat :=
  base - base / 2 ^ (n * pos) % 2 ^ n * 2 ^ (n * pos) + e % 2 ^ n * 2 ^ (n * pos)

/-- CVTPK (R281). -/
def execCvtpk (a : RArgs) (s : State) : Host.Outcome State Fault Refusal :=
  issues (.cvtpk a) (ruleR a (nReg (styOf a.fn)) (nReg (styOf a.fn)) 1) s (fun c => c.flt s a false (fun l v => do
    let st := styOf a.fn
    let p ← c.t.elem l st 0 a.a
    let q ← c.t.elem l st 0 a.b
    let base ← c.t.rd32 l a.c
    let x := convert st a.ty v a.na a.aa p
    let y := convert st a.ty { v with w := rotl v.w 4 } a.nb a.ab q
    let pos := fnBits a.fn 8 3
    .ok { val := BitVec.ofNat 64 (putElem a.ty.bits (putElem a.ty.bits base.toNat pos x.1.pat) (pos + 1) y.1.pat),
          fl := x.1.fl ||| y.1.fl, dfl := flagIf (x.2 || y.2) dBADT }))

end Sys2Proof.Machine
end

