-- ==== Sys2Proof/Machine/Scratch.lean ====
section
/-! DEFINITION. The scratchpad instructions (11 R282-R286, 12 R308) and the cache and instruction-cache controls (12 R309,
11 R292-R296). -/
namespace Sys2Proof.Machine

/-! ## Scratchpad bytes -/

def Crew.spByte (c : Crew) (i : Nat) : Byte := tget 0 c.sp i
def Crew.spRead (c : Crew) (i n : Nat) : List Byte := (List.range n).map (fun j => c.spByte (i + j))

/-- A store; a word written whole holds correct data (log 22). -/
def Crew.spWrite (c : Crew) (i : Nat) (bs : List Byte) : Crew :=
  { c with
    sp := (List.range bs.length).foldl (fun m j => tset 0 m (i + j) (bs.getD j 0)) c.sp
    badSp := c.badSp.filter (fun w => !(decide (i ≤ 4 * w) && decide (4 * w + 4 ≤ i + bs.length))) }

/-- A word of the bytes holds uncorrectable data. -/
def Crew.spBad (c : Crew) (i n : Nat) : Bool :=
  c.badSp.any (fun w => decide (i < 4 * w + 4) && decide (4 * w < i + n))

/-- a(l) of R303 (R282): crew-relative, misaligned first. `cr` is the crew whose allocation is addressed, none when the
rank names no crew (R286). -/
def spAddr (t : Team) (cr : Option Crew) (a : MArgs) (l n : Nat) : Except Cause Nat :=
  match t.rd32 l a.a with
  | .error x => .error x
  | .ok v =>
    let i : Int := (v.toNat : Int) + a.disp.toInt
    if i % n ≠ 0 then .error .misalign
    else match cr with
      | none => .error .oob
      | some c => if i < 0 ∨ 128 * (c.sprows : Int) < i + n then .error .oob else .ok i.toNat

/-! ## Bank passes (R284) -/

/-- Cycles of one group: the largest number of distinct words in one bank. A word is tagged with its lane for ATOMS. -/
def bankCycles (ws : List (Nat × Nat)) : Nat :=
  ((List.range 32).map (fun b => ((ws.filter (fun w => w.1 % 32 == b)).eraseDups).length)).foldl max 0

/-- Cycles of one pass for its requests (position, address). -/
def passCycles (n : Nat) (atom : Bool) (rq : List (Nat × Nat)) : Nat :=
  let g := if n ≤ 4 then 32 else 128 / n
  ((List.range (32 / g)).map (fun k =>
    bankCycles ((rq.filter (fun x => x.1 / g == k)).flatMap (fun x =>
      (List.range ((n + 3) / 4)).map (fun j => (x.2 / 4 + j, if atom then x.1 else 0)))))).sum

/-! ## The lanes of a scratchpad instruction -/

/-- What one lane does at its address: the crew's new contents and the team's. -/
abbrev SpLane := Crew → Team → Nat → Nat → Except Cause (Crew × Team)

/-- The accumulated crew, team, traps and requests. -/
structure SpAcc where
  cr : Crew
  t : Team
  k : Traps := []
  rq : List (Nat × Nat) := []

/-- One lane. -/
def SpAcc.lane (c : Ctx) (known : Bool) (a : MArgs) (n : Nat) (f : SpLane) (r : SpAcc) (l : Nat) : SpAcc :=
  match spAddr c.t (if known then some r.cr else none) a l n with
  | .error x => { r with k := r.k ++ [(l, x)] }
  | .ok i =>
    match f r.cr r.t l i with
    | .error x => { r with k := r.k ++ [(l, x)] }
    | .ok (cr, t) => { r with cr := cr, t := t, rq := r.rq ++ [(l, i)] }

/-- A scratchpad instruction over the lanes of T: `n` crew number of the target. With `uni` the one access stands for
every lane of T. -/
def Ctx.spRun (c : Ctx) (s : State) (a : MArgs) (target : Option Nat) (atom uni : Bool) (f : SpLane) : Res :=
  let n := a.vec.n * esOf a.ty
  let ls := if uni then c.ls.take 1 else c.ls
  let r := ls.foldl (SpAcc.lane c target.isSome a n f) { cr := s.crew (target.getD 0), t := c.t }
  let cost := ((passWords c.m).map (fun w =>
    passCycles n atom ((r.rq.filter (fun x => x.1 / 32 == w)).map (fun x => (x.1 % 32, x.2))))).sum
  let s := match target with
    | some k => s.setCrew k r.cr
    | none => s
  { s := s.setTeam c.a { r.t with sppass := r.t.sppass + BitVec.ofNat 64 cost },
    k := if uni then (match r.k with | [] => [] | (_, x) :: _ => trapAll c.t.width c.m x) else r.k }

/-- A load's lane. -/
def spLoad (a : MArgs) : SpLane := fun cr t l i =>
  match t.destOf l (argRegs a) a.d with
  | .error x => .error x
  | .ok base =>
    let n := a.vec.n * esOf a.ty
    if cr.spBad i n then .error .ue
    else .ok (cr, t.putElems l a.ty a.vec.n a.d base (cr.spRead i n))

/-- A store's lane; its data come from the team before the instruction. -/
def spStore (c : Ctx) (a : MArgs) : SpLane := fun cr t l i =>
  match c.t.storeBytes l a.ty a.vec.n a.d with
  | .error x => .error x
  | .ok bs => .ok (cr.spWrite i bs, t)

/-- An atomic's lane. -/
def spAtom (c : Ctx) (a : MArgs) : SpLane := fun cr t l i =>
  let n := esOf a.ty
  match c.t.destOf l (argRegs a) a.d, c.t.opP l a.ty a.b with
  | .error x, _ => .error x
  | _, .error x => .error x
  | .ok base, .ok v =>
    if cr.spBad i n then .error .ue
    else
      let old := cr.spRead i n
      .ok (cr.spWrite i (leBytes n (newVal a.mfn.toNat a.ty (leNat old) v)), t.putElems l a.ty 1 a.d base old)

/-- The sources of a scratchpad instruction. -/
def ruleSp (a : MArgs) (srcs : List (Operand × Nat)) : Rule := { guard := a.g, srcs := srcN a.a 1 :: srcs }

/-- The data operand of a store as a source. -/
def storeSrc (a : MArgs) : Operand × Nat := (a.d, if a.d.isUni then a.vec.n else argRegs a)

/-- LDS (R308). -/
def execLds (a : MArgs) (s : State) : Host.Outcome State Fault Refusal :=
  issues (.lds a) (ruleSp a []) s (fun c => c.spRun s a (some (crewNo c.a)) false a.d.isUni (spLoad a))

/-- STS (R308). -/
def execSts (a : MArgs) (s : State) : Host.Outcome State Fault Refusal :=
  issues (.sts a) (ruleSp a [storeSrc a]) s (fun c =>
    c.spRun s a (some (crewNo c.a)) false false (spStore c a))

/-- ATOMS (R308). -/
def execAtoms (a : MArgs) (s : State) : Host.Outcome State Fault Refusal :=
  issues (.atoms a) (ruleSp a [srcN a.b (nReg a.ty)]) s (fun c =>
    c.spRun s a (some (crewNo c.a)) true false (spAtom c a))

/-- The crew of a rank in the issuing squad (R286). -/
def State.rankCrew (s : State) (a rank : Nat) : Option Nat :=
  let me := s.crew (crewNo a)
  match me.squad with
  | none => none
  | some q =>
    if (s.fixture me.fx).desc.squad ≤ rank then none
    else (s.crews.find? (fun x => x.2.fx == me.fx && x.2.squad == some q && x.2.rank == rank)).map (·.1)

/-- LDQ (R308). -/
def execLdq (a : MArgs) (s : State) : Host.Outcome State Fault Refusal :=
  issues (.ldq a) (ruleSp a [srcN a.b 1]) s (fun c =>
    c.spRun s a (s.rankCrew c.a ((c.t.opndU a.b).toNat % 256)) false false (spLoad a))

/-- STQ (R308). -/
def execStq (a : MArgs) (s : State) : Host.Outcome State Fault Refusal :=
  issues (.stq a) (ruleSp a [srcN a.b 1, storeSrc a]) s (fun c =>
    c.spRun s a (s.rankCrew c.a ((c.t.opndU a.b).toNat % 256)) false false (spStore c a))

/-! ## Cache controls (R309) -/

/-- The physical place of the line of `va` for a request that passed its checks: none through an aperture and for an
unmaterialised cell. -/
def State.linePa (s : State) (r : Req) (g : TagUse) (va : Nat) : Line1 → Option Nat
  | .remote _ _ => none
  | .hbm pfn i =>
    if i.tagged && g.tag != 0 then (s.cellOf r.part pfn (va / 4096 % 16) g.tag).map (fun p => p + va % 4096 / 128 * 128)
    else some (pfn * 65536 + va % 65536 / 128 * 128)

/-- PIN of a line (11 R296, 12 R309): whether it is pinned afterwards. A line that is there counts on against the partition
that allocated it; one that is not is allocated for the requester's, when its partition may hold one more line of the slice. -/
def State.pinLine (s : State) (r : Req) (pa : Nat) : State × Bool :=
  let key := mscKey pa
  let ls := tget [] s.caches.msc key
  let pinned := (ls.filter (fun x => x.pin.isSome)).length
  let put := fun (ls : List Line) => (s.modCaches (fun c => { c with msc := tset [] c.msc key ls }), true)
  match ls.find? (fun x => x.addr == pa) with
  | some x =>
    if x.pin.isSome then (s, true)
    else if pinned < 15 && r.owner.all (fun p => x.part != some p || decide (s.sliceHeld p pa ≤ s.ceiling p)) then
      put (ls.map (fun y => if y.addr = pa then { y with pin := some r.eid } else y))
    else (s, false)
  | none =>
    let x : Line := { eid := 0, addr := pa, tag := 0, part := r.owner, cls := 0, pin := some r.eid }
    if pinned < 15 && s.unitState (.slice (channelOf pa)) == .inService && r.owner.all (fun p => !s.atCeiling p pa) then
      put (fillSet 16 x ls)
    else (s, false)

/-- UNPIN of a line. -/
def State.unpinLine (s : State) (r : Req) (pa : Nat) : State :=
  let key := mscKey pa
  let ls := (tget [] s.caches.msc key).map (fun x => if x.addr == pa && x.pin == some r.eid then { x with pin := none } else x)
  { s with caches := { s.caches with msc := tset [] s.caches.msc key ls } }

/-- The core that a cache belongs to: SIMT core 0 to 767, control core 768 to 831. -/
def State.cacheCore (s : State) (a : Nat) : Nat := s.coreOf a

/-- Lines of a cache without those that `p` names. -/
def dropLines (t : List (Nat × List Line)) (k : Nat) (p : Line → Bool) : List (Nat × List Line) :=
  tset [] t k ((tget [] t k).filter (fun x => !p x))

/-- CINV of a line in the issuing core's L1. -/
def State.cinvLine (s : State) (a : Nat) (eid va : Nat) : State :=
  { s with caches := { s.caches with
      l1 := dropLines s.caches.l1 (l1Key (s.cacheCore a) va) (fun x => x.eid == eid && x.addr == va / 128 * 128) } }

/-- CFLUSH of a line in the cluster's L2 and L1s; values are unchanged (R292). -/
def State.cflushLine (s : State) (a : Nat) (eid va : Nat) (pa : Option Nat) : State :=
  let cl := s.clusterOf a
  let drop := fun (x : Line) => x.eid == eid && x.addr == va / 128 * 128
  { s with caches := { s.caches with
      l1 := s.caches.l1.foldl (fun t x => if State.clusterOfCore (x.1 / 64) == cl then dropLines t x.1 drop else t) s.caches.l1
      l2 := match pa with
        | some p => dropLines s.caches.l2 (l2Key cl p) (fun x => x.addr == p)
        | none => s.caches.l2 } }

/-- The cores whose instruction caches are in a scope (R309). -/
def State.icScope (s : State) (a : Nat) (sc : Scope) (core : Nat) : Bool :=
  match sc with
  | .team | .crew => core == s.cacheCore a
  | .squad => State.clusterOfCore core == s.clusterOf a
  | .device | .system => true

/-- ICINV: the blocks of [va, va + n) of the enclave leave the instruction caches of the scope. -/
def State.icinvRange (s : State) (a : Nat) (sc : Scope) (eid va n : Nat) : State :=
  { s with caches := { s.caches with
      icache := (s.caches.icache.map (fun x =>
        if s.icScope a sc x.1 then (x.1, x.2.filter (fun b => !(b.eid == eid && decide (va ≤ b.va) && decide (b.va < va + n)))) else x)).filter
          (fun x => x.2 != []) } }

/-- One lane of a control: its address as a 4-byte access, its translation, then `f` with the line's place; `skip` when the
access lies out of bounds under the ZERO policy. -/
def lineLane (c : Ctx) (a : MArgs) (k : Kind) (skip : State → Nat → State) (f : State → Nat → Nat → Option Nat → State) (s : State) (l : Nat) : Ans Unit :=
  let r := c.accReq s a
  let g := c.t.tagUse (c.t.rslot a.br.toNat)
  match laneAddr c s a l 4 4 with
  | (s, .error x) => causeAns s x (failVa c a l)
  | (s, .ok ad) =>
    if ad.oob 4 then (skip s l, .ok ())
    else match trLine s r g k none ad.va with
      | (s, .error b) => (s, .error b)
      | (s, .ok ln) => (f s l ad.va (s.linePa r g ad.va ln), .ok ())

/-- PREF of a line into the caches from level `lvl` down (R309, 11 R293, R295). -/
def State.prefLine (s : State) (r : Req) (tag : BitVec 16) (cls lvl va pa : Nat) : State :=
  s.fillRead { r with cls := cls, core := if lvl = 0 then r.core else none, cl := if lvl ≤ 1 then r.cl else none } tag va pa

/-- The context tag of a line in the caches: that of the access on a tagged page, else 0. -/
def TagUse.lineTag (g : TagUse) : Line1 → BitVec 16
  | .hbm _ i => if i.tagged then g.tag else 0
  | .remote _ _ => 0

/-- PREF (R309): a lane whose access would fail, reach an aperture or an unmaterialised inherit cell is skipped. -/
def execPref (a : MArgs) (s : State) : Host.Outcome State Fault Refusal :=
  issues (.pref a) (ruleM (s.team s.cur) a []) s (fun c =>
    let r := s.req c.a
    let b := c.t.rslot a.br.toNat
    let g := c.t.tagUse b
    let cls := if a.cc.toNat = 0 then b.cclass else a.cc.toNat
    c.memRun s (.pref a) a .read 4 4 false (fun s l =>
      match c.t.offset b l a.a a.disp with
      | .error x => causeAns s x 0
      | .ok _ =>
        match c.t.address b l a.a a.disp 4 4 with
        | .error _ => (s, .ok ())
        | .ok ad =>
          if ad.oob 4 then (s, .ok ())
          else match trLine s r g .read none ad.va with
            | (_, .error _) => (s, .ok ())
            | (s, .ok ln) =>
              match s.linePa r g ad.va ln with
              | none => (s, .ok ())
              | some pa => (s.prefLine r (g.lineTag ln) cls a.mfn.toNat ad.va pa, .ok ())))

/-- The predicate of PIN in a lane. -/
def pinPred (c : Ctx) (a : MArgs) (s : State) (l : Nat) (b : Bool) : State :=
  s.modTeam c.a (fun t => t.setPredLane a.mfn.toNat l b)

/-- PIN (R309, 11 R296). -/
def execPin (a : MArgs) (s : State) : Host.Outcome State Fault Refusal :=
  issues (.pin a) (ruleM (s.team s.cur) a []) s (fun c =>
    c.memRun s (.pin a) a .read 4 4 false (lineLane c a .read (fun s l => pinPred c a s l false) (fun s l _ pa =>
      match pa with
      | none => pinPred c a s l false
      | some pa => let (s, ok) := s.pinLine (s.req c.a) pa; pinPred c a s l ok)))

/-- UNPIN (R309). -/
def execUnpin (a : MArgs) (s : State) : Host.Outcome State Fault Refusal :=
  issues (.unpin a) (ruleM (s.team s.cur) a []) s (fun c =>
    c.memRun s (.unpin a) a .read 4 4 false (lineLane c a .read (fun s _ => s) (fun s _ _ pa =>
      match pa with
      | none => s
      | some pa => s.unpinLine (s.req c.a) pa)))

/-- CINV (R309). -/
def execCinv (a : MArgs) (s : State) : Host.Outcome State Fault Refusal :=
  issues (.cinv a) (ruleM (s.team s.cur) a []) s (fun c =>
    c.memRun s (.cinv a) a .read 4 4 false (lineLane c a .read (fun s _ => s) (fun s _ va _ => s.cinvLine c.a (s.eidOf c.a) va)))

/-- CFLUSH (R309): with HBM the memory-side line is written to HBM and kept, which changes no presence. -/
def execCflush (a : MArgs) (s : State) : Host.Outcome State Fault Refusal :=
  issues (.cflush a) (ruleM (s.team s.cur) a []) s (fun c =>
    c.memRun s (.cflush a) a .read 4 4 false (lineLane c a .read (fun s _ => s) (fun s _ va pa => s.cflushLine c.a (s.eidOf c.a) va pa)))

/-- ICINV (R309): the block, or the page with PAGE 1. -/
def execIcinv (a : MArgs) (s : State) : Host.Outcome State Fault Refusal :=
  issues (.icinv a) (ruleM (s.team s.cur) a []) s (fun c =>
    c.memRun s (.icinv a) a .icinv 4 4 false (lineLane c a .icinv (fun s _ => s) (fun s _ va _ =>
      if fnBits a.mfn 0 1 = 1 then s.icinvRange c.a a.scope (s.eidOf c.a) (va / 65536 * 65536) 65536
      else s.icinvRange c.a a.scope (s.eidOf c.a) (va / 64 * 64) 64)))

end Sys2Proof.Machine
end

