-- ==== Sys2Proof/Machine/Tiles.lean ====
section
/-! DEFINITION. The tile table and the tile engine (11 R287-R291, 12 R310-R317). An operation takes effect at its
completion event (log 5). -/
namespace Sys2Proof.Machine

/-! ## Tiles of a crew -/

/-- The entry of R288. -/
def Tile.word (t : Tile) : W64 :=
  BitVec.ofNat 64 (t.base + t.hm1 * 2 ^ 12 + t.rwm1 * 2 ^ 24 + Ty.code t.ty * 2 ^ 27 +
    (match t.st with | .empty => 0 | .filling => 1 | .ready => 2 | .draining => 3) * 2 ^ 35 + bit t.ph * 2 ^ 37)

/-- EMPTY or READY. -/
def Tile.idle (t : Tile) : Bool := t.st == .empty || t.st == .ready

/-- The tiles that a matrix operation names and holds until it retires (13 R333). -/
def tilesNamed : Instr → List Nat
  | .ldw a => [a.ta.toNat]
  | .mma a => [a.ta.toNat]
  | .mmas a => [a.ta.toNat]
  | .ald a => [a.ta.toNat]
  | .amovTile a => [a.ta.toNat]
  | .scacc a => [a.ta.toNat, a.tb.toNat]
  | _ => []

/-- A matrix operation of the crew holds the tile (13 R333). -/
def Crew.held (c : Crew) (k : Nat) : Bool := c.mops.any (fun o => (tilesNamed o.instr).contains k)

/-- A scratchpad row of tile row `r`, as a byte address. -/
def Tile.rowAt (t : Tile) (r : Nat) : Nat := 128 * (t.base + r * (t.rwm1 + 1))

/-! ## Issue -/

/-- The rule of a tile instruction: TA names a tile of the crew (06 R153), and a power-fail handler may run none but TSTAT (17 R433). -/
def ruleT (s : State) (a : TArgs) (banned : Bool) : Rule :=
  { guard := a.g, ctx := decide (a.ta.toNat < (s.crew (crewNo s.cur)).tiles), banned := banned,
    srcs := [(a.a, 1), (a.b, 1)] }

/-- What the tile instruction waits for: the tile in a state that `ok` allows, held by no matrix operation. -/
def tileFree (c : Crew) (k : Nat) (ok : Tile → Bool) : Bool := ok (c.tileAt k) && !c.held k

/-- TDECL (R315). -/
def execTdecl (a : TArgs) (s : State) : Host.Outcome State Fault Refusal :=
  issues (.tdecl a) (ruleT s a true) s (fun c => c.once s (fun _ =>
    let cr := s.crew (crewNo c.a)
    let k := a.ta.toNat
    let x := c.t.opndU a.a
    if !tileFree cr k (fun t => t.st == .empty) then c.wait s (.tdecl a) 0 none
    else if cr.sprows < fnBits x 0 12 + (fnBits x 12 12 + 1) * (fnBits x 24 3 + 1) then c.trap s .oob
    else
      let t := { cr.tileAt k with base := fnBits x 0 12, hm1 := fnBits x 12 12, rwm1 := fnBits x 24 3, ty := a.ty.getD .b32 }
      { s := s.setCrew (crewNo c.a) (cr.setTile k t) }))

/-- TFREE (R315). -/
def execTfree (a : TArgs) (s : State) : Host.Outcome State Fault Refusal :=
  issues (.tfree a) (ruleT s a true) s (fun c => c.once s (fun _ =>
    let cr := s.crew (crewNo c.a)
    let k := a.ta.toNat
    if !tileFree cr k Tile.idle then c.wait s (.tfree a) 0 none
    else { s := s.setCrew (crewNo c.a) (cr.setTile k { Tile.reset with ph := (cr.tileAt k).ph }) }))

/-- TSTAT (R315): never waits. -/
def execTstat (a : TArgs) (s : State) : Host.Outcome State Fault Refusal :=
  issues (.tstat a) (ruleT s a false) s (fun c => c.once s (fun _ =>
    let t := (s.crew (crewNo c.a)).tileAt a.ta.toNat
    { s := s.setTeam c.a (c.t.setdU a.d (if fnBits a.tfn 0 1 = 1 then t.lstat.setWidth 64 else t.word)) }))

/-- Offset or pitch: sext(opnd[31:0], 32). -/
def Team.opndI (t : Team) (o : Operand) : Int := ((t.opndU o).setWidth 32 : W32).toInt

/-- The operation that TFILL, TMCAST or TDRAIN starts. -/
def tileOp (c : Ctx) (s : State) (a : TArgs) (k : TileKind) (dests : List (Nat × DestState)) (bad : Bool) : TileOp :=
  let b := c.t.rslot a.br.toNat
  let t := (s.crew (crewNo c.a)).tileAt a.ta.toNat
  { id := s.eng.nextOp, agent := c.a, kind := k, tile := a.ta.toNat, hm1 := t.hm1, rwm1 := t.rwm1, rc := b,
    off := c.t.opndI a.a, pitch := c.t.opndI a.b, tag := (c.t.tagUse b).tag,
    life := s.tagLife (s.partOf c.a) (c.t.tagUse b).tag, cls := if a.cc = 0 then b.cclass else a.cc.toNat, dests := dests, bad := bad, data := none,
    walked := false, status := if bad then some stBaddest else none, token := none, decl := false, stall := none }

/-- An operation starts: its counter rises and it joins the queue of the engine. -/
def startTile (c : Ctx) (s : State) (o : TileOp) : State :=
  let s := (s.takeOp).2.modTeam c.a (fun t => t.cntUp .tile)
  { s with eng := { s.eng with tileOps := s.eng.tileOps ++ [o] } }

/-- The tile of a crew in state `st`. -/
def State.tileSt (s : State) (n k : Nat) (st : TileState) : State :=
  s.modCrew n (fun c => c.setTile k { c.tileAt k with st := st })

/-- Offset or pitch is no multiple of 16 (R316). -/
def misMove (c : Ctx) (a : TArgs) : Bool := c.t.opndI a.a % 16 != 0 || c.t.opndI a.b % 16 != 0

/-- TFILL (R316). -/
def execTfill (a : TArgs) (s : State) : Host.Outcome State Fault Refusal :=
  issues (.tfill a) (ruleT s a true) s (fun c => c.once s (fun _ =>
    let n := crewNo c.a
    if !tileFree (s.crew n) a.ta.toNat Tile.idle || c.t.cntFull .tile then c.wait s (.tfill a) 0 none
    else if misMove c a then c.trap s .misalign
    else { s := startTile c (s.tileSt n a.ta.toNat .filling) (tileOp c s a .fill [] false) }))

/-- TDRAIN (R316). -/
def execTdrain (a : TArgs) (s : State) : Host.Outcome State Fault Refusal :=
  issues (.tdrain a) (ruleT s a true) s (fun c => c.once s (fun _ =>
    let n := crewNo c.a
    if !tileFree (s.crew n) a.ta.toNat (fun t => t.st == .ready) || c.t.cntFull .tile then c.wait s (.tdrain a) 0 none
    else if misMove c a then c.trap s .misalign
    else { s := startTile c (s.tileSt n a.ta.toNat .draining) (tileOp c s a .drain [] false) }))

/-- The cores of the issuing cluster that a multicast names (R317). -/
def mcastCores (c : Ctx) (s : State) (d : Operand) : List Nat :=
  ((List.range 192).filter (fun i => (c.t.uniAt d (i / 64)).getLsbD (i % 64))).map (fun i => 192 * s.clusterOf c.a + i)

/-- The crew of the issuing squad on a core with the issuer's tile shape (R290). -/
def mcastDest (s : State) (a k core : Nat) : Option Nat :=
  let me := s.crew (crewNo a)
  let t := me.tileAt k
  if me.squad.isNone then none
  else (s.crews.find? (fun x => x.2.core == some core && !x.2.done && x.2.fx == me.fx && x.2.squad == me.squad &&
    decide (k < x.2.tiles) && (x.2.tileAt k).hm1 == t.hm1 && (x.2.tileAt k).rwm1 == t.rwm1 && (x.2.tileAt k).ty == t.ty)).map (·.1)

/-- Every destination's tile that allows it becomes FILLING (R290). -/
def claimDests (s : State) (k : Nat) : List Nat → State × List (Nat × DestState)
  | [] => (s, [])
  | n :: ns =>
    let free := tileFree (s.crew n) k Tile.idle
    let s := if free then s.tileSt n k .filling else s
    let (s, ds) := claimDests s k ns
    (s, (n, if free then .filling else .pending) :: ds)

/-- TMCAST (R317, R290). -/
def execTmcast (a : TArgs) (s : State) : Host.Outcome State Fault Refusal :=
  issues (.tmcast a) { ruleT s a true with srcs := [(a.a, 1), (a.b, 1), (a.d, 3)] } s (fun c => c.once s (fun _ =>
    if c.t.cntFull .tile then c.wait s (.tmcast a) 0 none
    else if misMove c a then c.trap s .misalign
    else
      let ds := (mcastCores c s a.d).map (mcastDest s c.a a.ta.toNat)
      let bad := ds.any (fun d => d.isNone)
      let (s', dests) := claimDests s a.ta.toNat (if bad then [] else ds.filterMap id)
      { s := startTile c s' (tileOp c s a .mcast dests bad) }))

/-! ## The waits (R289) -/

/-- A waiting tile or matrix instruction may issue. -/
def tileWaitOver (s : State) (a : Nat) : Instr → Bool
  | .tdecl x => tileFree (s.crew (crewNo a)) x.ta.toNat (fun t => t.st == .empty)
  | .tfree x => tileFree (s.crew (crewNo a)) x.ta.toNat Tile.idle
  | .tfill x => tileFree (s.crew (crewNo a)) x.ta.toNat Tile.idle && !(s.team a).cntFull .tile
  | .tdrain x => tileFree (s.crew (crewNo a)) x.ta.toNat (fun t => t.st == .ready) && !(s.team a).cntFull .tile
  | .tmcast _ => !(s.team a).cntFull .tile
  | .amov _ => (s.crew (crewNo a)).mops.isEmpty
  | i => (tilesNamed i).all (fun k => ((s.crew (crewNo a)).tileAt k).st == .ready) && tilesNamed i != [] &&
      !(s.team a).cntFull .matrix

/-- TILE_STATE_WAIT_END (R289): the instruction's tile has reached a state that its row lists, or its class has room. -/
def execTileStateWaitEnd (agent : Nat) (s : State) : Host.Outcome State Fault Refusal :=
  .next (match (s.team agent).waiting with
    | some w => if tileWaitOver s agent w.instr then s.wake agent else s
    | none => s)

/-! ## Operations -/

/-- The operation of a number, when no earlier one of its agent's tile class is outstanding (R312). -/
def State.tileHead (s : State) (id : Nat) : Option TileOp :=
  match s.eng.tileOps.find? (fun o => o.id == id) with
  | none => none
  | some o => if s.eng.tileOps.any (fun x => x.agent == o.agent && decide (x.id < id)) then none else some o

/-- Unit u of tile row r: the record offset and the byte within the tile (R316). -/
def TileOp.unit (o : TileOp) (r u : Nat) : Int × Nat :=
  (o.off + (r : Int) * o.pitch + 16 * (u : Int), 128 * (o.rwm1 + 1) * r + 16 * u)

/-- Units of a move in order. -/
def TileOp.units (o : TileOp) : List (Int × Nat) :=
  (List.range (o.hm1 + 1)).flatMap (fun r => (List.range (8 * (o.rwm1 + 1))).map (fun u => o.unit r u))

/-- What a multicast has done at a destination. -/
def TileOp.destState (o : TileOp) (n : Nat) : Option DestState := (o.dests.find? (fun x => x.1 == n)).map (·.2)

/-- The tag use of an operation. -/
def TileOp.use (o : TileOp) : TagUse := { tag := o.tag, must := o.rc.tagm == 1, life := some o.life }

/-- Its requester: it goes through the cluster's TLB and L2, and through no L1 (log 6). -/
def TileOp.req (s : State) (o : TileOp) : Req :=
  { engReq (s.partOf o.agent) (s.eidOf o.agent) with cl := some (s.clusterOf o.agent), cls := o.cls }

/-- It can run: its crew is on a core, it waits for no fault, and its release at SYSTEM scope has no write to wait for (R312, R314). -/
def State.tileRuns (s : State) (o : TileOp) : Bool :=
  s.resident o.agent && o.token.isNone && s.board.power == .on &&
  (!s.offWrites || !o.units.any (fun u => s.moveAp (TileOp.req s o) o.rc u.1 16))

/-- Read the units in order: the bytes of those read, and how it ends. -/
def readUnits (r : Req) (o : TileOp) : State → List (Int × Nat) → List Byte → State × List Byte × MoveEnd
  | s, [], acc => (s, acc, .ok)
  | s, u :: us, acc =>
    match moveRead s r o.use o.rc u.1 16 with
    | (s, .error e) => (s, acc, e)
    | (s, .ok bs) => readUnits r o s us (acc ++ bs)

/-- The pages that an operation's units need walked. -/
def State.tilePages (s : State) (o : TileOp) : List Nat :=
  s.missing (TileOp.req s o) (o.units.flatMap (fun u => match moveVa o.rc u.1 16 with
    | .ok (some va) => [va / 65536]
    | _ => []))

/-- The operation waits until its walks are served (03 R80). -/
def State.tileWalks (s : State) (o : TileOp) : Bool :=
  s.slowWalks (s.clusterOf o.agent) && !o.walked && s.tilePages o != []

/-- Bytes put into a crew's tile, from its first unit on. -/
def Crew.putTile (c : Crew) (k : Nat) (bs : List Byte) : Crew := c.spWrite ((c.tileAt k).rowAt 0) bs

/-- Drain the units in order; the answer holds the byte of the tile that was reached. -/
def drainUnits (r : Req) (o : TileOp) (c : Crew) : State → List (Int × Nat) → State × MoveEnd × Nat
  | s, [] => (s, .ok, 0)
  | s, u :: us =>
    let at_ := (c.tileAt o.tile).rowAt 0 + u.2
    if c.spBad at_ 16 then (s, .stop stUe, u.2)
    else match moveWrite s r o.use o.rc u.1 (c.spRead at_ 16) with
      | (s, .ok) => drainUnits r o c s us
      | (s, e) => (s, e, u.2)

/-- The operation with another record of its progress. -/
def State.setTileOp (s : State) (o : TileOp) : State :=
  { s with eng := { s.eng with tileOps := s.eng.tileOps.map (fun x => if x.id = o.id then o else x) } }

/-- The operation retires: its counter falls and its flags are ORed in (R312). -/
def State.dropTileOp (s : State) (o : TileOp) : State :=
  let s : State := { s with eng := { s.eng with tileOps := s.eng.tileOps.filter (fun x => x.id != o.id) } }
  s.modTeam o.agent (fun t =>
    let t := t.cntDown .tile s.clk.now (s.mcyc o.agent)
    if !o.bad && !(o.kind == .mcast && o.dests == []) && o.units.any (fun u => moveOob o.rc u.1 16) then t.raise 0 dOOB else t)

/-- The operation cannot go on: it waits at a page fault with a notice, or for a cell slot. `s` is the state before its
accesses, which reached byte `k` of the tile. None when it must stop with a status. -/
def State.tileHold (s : State) (o : TileOp) (access k : Nat) : MoveEnd → Option State
  | .page va => some ((s.setTileOp { o with token := some (s.nextToken + 1) }).enginePost o.agent (s.partOf o.agent) (s.eidOf o.agent) o.id access va)
  | .full _ =>
    if stallOver o.stall k (s.mcyc o.agent) then none
    else some (s.setTileOp { o with stall := some (k, stallAt o.stall k (s.mcyc o.agent)) })
  | .busy => some s
  | _ => none

/-- The firewall before the tile engine refuses the operation: the refusal is recorded (02 R37, R39). -/
def State.tileBlock (s : State) (o : TileOp) : State :=
  s.fwBlock (TileOp.req s o) .write ((((moveVa o.rc o.off 16).toOption).bind id).getD 0)

/-- The status with which an operation ends. -/
def MoveEnd.status : MoveEnd → BitVec 8
  | .ok => stOK
  | .stop st => st
  | .full _ => stTagexh
  | _ => stFault

/-- TFILL_COMPLETE (R316, R289). -/
def execTfillComplete (op : Nat) (s : State) : Host.Outcome State Fault Refusal :=
  .next (match s.tileHead op with
    | none => s
    | some o =>
      if o.kind != .fill || !s.tileRuns o then s
      else
        let n := crewNo o.agent
        if o.decl then (s.endTile n o.tile .empty stFault).dropTileOp o
        else if !s.engineOpen (TileOp.req s o) then ((s.tileBlock o).endTile n o.tile .empty stFirewall).dropTileOp o
        else if s.tileWalks o then s.queueWalks o.agent (.tile o.id) (s.tilePages o)
        else
          let (s', bs, e) := readUnits (TileOp.req s o) o s o.units []
          match s.tileHold o Kind.read.code 0 e with
          | some h => h
          | none => ((s'.modCrew n (fun c => c.putTile o.tile bs)).endTile n o.tile
              (if e = .ok then .ready else .empty) e.status).dropTileOp o)

/-- TDRAIN_COMPLETE (R316, R289). -/
def execTdrainComplete (op : Nat) (s : State) : Host.Outcome State Fault Refusal :=
  .next (match s.tileHead op with
    | none => s
    | some o =>
      if o.kind != .drain || !s.tileRuns o then s
      else
        let n := crewNo o.agent
        if o.decl then (s.endTile n o.tile .ready stFault).dropTileOp o
        else if !s.engineOpen (TileOp.req s o) then ((s.tileBlock o).endTile n o.tile .ready stFirewall).dropTileOp o
        else if s.tileWalks o then s.queueWalks o.agent (.tile o.id) (s.tilePages o)
        else
          let (s', e, k) := drainUnits (TileOp.req s o) o (s.crew n) s o.units
          match s.tileHold o Kind.write.code k e with
          | some h => h
          | none => (s'.endTile n o.tile .ready e.status).dropTileOp o)

/-- The destination has reached `d`. -/
def TileOp.mark (o : TileOp) (n : Nat) (d : DestState) : TileOp :=
  { o with dests := o.dests.map (fun x => if x.1 = n then (n, d) else x) }

/-- A source failure: every destination tile that is FILLING becomes EMPTY with the status; one still to become free
does so when it allows it (R317). -/
def State.mcastFail (s : State) (o : TileOp) (st : BitVec 8) : State :=
  let s := o.dests.foldl (fun (s : State) x => if x.2 = .filling then s.endTile x.1 o.tile .empty st else s) s
  s.setTileOp { o with status := some st,
                       dests := o.dests.map (fun x => if x.2 = .filling then (x.1, .done) else x) }

/-- The source of a multicast is read once (R290). -/
def State.mcastRead (s : State) (o : TileOp) : State :=
  if o.decl then s.mcastFail o stFault
  else if !s.engineOpen (TileOp.req s o) then (s.tileBlock o).mcastFail o stFirewall
  else if s.tileWalks o then s.queueWalks o.agent (.tile o.id) (s.tilePages o)
  else
    let (s', bs, e) := readUnits (TileOp.req s o) o s o.units []
    match s.tileHold o Kind.read.code 0 e with
    | some h => h
    | none => if e = .ok then s'.setTileOp { o with data := some bs } else s'.mcastFail o e.status

/-- The tile of a pending destination allows the multicast. -/
def mcastFree (s : State) (o : TileOp) (n : Nat) : Bool :=
  let c := s.crew n
  tileFree c o.tile Tile.idle && (c.tileAt o.tile).hm1 == o.hm1 && (c.tileAt o.tile).rwm1 == o.rwm1

/-- TMCAST_DELIVERY (R290): a destination whose crew has retired takes nothing; one that waited becomes FILLING when its tile allows it; the source is read; and a
FILLING destination becomes READY when its bytes are in place. -/
def execTmcastDelivery (op dest : Nat) (s : State) : Host.Outcome State Fault Refusal :=
  .next (match s.tileHead op with
    | none => s
    | some o =>
      if o.kind != .mcast || !s.tileRuns o || (s.crew dest).core.isNone then s
      else if (s.crew dest).done then s.setTileOp (o.mark dest .done)
      else match o.destState dest with
        | some .pending =>
          if mcastFree s o dest then
            match o.status with
            | some st => (s.endTile dest o.tile .empty st).setTileOp (o.mark dest .done)
            | none => (s.tileSt dest o.tile .filling).setTileOp (o.mark dest .filling)
          else s
        | some .filling =>
          match o.data with
          | none => s.mcastRead o
          | some bs =>
            ((s.modCrew dest (fun c => c.putTile o.tile bs)).endTile dest o.tile .ready stOK).setTileOp (o.mark dest .done)
        | _ => s)

/-- TMCAST_RETIRE (R290, R317): every destination is done, or there is none. -/
def execTmcastRetire (op : Nat) (s : State) : Host.Outcome State Fault Refusal :=
  .next (match s.tileHead op with
    | none => s
    | some o =>
      if o.kind == .mcast && s.resident o.agent && s.board.power == .on && o.dests.all (fun x => x.2 == .done) then s.dropTileOp o
      else s)

end Sys2Proof.Machine
end

