-- ==== Sys2Proof/Machine/Matrix.lean ====
section
/-! DEFINITION. The stationary matrix array (13 R327-R347). An operation takes effect at its retirement event, in the order of
issue across the crew (R332, log 5). -/
namespace Sys2Proof.Machine

/-! ## Types and packing (R327-R329) -/

/-- P of a weight type. -/
def packOf : Ty → Nat
  | .f16 | .bf16 => 1
  | .f8e4 | .f8e5 | .i8 => 2
  | .f4 | .i4 => 4
  | .t2 => 8
  | _ => 1

/-- The pairs of R327. -/
def pairOk (w a : Ty) : Bool :=
  match w, a with
  | .f16, .f16 => true
  | .bf16, .bf16 => true
  | .f8e4, .f8e4 => true
  | .f8e4, .f8e5 => true
  | .f8e5, .f8e4 => true
  | .f8e5, .f8e5 => true
  | .f4, .f4 => true
  | .i8, .i8 => true
  | .i4, .i4 => true
  | .t2, .i8 => true
  | _, _ => false

/-- Bytes of a column: C of R328 and R329. -/
def colBytes (sp : Bool) (t : Ty) : Nat := if sp then 128 + 16 * packOf t else 128

/-- Element k of a packed bit string. -/
def packedAt (v s k : Nat) : Nat := v / 2 ^ (s * k) % 2 ^ s

/-! ## Tile rows and bank rows -/

/-- Bytes of a tile row from its first byte. -/
def Crew.tileRow (c : Crew) (k r n : Nat) : List Byte := c.spRead ((c.tileAt k).rowAt r) n

/-- Uncorrectable data in the first bytes of a tile row. -/
def Crew.tileRowBad (c : Crew) (k r n : Nat) : Bool := c.spBad ((c.tileAt k).rowAt r) n

/-- The key of a bank element. -/
def bankKey (bank row col : Nat) : Nat := bank * 4096 + row * 32 + col

def Crew.bankAt (c : Crew) (bank row col : Nat) : W32 := tget 0 c.bank (bankKey bank row col)

/-- A bank element written. -/
def Crew.setBank (c : Crew) (bank row col : Nat) (v : W32) : Crew :=
  { c with bank := tset 0 c.bank (bankKey bank row col) v, badBank := c.badBank.filter (fun k => k != bankKey bank row col) }

/-- Rows of a bank written together: `f m n` is the new value of row `row + m`, column `n`. -/
def Crew.setRows (c : Crew) (bank row m : Nat) (f : Nat → Nat → W32) : Crew :=
  (List.range m).foldl (fun c i => (List.range 32).foldl (fun c n => c.setBank bank (row + i) n (f i n)) c) c

/-- Uncorrectable data in rows of a bank. -/
def Crew.bankBad (c : Crew) (bank row m : Nat) : Bool :=
  c.badBank.any (fun k => decide (bankKey bank row 0 ≤ k) && decide (k < bankKey bank (row + m) 0))

/-! ## Fields -/

def mmOf (a : TArgs) : Nat := fnBits a.tfn 0 7 + 1
def ar0Of (a : TArgs) : Nat := fnBits a.tfn 7 7

/-- A tile row operand. -/
def Team.opndRow (t : Team) (o : Operand) : Nat := (t.opndU o).toNat % 2 ^ 32

/-! ## Issue (R330-R337) -/

/-- The crew's rules of an encoding (R334): tiles, banks and ACC below its counts, and no instruction but WSTAT without a
bank (R330). -/
def matCtx (s : State) (tiles banks : List Nat) : Bool :=
  let c := s.crew (crewNo s.cur)
  decide (1 ≤ c.accs) && tiles.all (fun k => decide (k < c.tiles)) && banks.all (fun k => decide (k < c.accs))

/-- The rule of a matrix instruction. -/
def ruleX (s : State) (a : TArgs) (tiles banks : List Nat) : Rule :=
  { guard := a.g, ctx := matCtx s tiles banks, banned := true, srcs := [(a.a, 1)] }

/-- An operation of the matrix class issues (R332): its tiles must be READY, then `bad` gives the trap of R336. -/
def matIssue (i : Instr) (r0 : Nat) (bad : Crew → Option Cause) (s : State) (c : Ctx) : Res :=
  c.once s (fun _ =>
    let n := crewNo c.a
    let cr := s.crew n
    if !(tilesNamed i).all (fun k => (cr.tileAt k).st == .ready) || c.t.cntFull .matrix then c.wait s i 0 none
    else match bad cr with
      | some x => c.trap s x
      | none =>
        let o : MatOp := { id := s.eng.nextOp, agent := c.a, instr := i, r0 := r0, fpmode := c.t.fpmode,
                           gen := c.t.amovGen, stall := 0 }
        let s := (s.takeOp).2.modTeam c.a (fun t => t.cntUp .matrix)
        { s := s.modCrew n (fun x => { x with mops := x.mops ++ [o] }) })

/-- OOB when a tile range falls outside its tile: `rows` rows of `bytes` bytes from `r0` (R336). -/
def rangeBad (k r0 rows bytes : Nat) (c : Crew) : Option Cause :=
  let t := c.tileAt k
  if r0 + rows ≤ t.hm1 + 1 ∧ bytes ≤ 128 * (t.rwm1 + 1) then none else some .oob

/-- SP of LDW. -/
def ldwSp (a : TArgs) : Bool := fnBits a.tfn 1 1 == 1

/-- The bytes of the weight store that LDW names lie in granules of the enclave on the die (R337, 11 R297). -/
def wsOwned (s : State) (eid die off n : Nat) : Bool :=
  eid != 0 && off % 128 == 0 && decide (off + n ≤ 2 ^ 28) &&
  (List.range ((off + n - 1) / 65536 - off / 65536 + 1)).all (fun j => tget 0 s.mem.gran (die * 4096 + off / 65536 + j) == eid)

/-- LDW from a tile (R337). -/
def execLdw (a : TArgs) (s : State) : Host.Outcome State Fault Refusal :=
  issues (.ldw a) (ruleX s a [a.ta.toNat] []) s (fun c =>
    let r0 := c.t.opndRow a.a
    matIssue (.ldw a) r0 (rangeBad a.ta.toNat r0 32 (colBytes (ldwSp a) (a.ty.getD .f16))) s c)

/-- LDW from the weight store (R337). -/
def execLdwWs (a : TArgs) (s : State) : Host.Outcome State Fault Refusal :=
  issues (.ldwWs a) (ruleX s a [] []) s (fun c =>
    let off := (c.t.opndU a.a).toNat
    matIssue (.ldwWs a) off (fun _ =>
      if wsOwned s (s.eidOf c.a) (s.dieOf c.a) off (32 * colBytes (ldwSp a) (a.ty.getD .f16)) then none else some .perm) s c)

/-- SWPW (R338). -/
def execSwpw (a : TArgs) (s : State) : Host.Outcome State Fault Refusal :=
  issues (.swpw a) (ruleX s a [] []) s (matIssue (.swpw a) 0 (fun _ => none) s)

/-- MMA (R339): the row length is checked when the array processes it. -/
def execMma (a : TArgs) (s : State) : Host.Outcome State Fault Refusal :=
  issues (.mma a) (ruleX s a [a.ta.toNat] [a.acc.toNat]) s (fun c =>
    let r0 := c.t.opndRow a.a
    matIssue (.mma a) r0 (rangeBad a.ta.toNat r0 (mmOf a) 0) s c)

/-- MMAS (R339). -/
def execMmas (a : TArgs) (s : State) : Host.Outcome State Fault Refusal :=
  issues (.mmas a) (ruleX s a [a.ta.toNat] [a.acc.toNat]) s (fun c =>
    let r0 := c.t.opndRow a.a
    matIssue (.mmas a) r0 (rangeBad a.ta.toNat r0 (mmOf a) 0) s c)

/-- ACLR (R341). -/
def execAclr (a : TArgs) (s : State) : Host.Outcome State Fault Refusal :=
  issues (.aclr a) (ruleX s a [] [a.acc.toNat]) s (matIssue (.aclr a) 0 (fun _ => none) s)

/-- ALD (R341). -/
def execAld (a : TArgs) (s : State) : Host.Outcome State Fault Refusal :=
  issues (.ald a) (ruleX s a [a.ta.toNat] [a.acc.toNat]) s (fun c =>
    let r0 := c.t.opndRow a.a
    matIssue (.ald a) r0 (rangeBad a.ta.toNat r0 (mmOf a) 128) s c)

/-- SRC of SCACC. -/
def scSrc (a : TArgs) : Nat := fnBits a.tfn 14 2

/-- Bytes of a scale (R343). -/
def scaleBytes (a : TArgs) : Nat := if a.ty = some .e8 then 1 else 4

/-- SCACC (R343): a scale vector may not exceed its tile (R336). -/
def execScacc (a : TArgs) (s : State) : Host.Outcome State Fault Refusal :=
  issues (.scacc a) (ruleX s a [a.ta.toNat, a.tb.toNat] [a.acc.toNat, scSrc a]) s
    (matIssue (.scacc a) 0 (fun c =>
      let size := fun k => 128 * ((c.tileAt k).hm1 + 1) * ((c.tileAt k).rwm1 + 1)
      if (mmOf a) * scaleBytes a ≤ size a.ta.toNat ∧ 32 * scaleBytes a ≤ size a.tb.toNat then none else some .oob) s)

/-! ## AMOV (R342) -/

/-- Effective controls of AMOV: its word has no FTZI, and with DYN sr.fpmode gives all four (06 R163, 08 R226, R228). -/
def amovCtl (fpmode : W32) (a : TArgs) : FEnv :=
  controls { Team.idle with fpmode := fpmode } a.rnd false a.ftzo a.sat

/-- The source type of AMOV. -/
def amovSrc (a : TArgs) : Ty := if fnBits a.tfn 15 1 = 1 then .i32 else .f32

/-- AMOV in tile mode: M passes advance the generator in mode SR (08 R224). -/
def execAmovTile (a : TArgs) (s : State) : Host.Outcome State Fault Refusal :=
  issues (.amovTile a) (ruleX s a [a.ta.toNat] [a.acc.toNat]) s (fun c =>
    let r0 := c.t.opndRow a.a
    let bad := rangeBad a.ta.toNat r0 (mmOf a) (4 * (a.ty.getD .f32).bits)
    let r := matIssue (.amovTile a) r0 bad s c
    if (amovCtl c.t.fpmode a).md = .sr ∧ r.flow = .seq ∧ r.k = [] ∧ c.m ≠ 0 then
      { r with s := r.s.modTeam c.a (fun t => { t with amovGen := advN (mmOf a) t.amovGen }) }
    else r)

/-- The elements that lanes have read, the team, the traps and the flags of AMOV in register mode. -/
structure AmovAcc where
  t : Team
  k : Traps := []
  read : List (Nat × Nat) := []
  fl : W32 := 0

/-- One lane of AMOV in register mode: column l mod 32 of row AR0 + floor(l / 32). -/
def amovLane (c : Ctx) (cr : Crew) (a : TArgs) (v : FEnv) (ps : List Nat) (r : AmovAcc) (l : Nat) : AmovAcc :=
  let row := (ar0Of a) + l / 32
  let col := l % 32
  if 128 ≤ row then { r with k := r.k ++ [(l, .oob)] }
  else match c.t.regOf l 1 1 a.d with
    | .error x => { r with k := r.k ++ [(l, x)] }
    | .ok d =>
      if cr.badBank.contains (bankKey a.acc.toNat row col) then { r with k := r.k ++ [(l, .ue)] }
      else
        let ty := a.ty.getD .f32
        let o := (convert (amovSrc a) ty { v with w := laneWord c.t.amovGen ps false l } false false
          (cr.bankAt a.acc.toNat row col).toNat).1
        { t := r.t.putLane l false d (Ty.extend ty o.pat), k := r.k, read := r.read ++ [(row, col)], fl := r.fl ||| o.fl }

/-- AMOV in register mode: it waits for the operations issued before it, and never raises FPX (08 R230). Its passes issue,
and advance the generator, whatever the guards (08 R222, R224, R336). -/
def execAmov (a : TArgs) (s : State) : Host.Outcome State Fault Refusal :=
  issues (.amov a) { ruleX s a [] [a.acc.toNat] with banned := false, srcs := [] } s (fun c =>
    let n := crewNo c.a
    let cr := s.crew n
    if cr.mops ≠ [] then c.wait s (.amov a) 0 none
    else
      let v := amovCtl c.t.fpmode a
      let ps := passList c.t false
      let r := c.ls.foldl (amovLane c cr a v ps) { t := c.t }
      let t := r.t.raise r.fl 0
      let t := if v.md = .sr then { t with amovGen := advN ps.length t.amovGen } else t
      let cr := if fnBits a.tfn 16 1 = 1 then r.read.foldl (fun (x : Crew) e => x.setBank a.acc.toNat e.1 e.2 0) cr else cr
      { s := (s.setTeam c.a t).setCrew n cr, k := r.k })

/-! ## WSTAT (R344) -/

/-- A plane's fields: valid, sparse, type, poisoned. -/
def Plane.word (p : Plane) : Nat :=
  bit p.valid + bit p.sparse * 2 + (match p.ty with | some t => Ty.code t | Option.none => 0) * 4 + bit p.poison * 2 ^ 10

/-- An LDW. -/
def isLdw : Instr → Bool
  | .ldw _ => true
  | .ldwWs _ => true
  | _ => false

/-- The word of WSTAT. -/
def wstatWord (c : Crew) : W64 :=
  BitVec.ofNat 64 (c.act.word + c.shd.word * 2 ^ 11 + bit (c.mops.any (fun o => isLdw o.instr)) * 2 ^ 22 +
    c.mstat.toNat * 2 ^ 32 + min 255 c.mops.length * 2 ^ 40)

/-- WSTAT (R344). -/
def execWstat (a : TArgs) (s : State) : Host.Outcome State Fault Refusal :=
  issues (.wstat a) { guard := a.g } s (fun c => c.once s (fun _ =>
    let n := crewNo c.a
    let cr := s.crew n
    let s := s.setTeam c.a (c.t.setdU a.d (wstatWord cr))
    { s := if fnBits a.tfn 0 1 = 1 then s.setCrew n { cr with mstat := 0 } else s }))

/-! ## The array (R332-R343) -/

/-- The result of an operation: the crew after it, its status, and its flags. -/
structure MatRes where
  c : Crew
  st : BitVec 8 := 0
  fl : W32 := 0
  dfl : W32 := 0

/-- t2 elements of a byte with 0b10 read as 0. -/
def t2Byte (b : Byte) : Byte :=
  BitVec.ofNat 8 (((List.range 4).map (fun j => let x := b.toNat / 4 ^ j % 4; (if x = 2 then 0 else x) * 4 ^ j)).sum)

/-- A byte holds the t2 pattern 0b10. -/
def t2Bad (b : Byte) : Bool := (List.range 4).any (fun j => b.toNat / 4 ^ j % 4 == 2)

/-- The 32 columns loaded into the shadow plane, column n from byte n · C of `bs` (R337). -/
def loadPlane (c : Crew) (sp : Bool) (ty : Ty) (bs : List Byte) : MatRes :=
  let n := colBytes sp ty
  let cells := (List.range 32).flatMap (fun k => (List.range n).map (fun j => (k * 1024 + j, j, bs.getD (k * n + j) 0)))
  let fix := fun (x : Nat × Nat × Byte) => (x.1, if ty = .t2 ∧ x.2.1 < 128 then t2Byte x.2.2 else x.2.2)
  let bad := ty == .t2 && cells.any (fun x => decide (x.2.1 < 128) && t2Bad x.2.2)
  { c := { c with shd := { valid := true, sparse := sp, ty := some ty, poison := false, bad := false,
                           w := tsets 0 [] (cells.map fix) } },
    dfl := flagIf bad dBADT }

/-- Uncorrectable data: LDW poisons the shadow plane (R344). -/
def poisonShadow (c : Crew) : MatRes := { c := { c with shd := { c.shd with poison := true } }, st := stUe }

/-- The placed weights of column `n`: logical index and pattern (R328, R329). -/
def Plane.col (p : Plane) (ty : Ty) (n : Nat) : List (Nat × Nat) :=
  let s := ty.bits
  let v := leNat ((List.range 128).map (fun j => tget 0 p.w (n * 1024 + j)))
  if p.sparse then
    let m := leNat ((List.range (16 * packOf ty)).map (fun j => tget 0 p.w (n * 1024 + 128 + j)))
    (List.range (32 * packOf ty)).flatMap (fun g =>
      let i0 := packedAt m 4 g % 4
      let i1 := packedAt m 4 g / 4
      if i0 = i1 then [(4 * g + i1, packedAt v s (2 * g + 1))]
      else [(4 * g + i0, packedAt v s (2 * g)), (4 * g + i1, packedAt v s (2 * g + 1))])
  else (List.range (64 * packOf ty)).map (fun k => (k, packedAt v s k))

/-- A signalling NaN raises IV where it is read (08 R225). -/
def snanFl (t : Ty) (p : Nat) : W32 := flagIf (Ty.isSNaN t p) fIV

/-- One element of a floating MMA (R339, R340): the groups of 16 in increasing k. -/
def mmaF (wt xt : Ty) (col : List (Nat × Nat)) (xs : Nat → Nat) (kN : Nat) (acc : Nat) (fo : Bool) : FOut :=
  let r := (List.range (kN / 16)).foldl (fun (a : FOut) g =>
    let ps := col.filter (fun w => w.1 / 16 == g)
    let sn := ps.foldl (fun f w => f ||| snanFl wt w.2 ||| snanFl xt (xs w.1)) 0
    let grp := if ps.isEmpty then (FOut.mk 0 0)
      else rnd .f32 .exact (sumX .rne (ps.map (fun w => (Ty.val wt w.2).mul (Ty.val xt (xs w.1)))))
    let o := rnd .f32 .exact (sumX .rne [some (Ty.val .f32 a.pat), some (Ty.val .f32 grp.pat)])
    { pat := o.pat, fl := a.fl ||| sn ||| grp.fl ||| snanFl .f32 a.pat ||| o.fl }) { pat := acc, fl := 0 }
  if fo && Ty.isSub .f32 r.pat then { pat := Ty.sgn .f32 (Ty.negP .f32 r.pat) 0, fl := r.fl ||| fUF ||| fNX } else r

/-- One element of an integer MMA. -/
def mmaI (wt xt : Ty) (col : List (Nat × Nat)) (xs : Nat → Nat) (acc : W32) : W32 × W32 :=
  let e := acc.toInt + (col.map (fun w => Ty.intVal wt w.2 * Ty.intVal xt (xs w.1))).sum
  (BitVec.ofInt 32 e, flagIf (sextI (wrapI e 32) 32 ≠ e) dIOVF)

/-- MMA and MMAS (R339). -/
def matMma (c : Crew) (a : TArgs) (sp : Bool) (r0 : Nat) : MatRes :=
  let xt := a.ty.getD .f16
  let p := c.act
  match p.ty with
  | none => { c := c, st := stBadreq }
  | some wt =>
    if !p.valid then { c := c, st := stBadreq }
    else if p.poison || p.bad then { c := c, st := stUe }
    else if p.sparse != sp || !pairOk wt xt then { c := c, st := stBadreq }
    else
      let kN := (if sp then 128 else 64) * packOf wt
      let bytes := kN * xt.bits / 8
      let k := a.ta.toNat
      let b := a.acc.toNat
      let z := fnBits a.tfn 14 1 == 1
      if 128 * ((c.tileAt k).rwm1 + 1) < bytes then { c := c, st := stOob }
      else if (List.range (mmOf a)).any (fun m => c.tileRowBad k (r0 + m) bytes) || (!z && c.bankBad b (ar0Of a) (mmOf a)) then
        { c := c, st := stUe }
      else
        let cols := (List.range 32).map (fun n => p.col wt n)
        let rows := (List.range (mmOf a)).map (fun m => leNat (c.tileRow k (r0 + m) bytes))
        let res := rows.zipIdx.map (fun x => cols.zipIdx.map (fun w =>
          let acc := if z then 0 else c.bankAt b ((ar0Of a) + x.2) w.2
          let xs := packedAt x.1 xt.bits
          if xt.isF then
            let o := mmaF wt xt w.1 xs kN acc.toNat a.ftzo
            (BitVec.ofNat 32 o.pat, o.fl, (0 : W32))
          else
            let o := mmaI wt xt w.1 xs acc
            (o.1, (0 : W32), o.2)))
        let at_ := fun m n => ((res.getD m []).getD n (0, 0, 0)).1
        { c := c.setRows b (ar0Of a) (mmOf a) at_
          fl := res.flatten.foldl (fun f x => f ||| x.2.1) 0
          dfl := res.flatten.foldl (fun f x => f ||| x.2.2) 0 }

/-- SCACC (R343). -/
def matScacc (c : Crew) (a : TArgs) : MatRes :=
  let ty := a.ty.getD .f32
  let sz := scaleBytes a
  let b := a.acc.toNat
  let src := scSrc a
  let si := fnBits a.tfn 16 1 == 1
  let scale := fun (k j : Nat) => leNat (c.spRead ((c.tileAt k).rowAt 0 + j * sz) sz)
  let sval := fun (p : Nat) => if ty = .e8 then (if p = 0xFF then FV.nan else .fin false 1 ((p : Int) - 127)) else Ty.val .f32 p
  let ssn := fun (p : Nat) => if ty = .e8 then 0 else snanFl .f32 p
  if c.spBad ((c.tileAt a.ta.toNat).rowAt 0) ((mmOf a) * sz) || c.spBad ((c.tileAt a.tb.toNat).rowAt 0) (32 * sz) ||
     c.bankBad src (ar0Of a) (mmOf a) || c.bankBad b (ar0Of a) (mmOf a) then { c := c, st := stUe }
  else
    let elem := fun (m n : Nat) =>
      let x := c.bankAt src ((ar0Of a) + m) n
      let y := c.bankAt b ((ar0Of a) + m) n
      let p := if si then FV.fin (x.toInt < 0) x.toInt.natAbs 0 else Ty.val .f32 x.toNat
      let r := scale a.ta.toNat m
      let q := scale a.tb.toNat n
      let pr := (p.mul (sval r)).bind (fun z => z.mul (sval q))
      let o := rnd .f32 { FEnv.exact with fo := a.ftzo } (sumX .rne [some (Ty.val .f32 y.toNat), pr])
      let sn := (if si then 0 else snanFl .f32 x.toNat) ||| snanFl .f32 y.toNat ||| ssn r ||| ssn q
      (BitVec.ofNat 32 o.pat, o.fl ||| sn)
    let res := (List.range (mmOf a)).map (fun m => (List.range 32).map (fun n => elem m n))
    let c' := c.setRows b (ar0Of a) (mmOf a) (fun m n => ((res.getD m []).getD n (0, 0)).1)
    { c := if fnBits a.tfn 17 1 = 1 then c'.setRows src (ar0Of a) (mmOf a) (fun _ _ => 0) else c'
      fl := res.flatten.foldl (fun f x => f ||| x.2) 0 }

/-- AMOV in tile mode (R342). -/
def matAmov (c : Crew) (o : MatOp) (a : TArgs) : MatRes :=
  let ty := a.ty.getD .f32
  let b := a.acc.toNat
  let v := amovCtl o.fpmode a
  if c.bankBad b (ar0Of a) (mmOf a) then { c := c, st := stUe }
  else
    let res := (List.range (mmOf a)).map (fun m => (List.range 32).map (fun n =>
      (convert (amovSrc a) ty { v with w := rotl (advN (m + 1) o.gen) (5 * n) } false false
        (c.bankAt b ((ar0Of a) + m) n).toNat).1))
    let rowVal := fun (r : List FOut) =>
      (r.zipIdx.map (fun x => x.1.pat % 2 ^ ty.bits * 2 ^ (ty.bits * x.2))).sum
    let c' := res.zipIdx.foldl (fun (c : Crew) x =>
      c.spWrite ((c.tileAt a.ta.toNat).rowAt (o.r0 + x.2)) (leBytes (4 * ty.bits) (rowVal x.1))) c
    { c := if fnBits a.tfn 16 1 = 1 then c'.setRows b (ar0Of a) (mmOf a) (fun _ _ => 0) else c'
      fl := res.flatten.foldl (fun f x => f ||| x.fl) 0 }

/-- LDW from a tile. -/
def matLdw (c : Crew) (o : MatOp) (a : TArgs) : MatRes :=
  let ty := a.ty.getD .f16
  let n := colBytes (ldwSp a) ty
  let k := a.ta.toNat
  if (List.range 32).any (fun r => c.tileRowBad k (o.r0 + r) n) then poisonShadow c
  else loadPlane c (ldwSp a) ty ((List.range 32).flatMap (fun r => c.tileRow k (o.r0 + r) n))

/-- LDW from the weight store of the crew's die; its ownership is checked again (R346). -/
def matLdwWs (s : State) (c : Crew) (o : MatOp) (a : TArgs) : MatRes :=
  let ty := a.ty.getD .f16
  let n := 32 * colBytes (ldwSp a) ty
  let die := s.dieOf o.agent
  let key := die * 2 ^ 28 + o.r0
  if !wsOwned s c.eid die o.r0 n then { c := c, st := stFault }
  else if s.mem.badWs.any (fun x => decide (key / 128 ≤ x) && decide (x < (key + n) / 128)) then poisonShadow c
  else loadPlane c (ldwSp a) ty ((List.range n).map (fun j => tget 0 s.mem.ws (key + j)))

/-- What the array does for an operation. -/
def matRun (s : State) (c : Crew) (o : MatOp) : MatRes :=
  match o.instr with
  | .ldw a => matLdw c o a
  | .ldwWs a => matLdwWs s c o a
  | .swpw _ => { c := { c with act := c.shd, shd := c.act } }
  | .mma a => matMma c a false o.r0
  | .mmas a => matMma c a true o.r0
  | .aclr a => { c := c.setRows a.acc.toNat (ar0Of a) (mmOf a) (fun _ _ => 0) }
  | .ald a =>
    let k := a.ta.toNat
    if (List.range (mmOf a)).any (fun m => c.tileRowBad k (o.r0 + m) 128) then { c := c, st := stUe }
    else { c := c.setRows a.acc.toNat (ar0Of a) (mmOf a) (fun m n =>
      BitVec.ofNat 32 (leNat (c.spRead ((c.tileAt k).rowAt (o.r0 + m) + 4 * n) 4))) }
  | .amovTile a => matAmov c o a
  | .scacc a => matScacc c a
  | _ => { c := c }

/-- Banks of the weight store that a load reads. -/
def ldwBanks (o : MatOp) : List Nat :=
  match o.instr with
  | .ldwWs a =>
    let n := 32 * colBytes (ldwSp a) (a.ty.getD .f16)
    (List.range 8).filter (fun b => decide (o.r0 / 2 ^ 25 ≤ b) && decide (b ≤ (o.r0 + n - 1) / 2 ^ 25))
  | _ => []

/-- A bank that the operation reads is inside its refresh window (11 R298). -/
def inWindow (now : Nat) (o : MatOp) : Bool := (ldwBanks o).any (fun b => (wswinBank now b).2 != 0)

/-- The operation retires: MSTAT takes the first status other than OK, the flags are ORed in and the counter falls
(R333, R344). -/
def matRetire (s : State) (n : Nat) (o : MatOp) : State :=
  let r := matRun s (s.crew n) o
  let c := { r.c with mops := r.c.mops.tail, mstat := if r.c.mstat = 0 then r.st else r.c.mstat }
  let s := (s.setCrew n c).modTeam o.agent (fun t => (t.cntDown .matrix s.clk.now (s.mcyc o.agent)).raise r.fl r.dfl)
  if r.st = stUe then
    (s.log 0x06 1 (s.worldOf o.agent) (s.coreOf o.agent) c.eid (r.st.setWidth 64)).charge (.core (s.coreOf o.agent)) 256
  else s

/-- A load that the array has next reads a granule that a WSLD is still loading: it waits (12 R324, 14 R364; log 72). -/
def midLoad (s : State) (o : MatOp) : Bool :=
  match o.instr with
  | .ldwWs a =>
    let n := 32 * colBytes (ldwSp a) (a.ty.getD .f16)
    (List.range ((o.r0 + n - 1) / 65536 - o.r0 / 65536 + 1)).any (fun j => wsldBusy s (s.dieOf o.agent) (o.r0 / 65536 + j))
  | _ => false

/-- MATRIX_OP_RETIRE (R332): the oldest operation of a resident crew ends. -/
def execMatrixOpRetire (op : Nat) (s : State) : Host.Outcome State Fault Refusal :=
  .next (match s.crews.find? (fun x => x.2.core.isSome && !x.2.done && (x.2.mops.head?.map (fun o => o.id)) == some op) with
    | none => s
    | some (n, c) =>
      match c.mops with
      | [] => s
      | o :: _ =>
        if s.board.power != .on || decide (s.clk.now < o.stall) || inWindow s.clk.now o || midLoad s o then s else matRetire s n o)

/-- WEIGHT_STORE_REFRESH (11 R298): while a bank of the die is inside its window, the load that the array of a crew on the
die has next and that reads the bank stalls until the window ends. -/
def execWeightStoreRefresh (die : Nat) (s : State) : Host.Outcome State Fault Refusal :=
  let hold := fun (o : MatOp) =>
    if inWindow s.clk.now o then { o with stall := s.clk.now + ((ldwBanks o).map (fun b => (wswinBank s.clk.now b).2)).foldl max 0 } else o
  .next { s with crews := s.crews.map (fun x =>
    if x.2.core.any (fun k => k / 96 == die) then
      (x.1, { x.2 with mops := match x.2.mops with | [] => [] | o :: t => hold o :: t })
    else x) }

end Sys2Proof.Machine
end

