-- ==== Sys2Proof/Machine/Sync.lean ====
section
/-! DEFINITION. The synchronisation instructions and the ends of their waits (14 R368-R376). Accesses are performed in one
total order (log 2), so that a fence orders nothing more; its wait for sr.uwc is R366's. -/
namespace Sys2Proof.Machine

/-- FENCE (R371, R366). -/
def execFence (a : SArgs) (s : State) : Host.Outcome State Fault Refusal :=
  issues (.fence a) (ruleS a) s (fun c => c.once s (fun _ =>
    if fnBits a.sfn 1 1 = 1 ∧ fnBits a.sfn 2 3 = 4 ∧ s.offWrites = true then c.wait s (.fence a) 0 none else { s := s }))

/-! ## Barriers (R372) -/

/-- The barrier that an instruction names. -/
def State.barOf (s : State) (a : Nat) (sq : Bool) : Barrier :=
  let c := s.crew (crewNo a)
  if sq then s.squad (squadKey c) else c.bar

/-- The phase in which the team arrived last. -/
def Team.arrivedIn (t : Team) (sq : Bool) : Option W32 := if sq then t.arrQ else t.arrC

/-- The team arrives, and the phase completes when every expected arrival is there. -/
def State.arrive (s : State) (a : Nat) (sq : Bool) : State :=
  let b := s.barOf a sq
  let s := s.modTeam a (fun t => if sq then { t with arrQ := some b.phc } else { t with arrC := some b.phc })
  let b := { b with arrived := b.arrived + 1 }
  let c := s.crew (crewNo a)
  let s := if sq then s.setSquad (squadKey c) b else s.setCrew (crewNo a) { c with bar := b }
  s.checkBarriers (crewNo a)

/-- The crew rule of the barrier instructions (R368). -/
def ruleB (s : State) (a : SArgs) (sq : Bool) : Rule :=
  { ruleS a with ctx := !isThread s.cur && (!sq || (s.crew (crewNo s.cur)).squad.isSome) }

/-- A wait that remembers `tok`: 0 before the arrival, the phase plus 1 after it. -/
def Ctx.waitTok (c : Ctx) (s : State) (i : Instr) (tok : Nat) : Res :=
  c.waitAs s (match c.t.waiting with
    | some w => { w with instr := i, until_ := tok, woken := false }
    | none => s.newWait c.a i tok none none)

/-- What the team's wait remembers. -/
def Team.waitMark (t : Team) : Nat := (t.waiting.map (fun w => w.until_)).getD 0

/-- BAR and BARQ: arrive, then await. -/
def barrier (i : Instr) (sq : Bool) (s : State) (c : Ctx) : Res :=
  c.once s (fun _ =>
    let b := s.barOf c.a sq
    if c.t.waitMark ≠ 0 then
      if b.phc.toNat + 1 = c.t.waitMark then c.waitTok s i c.t.waitMark else { s := s }
    else if c.t.arrivedIn sq = some b.phc then c.waitTok s i 0
    else
      let s := s.arrive c.a sq
      if (s.barOf c.a sq).phc = b.phc then c.waitTok s i (b.phc.toNat + 1) else { s := s })

/-- BAR (R372). -/
def execBar (a : SArgs) (s : State) : Host.Outcome State Fault Refusal :=
  issues (.bar a) (ruleB s a false) s (barrier (.bar a) false s)

/-- BARQ (R372). -/
def execBarq (a : SArgs) (s : State) : Host.Outcome State Fault Refusal :=
  issues (.barq a) (ruleB s a true) s (barrier (.barq a) true s)

/-- SQ of ARRIVE and AWAIT. -/
def sqBit (a : SArgs) : Bool := fnBits a.sfn 0 1 == 1

/-- ARRIVE (R372). -/
def execArrive (a : SArgs) (s : State) : Host.Outcome State Fault Refusal :=
  issues (.arrive a) (ruleB s a (sqBit a)) s (fun c => c.once s (fun _ =>
    let b := s.barOf c.a (sqBit a)
    if c.t.arrivedIn (sqBit a) = some b.phc then c.waitTok s (.arrive a) 0
    else { s := (s.arrive c.a (sqBit a)).modTeam c.a (fun t => t.setdU a.d (b.phc.setWidth 64)) }))

/-- AWAIT (R372). -/
def execAwait (a : SArgs) (s : State) : Host.Outcome State Fault Refusal :=
  issues (.await a) (ruleB s a (sqBit a)) s (fun c => c.once s (fun _ =>
    let met := (s.barOf c.a (sqBit a)).phc != (c.t.opndU a.a).setWidth 32
    if fnBits a.sfn 1 1 = 1 then { s := s.setTeam c.a (c.t.setPredMask a.pd.toNat c.m met) }
    else if met then { s := s } else c.waitTok s (.await a) 0))

/-- What a waiting barrier instruction waits for has happened. -/
def barrierOver (s : State) (a : Nat) (w : Waiting) : Bool :=
  let t := s.team a
  let arrived := fun (sq : Bool) => t.arrivedIn sq == some (s.barOf a sq).phc
  match w.instr with
  | .bar _ => if w.until_ = 0 then !arrived false else (s.barOf a false).phc.toNat + 1 != w.until_
  | .barq _ => if w.until_ = 0 then !arrived true else (s.barOf a true).phc.toNat + 1 != w.until_
  | .arrive x => !arrived (sqBit x)
  | .await x => (s.barOf a (sqBit x)).phc != (t.opndU x.a).setWidth 32
  | _ => false

/-- AWAIT_WAKE (R372): a waiting team sees its phase completed. -/
def execAwaitWake (agent : Nat) (s : State) : Host.Outcome State Fault Refusal :=
  .next (match (s.team agent).waiting with
    | some w => if barrierOver s agent w then s.wake agent else s
    | none => s)

/-! ## Stages (R373, 01 R27) -/

/-- RING. -/
def ringOf (a : SArgs) : Nat := fnBits a.sfn 0 2

/-- Stages of a ring of the crew. -/
def Crew.stageCount (c : Crew) (ring : Nat) : Nat := c.stages.getD ring 0

/-- The tile that a stage is bound to. -/
def Crew.stageTile (c : Crew) (ring k : Nat) : Nat := (c.stages.take ring).sum + k

/-- The rule of the stage instructions (R368): staged mode, a ring with stages, and an immediate stage below their count. -/
def ruleG (s : State) (a : SArgs) : Rule :=
  let c := s.crew (crewNo s.cur)
  { ruleS a with ctx := (s.fixture c.fx).desc.staged && c.stageCount (ringOf a) != 0 &&
      (match a.a with | .imm k => decide (0 ≤ immVal k) && decide (immVal k < c.stageCount (ringOf a)) | _ => true) }

/-- The stage operand. -/
def stageNo (c : Ctx) (a : SArgs) : Nat := (c.t.opndU a.a).toNat % 2 ^ 32

/-- STGREL (R373). -/
def execStgrel (a : SArgs) (s : State) : Host.Outcome State Fault Refusal :=
  issues (.stgrel a) (ruleG s a) s (fun c => c.once s (fun _ =>
    let cr := s.crew (crewNo c.a)
    if cr.stageCount (ringOf a) ≤ stageNo c a then c.trap s .oob
    else
      let k := cr.stageTile (ringOf a) (stageNo c a)
      { s := s.setCrew (crewNo c.a) (cr.setTile k { cr.tileAt k with ph := !(cr.tileAt k).ph }) }))

/-- PH of the stage is B[0]. -/
def stageMet (s : State) (a : Nat) (x : SArgs) : Bool :=
  let c := s.crew (crewNo a)
  let t := s.team a
  (c.tileAt (c.stageTile (ringOf x) ((t.opndU x.a).toNat % 2 ^ 32))).ph == (t.opndU x.b).getLsbD 0

/-- STGACQ (R373). -/
def execStgacq (a : SArgs) (s : State) : Host.Outcome State Fault Refusal :=
  issues (.stgacq a) (ruleG s a) s (fun c => c.once s (fun _ =>
    let cr := s.crew (crewNo c.a)
    let met := stageMet s c.a a
    if cr.stageCount (ringOf a) ≤ stageNo c a then c.trap s .oob
    else if fnBits a.sfn 2 1 = 1 then { s := s.setTeam c.a (c.t.setPredMask a.pd.toNat c.m met) }
    else if met then { s := s } else c.wait s (.stgacq a) 0 none))

/-- STGACQ_WAKE (R373). -/
def execStgacqWake (agent : Nat) (s : State) : Host.Outcome State Fault Refusal :=
  .next (match (s.team agent).waiting with
    | some { instr := .stgacq x, .. } => if stageMet s agent x then s.wake agent else s
    | _ => s)

/-! ## Counters and time (R374, R375) -/

/-- The classes in the order of CMASK and CLS. -/
def EngClass.all : List EngClass := [.copy, .tile, .matrix, .coll, .tag]

/-- WAIT's counters are at or below the threshold. -/
def waitMet (t : Team) (a : SArgs) : Bool :=
  let n := if a.a = .vz then fnBits a.sfn 5 8 else (t.opndU a.a).toNat % 2 ^ 32
  EngClass.all.zipIdx.all (fun x => !a.sfn.getLsbD x.2 || decide (t.cnt.get x.1 ≤ n))

/-- WAIT (R374). -/
def execWait (a : SArgs) (s : State) : Host.Outcome State Fault Refusal :=
  issues (.wait a) (ruleS a) s (fun c => c.once s (fun _ =>
    if waitMet c.t a then { s := s } else c.wait s (.wait a) 0 none))

/-- WAIT_WAKE (R374). -/
def execWaitWake (agent : Nat) (s : State) : Host.Outcome State Fault Refusal :=
  .next (match (s.team agent).waiting with
    | some { instr := .wait x, .. } => if waitMet (s.team agent) x then s.wake agent else s
    | _ => s)

/-- The word of CNTRD. -/
def cntWord (k : Counters) (cls : Nat) : W64 :=
  if cls = 5 then BitVec.ofNat 64 (k.copy + k.tile * 2 ^ 8 + k.matrix * 2 ^ 16 + k.coll * 2 ^ 24 + k.tag * 2 ^ 32)
  else BitVec.ofNat 64 (k.get (EngClass.all.getD cls .copy))

/-- CNTRD (R374). -/
def execCntrd (a : SArgs) (s : State) : Host.Outcome State Fault Refusal :=
  issues (.cntrd a) (ruleS a) s (fun c => c.once s (fun _ =>
    { s := s.setTeam c.a (c.t.setdU a.d (cntWord c.t.cnt (fnBits a.sfn 0 3))) }))

/-- SLEEP (R375): with WAKE it issues again when a counter has fallen in time. -/
def execSleep (a : SArgs) (s : State) : Host.Outcome State Fault Refusal :=
  issues (.sleep a) (ruleS a) s (fun c => c.once s (fun _ =>
    let n := min ((c.t.opndU a.a).toNat % 2 ^ 32) 10000000
    let fin := fun (early : Bool) => ({ s := s.setTeam c.a (c.t.setPredMask a.pd.toNat c.m early) } : Res)
    match c.t.waiting with
    | none => if n = 0 then fin false else c.wait s (.sleep a) (s.clk.now + n) none
    | some w =>
      if w.woken then fin true
      else if w.until_ ≤ s.clk.now then fin false
      else c.wait s (.sleep a) w.until_ none))

/-- SLEEP_END (R375): the time has passed, and the team goes on; PD is true when a counter fell in time (R377). -/
def execSleepEnd (agent : Nat) (s : State) : Host.Outcome State Fault Refusal :=
  let t := s.team agent
  .next (match t.waiting with
    | some w =>
      match w.instr with
      | .sleep x =>
        if w.until_ ≤ s.clk.now then
          ((s.setTeam agent { t.setPredMask x.pd.toNat (t.en x.g) w.woken with since := s.mcyc agent }).lateDeath agent w).leave
            agent t.pc .seq
        else s
      | _ => s
    | none => s)

end Sys2Proof.Machine
end

