-- ==== Sys2Proof/Machine/Tags.lean ====
section
/-! DEFINITION. The context-tag instructions, the allocator and the freeing of cells (04 R88-R108). -/
namespace Sys2Proof.Machine

/-! ## The allocator (R88-R90) -/

/-- The lowest FREE tag from `k` on; the fuel is one more than the tags in use. -/
def lowestFree (ts : List (Nat × TagState)) : Nat → Nat → Nat
  | 0, k => k
  | n + 1, k => if tget .free ts k = .free then k else lowestFree ts n (k + 1)

/-- The tag that the allocator of a partition hands out, when one is FREE. -/
def State.freeTag (s : State) (p : Nat) : Option Nat :=
  let k := lowestFree (s.part p).tags ((s.part p).tags.length + 1) 1
  if k ≤ 0xFFFE then some k else none

/-- A tag's state. -/
def State.tagState (s : State) (p : Nat) (t : Nat) : TagState := tget .free (s.part p).tags t

def State.setTag (s : State) (p t : Nat) (x : TagState) : State :=
  s.modPart p (fun q => { q with tags := tset .free q.tags t x })

/-- The tag is handed out once more. -/
def State.newLife (s : State) (p t : Nat) : State :=
  s.modPart p (fun q => { q with lives := tset 0 q.lives t (tget 0 q.lives t + 1) })

/-- The place of a team's wait in TAGNEW in the order in which waits began. -/
def Team.tagnewSince (t : Team) : Option Nat :=
  match t.waiting with
  | some { instr := .tagnew _, seq := u, .. } => some u
  | _ => none

/-- No team of the partition has waited in TAGNEW longer than agent `a`, whose wait is number `u`: requests that began to
wait at the same time are served in the order in which they issued (log 66). -/
def State.oldestTagnew (s : State) (p a u : Nat) : Bool :=
  s.teams.all (fun x => match x.2.tagnewSince with
    | none => true
    | some v => x.1 == a || s.partOf x.1 != p || decide (u < v))

/-- The rule of a tag instruction; the check outside any enclave comes after those of issue (R102). -/
def inEnclave (s : State) (c : Ctx) (f : Unit → Res) : Res :=
  c.once s (fun _ => if s.eidOf c.a = 0 then c.trap s .perm else f ())

/-- TAGNEW (R104, R89, R90). -/
def execTagnew (a : SArgs) (s : State) : Host.Outcome State Fault Refusal :=
  issues (.tagnew a) { ruleS a with banned := true } s (fun c => inEnclave s c (fun _ =>
    let p := s.partOf c.a
    let since := (c.t.tagnewSince).getD s.nextWait
    let fin := fun (s : State) (t : Nat) => ({ s := s.modTeam c.a (fun x =>
      (x.setdU a.d (BitVec.ofNat 64 t)).setPredMask a.pd.toNat c.m (t != 0xFFFF)) } : Res)
    match (if s.oldestTagnew p c.a since then s.freeTag p else none) with
    | some t => fin ((s.setTag p t (.live (s.eidOf c.a))).newLife p t) t
    | none => if c.stalledOut s then fin s 0xFFFF else c.wait s (.tagnew a) 0 none))

/-- TAGNEW_GRANT (R90): a tag is FREE, and this request is the oldest. -/
def execTagnewGrant (agent : Nat) (s : State) : Host.Outcome State Fault Refusal :=
  let p := s.partOf agent
  .next (match (s.team agent).tagnewSince with
    | some u => if s.oldestTagnew p agent u && (s.freeTag p).isSome then s.wake agent else s
    | none => s)

/-- TAGNEW_TIMEOUT (R90): the stall has lasted 2^20 cycles, and the request completes. -/
def execTagnewTimeout (agent : Nat) (s : State) : Host.Outcome State Fault Refusal :=
  let t := s.team agent
  let out := t.waiting.any (fun w => decide (w.cycles + 2 ^ 20 * 1000 ≤ s.mcyc agent))
  .next (if t.tagnewSince.isSome && out then s.wake agent else s)

/-! ## TAGSET, TAGGET, TAGRET (R105-R107) -/

/-- TAGSET (R105). -/
def execTagset (a : SArgs) (s : State) : Host.Outcome State Fault Refusal :=
  issues (.tagset a) (ruleS a) s (fun c => c.once s (fun _ => tagSet c s (c.t.opndU a.a)))

/-- TAGGET (R106). -/
def execTagget (a : SArgs) (s : State) : Host.Outcome State Fault Refusal :=
  issues (.tagget a) (ruleS a) s (fun c => inEnclave s c (fun _ =>
    let b := c.t.rslot (fnBits a.sfn 41 4)
    let t := if fnBits a.sfn 40 1 = 1 ∧ b.tagm = 2 then b.tag else c.t.tag
    { s := s.setTeam c.a (c.t.setdU a.d (t.setWidth 64)) }))

/-- Operations of an owner numbered below `upto` that have not retired. -/
def State.ownPending (s : State) (o upto : Nat) : Bool :=
  s.eng.tileOps.any (fun x => x.agent == o && decide (x.id < upto)) ||
  s.eng.copyOps.any (fun x => x.owner == o && decide (x.id < upto)) ||
  s.eng.collOps.any (fun x => x.owner == o && decide (x.id < upto)) ||
  s.crews.any (fun c => c.2.mops.any (fun x => x.agent == o && decide (x.id < upto)))

/-- TAGRET (R107, R99): it takes effect when the team's earlier operations have retired. A second TAGRET of a tag whose first has
not taken effect raises TAGBAD (DESIGN CHOICE: R107 does not say; log 54). -/
def execTagret (a : SArgs) (s : State) : Host.Outcome State Fault Refusal :=
  issues (.tagret a) { ruleS a with banned := true } s (fun c => inEnclave s c (fun _ =>
    let p := s.partOf c.a
    let e := s.eidOf c.a
    let t := (c.t.opndU a.a).toNat % 65536
    let o := s.ownOf c.a
    if t = 0 ∨ t = 0xFFFF ∨ s.tagState p t ≠ .live e then c.trap s .tagbad
    else if c.t.cntFull .tag then c.wait s (.tagret a) 0 none
    else
      let n := s.eng.nextOp
      let s := (s.takeOp).2.modTeam c.a (fun x => x.cntUp .tag)
      { s := s.setTag p t (if s.ownPending o n then .leaving e o n else .retiring e (some (o, n))) }))

/-- The cells of a tag. -/
def State.tagCells (s : State) (p : Nat) (t : BitVec 16) : List Cell :=
  s.mem.cells.filter (fun c => c.part == p && c.tag == t)

/-- A cell is cleared to zero, its cache lines and their pins go, and its slot is free. -/
def State.freeCell (s : State) (c : Cell) : State :=
  let s := (s.zeroRange c.slot 4096).dropLinesAt c.slot 4096
  { s with mem := { s.mem with cells := s.mem.cells.filter (fun x => x != c) } }

/-- The L1 lines under a tag of a partition's enclaves leave: no line of the tag's life remains (R88). -/
def State.dropTagLines (s : State) (p t : Nat) : State :=
  s.modCaches (fun c => { c with l1 := tmap [] (fun ls => ls.filter (fun x =>
    !(x.tag.toNat == t && (s.enc x.eid).part == p))) c.l1 })

/-- A tag without cells becomes FREE, and the counter that its retirement holds falls (R99). -/
def State.tagFreed (s : State) (p t : Nat) (o : Option (Nat × Nat)) : State :=
  let s := (s.setTag p t .free).dropTagLines p t
  match o with
  | none => s
  | some o => s.modOwn o.1 (fun x => x.cntDown .tag s.clk.now (s.mcyc o.1))

/-- A TAGRET of the same owner that issued earlier has not retired (14 R362). -/
def State.olderTagret (s : State) (p : Nat) (o : Option (Nat × Nat)) : Bool :=
  match o with
  | none => false
  | some (k, n) => (s.part p).tags.any (fun x => match x.2 with
    | .leaving _ k' n' => k' == k && decide (n' < n)
    | .retiring _ (some (k', n')) => k' == k && decide (n' < n)
    | _ => false)

/-- TAG_CELL_FREE (R99): a retirement takes effect, one cell of a RETIRING tag is freed, or the tag becomes FREE, once every
earlier TAGRET of its owner has retired. -/
def execTagCellFree (part : Nat) (tag : BitVec 16) (s : State) : Host.Outcome State Fault Refusal :=
  .next (match s.tagState part tag.toNat with
    | .leaving e o upto => if s.ownPending o upto then s else s.setTag part tag.toNat (.retiring e (some (o, upto)))
    | .retiring _ o =>
      let late := s.olderTagret part o
      match s.tagCells part tag with
      | [] => if late then s else s.tagFreed part tag.toNat o
      | [c] => if late then s.freeCell c else (s.freeCell c).tagFreed part tag.toNat o
      | c :: _ => s.freeCell c
    | _ => s)

/-! ## TAGQRY (R108) -/

/-- Tags of a partition in the states that `f` names. -/
def State.countTags (s : State) (p : Nat) (f : TagState → Bool) : Nat := ((s.part p).tags.filter (fun x => f x.2)).length

/-- A RETIRING tag. -/
def TagState.isRetiring : TagState → Bool
  | .retiring _ _ => true
  | _ => false

/-- TAGQRY with SEL 0. -/
def execTagqryFree (a : SArgs) (s : State) : Host.Outcome State Fault Refusal :=
  issues (.tagqryFree a) (ruleS a) s (fun c => inEnclave s c (fun _ =>
    let p := s.partOf c.a
    let l := s.countTags p (fun x => x.liveIn.isSome)
    let r := s.countTags p TagState.isRetiring
    { s := s.setTeam c.a (c.t.setdU a.d (BitVec.ofNat 64 (65534 - l - r + l * 2 ^ 16 + r * 2 ^ 32))) }))

/-- The word of TAGQRY with SEL 1. -/
def tagWord (s : State) (p e t : Nat) : W64 :=
  if t = 0 ∨ t = 0xFFFF then BitVec.allOnes 64
  else match s.tagState p t with
    | .free => 0
    | .retiring _ _ => 3
    | x => if x.liveIn = some e then BitVec.ofNat 64 (1 + (s.tagCells p (BitVec.ofNat 16 t)).length * 2 ^ 32) else 2

/-- TAGQRY with SEL 1. -/
def execTagqryTag (a : SArgs) (s : State) : Host.Outcome State Fault Refusal :=
  issues (.tagqryTag a) (ruleS a) s (fun c => inEnclave s c (fun _ =>
    { s := s.setTeam c.a (c.t.setdU a.d (tagWord s (s.partOf c.a) (s.eidOf c.a) ((c.t.opndU a.a).toNat % 65536))) }))

/-- Cell slots of a partition's pool in a stack: free and total. -/
def State.poolSlots (s : State) (p k : Nat) : Nat × Nat :=
  let fs := (s.part p).pool.filter (fun f => f / 2 ^ 20 == k)
  let used := (s.mem.cells.filter (fun c => c.part == p && fs.contains (c.slot / 65536))).length
  (16 * fs.length - used, 16 * fs.length)

/-- TAGQRY with SEL 2. -/
def execTagqryPool (a : SArgs) (s : State) : Host.Outcome State Fault Refusal :=
  issues (.tagqryPool a) (ruleS a) s (fun c => inEnclave s c (fun _ =>
    let k := (c.t.opndU a.a).toNat
    let x := s.poolSlots (s.partOf c.a) k
    { s := s.setTeam c.a (c.t.setdU a.d (if 12 ≤ k then BitVec.allOnes 64 else BitVec.ofNat 64 (x.1 + x.2 * 2 ^ 32))) }))

end Sys2Proof.Machine
end

