-- ==== Sys2Proof/Machine/MustSave.lean ====
section
/-! DEFINITION. Must-save items: MSDECL, MSDROP, MSQRY and PFRET (17 R440-R446). -/
namespace Sys2Proof.Machine

/-- The result word (R442). -/
def msWord (e st rst : Nat) : W64 := BitVec.ofNat 64 (e % 4096 + st * 2 ^ 16 + rst * 2 ^ 24)

/-- The sum of the lengths of all declared items (R443). -/
def State.itemTotal (s : State) : Nat := (s.encl.map (fun e => (e.2.items.map (fun i => i.len)).sum)).sum

/-- Restorable items of the enclave's measurement, profile and key (R438). -/
def State.restorable (s : State) (e : Nat) (key : W32) : List SavedItem :=
  s.hold.restorable.filter (fun i => i.meas == (s.enc e).meas && i.openProf == (s.enc e).openProf && i.key == key)

/-- The one with the lowest SEQ. -/
def State.lowestItem (s : State) (e : Nat) (key : W32) : Option SavedItem :=
  (s.restorable e key).foldl (fun b i => match b with
    | none => some i
    | some x => some (if i.seq < x.seq then i else x)) none

/-- A restorable item is read: a whole one whose record fails verification is torn from then on, and is recorded (R437). -/
def State.verify (s : State) (i : SavedItem) : State × SavedItem :=
  if i.bad ∧ i.st = 1 then
    let j : SavedItem := { i with st := 2, bytes := [], bad := false }
    (({ s with hold := { s.hold with restorable := s.hold.restorable.map (fun x => if x = i then j else x) } } : State).log
      0x0F 0 0 0 0 (BitVec.ofNat 64 i.seq), j)
  else (s, i)

/-- A restorable item is discarded. -/
def State.discard (s : State) (i : SavedItem) : State :=
  { s with hold := { s.hold with restorable := s.hold.restorable.erase i } }

/-- The frame of a page that is a resident primary mapping of the enclave with read permission, outside every
aperture. -/
def State.primaryPage (s : State) (r : Req) (vpn : Nat) : Option (Nat × Ipt) :=
  match s.findMap r.eid vpn with
  | none => none
  | some l =>
    let i := s.iptOf l.pfn
    if l.slot = 0 && i.valid && i.m0.perm.getLsbD 0 && (s.apertOf r (vpn * 65536)).isNone then some (l.pfn, i) else none

/-- The pages of a range. -/
def pagesOf (va len : Nat) : List Nat := (List.range ((va + len + 65535) / 65536 - va / 65536)).map (fun j => va / 65536 + j)

/-- Restore the 4 KiB granules of a range from an item, in order. -/
def restoreGo (r : Req) (g : TagUse) (va : Nat) (bytes : List (Nat × Byte)) : Nat → Nat → State → Ans Unit
  | _, 0, s => (s, .ok ())
  | k, n + 1, s =>
    let x := va + 4096 * k
    match s.primaryPage r (x / 65536) with
    | none => (s, .error (.cause .pagef x))
    | some (pfn, i) =>
      match placeWrite s r g x (.hbm pfn i) with
      | (s, .error b) => (s, .error b)
      | (s, .ok p) =>
        match writePlace s r g x ((List.range 4096).map (fun j => tget 0 bytes (4096 * k + j))) p with
        | (s, .error b) => (s, .error b)
        | (s, .ok _) => restoreGo r g va bytes (k + 1) n s

/-- A restore may write the page under the tag (04 R97; log 31). -/
def itemTagOk (s : State) (r : Req) (g : TagUse) (vpn : Nat) : Bool :=
  match s.primaryPage r vpn with
  | some (_, i) => tagOk s r g i.tagged
  | none => false

/-- msdecl(va, len, key, tag) (R443): the state, the status and RST. -/
def msdecl (s : State) (r : Req) (bad : Bool) (va len : Nat) (key : W32) (g : TagUse) : State × Nat × Nat :=
  let e := s.enc r.eid
  if bad || va % 4096 != 0 || len % 4096 != 0 || decide (len < 4096) || decide (6 * 2 ^ 30 < len) then (s, 0x02, 0)
  else if decide (2 ^ 57 < va + len) || !(pagesOf va len).all (fun p => (s.primaryPage r p).isSome) then
    (s, 0x03, 0)
  else if e.items.any (fun i => i.key == key) then (s, 0x06, 0)
  else if decide (1024 ≤ e.items.length) || decide (s.board.capacity < s.itemTotal + len) then (s, 0x0E, 0)
  else
    let add := fun (s : State) => s.modEnc r.eid (fun e => { e with items := e.items ++ [{ va := va, len := len, key := key, tag := g.tag }] })
    match s.lowestItem r.eid key with
    | none => (add s, 0, 0)
    | some i =>
      let (s, i) := s.verify i
      if i.st = 1 ∧ i.len = len then
        if !(pagesOf va len).all (itemTagOk s r g) then (s, 0x03, 0)
        else match restoreGo r g va i.bytes 0 (len / 4096) s with
        | (s', .ok _) => (add (s'.discard i), 0, 1)
        | (_, .error (.full _)) => (s, 0x0E, 0)
        | (_, .error _) => (s, 0x03, 0)
      else (add (s.discard i), 0, 2)

/-- D and PD of MSDECL. -/
def msdeclRes (c : Ctx) (a : SArgs) (r : State × Nat × Nat) : Res :=
  { s := r.1.modTeam c.a (fun t =>
      (t.setdU a.d (msWord (r.1.eidOf c.a) r.2.1 r.2.2)).setPredMask a.pd.toNat c.m (r.2.1 = 0)) }

/-- MSDECL, MODE 0 (R443). -/
def execMsdecl (a : SArgs) (s : State) : Host.Outcome State Fault Refusal :=
  issues (.msdecl a) { ruleS a with banned := true, srcs := [(a.a, 2), (a.b, 1)] } s (fun c => inEnclave s c (fun _ =>
    msdeclRes c a (msdecl s (s.req c.a) false ((c.t.uniAt a.a 0).toNat % 2 ^ 57) (c.t.uniAt a.a 1).toNat
      ((c.t.opndU a.b).setWidth 32) { tag := c.t.tag, must := false })))

/-- MSDECL, MODE 1 (R443): the range is that of a record. -/
def execMsdeclRec (a : SArgs) (s : State) : Host.Outcome State Fault Refusal :=
  issues (.msdeclRec a) { ruleS a with banned := true } s (fun c => inEnclave s c (fun _ =>
    let b := c.t.rslot (fnBits a.sfn 1 4)
    msdeclRes c a (msdecl s (s.req c.a) b.flat b.base ((b.extent + 4095) / 4096 * 4096)
      ((c.t.opndU a.b).setWidth 32) (c.t.tagUse b))))

/-- MSDROP (R444). -/
def execMsdrop (a : SArgs) (s : State) : Host.Outcome State Fault Refusal :=
  issues (.msdrop a) { ruleS a with banned := true } s (fun c => inEnclave s c (fun _ =>
    let e := s.eidOf c.a
    let key : W32 := (c.t.opndU a.a).setWidth 32
    let had := (s.enc e).items.any (fun i => i.key == key)
    let it := s.lowestItem e key
    let s := s.modEnc e (fun x => { x with items := x.items.filter (fun i => i.key != key) })
    let s := match it with
      | some i => s.discard i
      | none => s
    let ok := had || it.isSome
    { s := s.modTeam c.a (fun t => (t.setdU a.d (msWord e (if ok then 0 else 0x02) 0)).setPredMask a.pd.toNat c.m ok) }))

/-- MSQRY with SEL 0 (R445). -/
def execMsqryCap (a : SArgs) (s : State) : Host.Outcome State Fault Refusal :=
  issues (.msqryCap a) (ruleS a) s (fun c => inEnclave s c (fun _ =>
    { s := s.setTeam c.a (c.t.setdU a.d (BitVec.ofNat 64
      ((s.board.capacity - s.itemTotal) / 4096 % 2 ^ 32 + (s.enc (s.eidOf c.a)).items.length % 65536 * 2 ^ 32))) }))

/-- MSQRY with SEL 1 (R445). -/
def execMsqryItem (a : SArgs) (s : State) : Host.Outcome State Fault Refusal :=
  issues (.msqryItem a) (ruleS a) s (fun c => inEnclave s c (fun _ =>
    let key : W32 := (c.t.opndU a.a).setWidth 32
    let v := match (s.enc (s.eidOf c.a)).items.find? (fun i => i.key == key) with
      | some i => 1 + i.len / 4096 * 2 ^ 32
      | none => 0
    { s := s.setTeam c.a (c.t.setdU a.d (BitVec.ofNat 64 v)) }))

/-- MSQRY with SEL 2 (R445). -/
def execMsqryRst (a : SArgs) (s : State) : Host.Outcome State Fault Refusal :=
  issues (.msqryRst a) (ruleS a) s (fun c => inEnclave s c (fun _ =>
    let key : W32 := (c.t.opndU a.a).setWidth 32
    let (s, v) := match s.lowestItem (s.eidOf c.a) key with
      | some i => let (s, i) := s.verify i; (s, i.st % 4 + s.hold.srcGen.toNat % 2 ^ 32 * 2 ^ 32)
      | none => (s, 0)
    { s := s.setTeam c.a (c.t.setdU a.d (BitVec.ofNat 64 (v + bit s.hold.srcCommitted * 4))) }))

/-- PFRET (R446): PERM outside a power-fail handler. -/
def execPfret (a : SArgs) (s : State) : Host.Outcome State Fault Refusal :=
  issues (.pfret a) (ruleS a) s (fun c => c.once s (fun _ =>
    if c.t.run = .pfHandler then { s := s.pfStop c.a, flow := .gone } else c.trap s .perm))

end Sys2Proof.Machine
end

