-- ==== Sys2Proof/Machine/Traps.lean ====
section
/-! DEFINITION. TRAP, the returns from a handler or vector, the resolution of calls and notices, notices to control threads,
and TLBINV (16 R410, R411, R420-R423, 03 R82, R83). -/
namespace Sys2Proof.Machine

/-! ## Results of the instructions of the control cores -/

/-- The result word of 02 R50 to D, and PD. -/
def Ctx.result (c : Ctx) (s : State) (a : SArgs) (id st : Nat) : Res :=
  { s := s.modTeam c.a (fun t => (t.setdU a.d (State.resWord id st)).setPredMask a.pd.toNat c.m (st = 0)) }

/-- The instruction acts in world 2 outside every enclave, and raises PERM elsewhere (02 R49, 16 R420). -/
def osOnly (s : State) (c : Ctx) (f : Unit → Res) : Res :=
  c.once s (fun _ => if s.osThread c.a then f () else c.trap s .perm)

/-! ## TRAP and ERET with TOK 0 (R421, R422) -/

/-- TRAP (R421). -/
def execTrap (a : SArgs) (s : State) : Host.Outcome State Fault Refusal :=
  issues (.trap a) (ruleS a) s (fun c => c.trap s .trap)

/-- eret_local(): PERM when INH is 0 (R420). A block that ERET leaves through its last valid slot is compared (07 R188). -/
def eretLocal (s : State) (retry kill : Bool) (c : Ctx) : Res :=
  c.once s (fun _ =>
    if !c.t.frame.inh then c.trap s .perm
    else if c.t.sigBad c.pc then { s := s.sigmis c.a c.pc, flow := .gone }
    else if isThread c.a && kill then
      { s := (s.modTeam c.a (fun t => { t with frame := { t.frame with inh := false } })).stopThread c.a, flow := .gone }
    else { s := s.handlerReturn c.a retry kill, flow := .gone })

/-- ERET.retry (R422). -/
def execEretRetry (a : SArgs) (s : State) : Host.Outcome State Fault Refusal :=
  issues (.eretRetry a) (ruleS a) s (eretLocal s true false)

/-- ERET.skip (R422). -/
def execEretSkip (a : SArgs) (s : State) : Host.Outcome State Fault Refusal :=
  issues (.eretSkip a) (ruleS a) s (eretLocal s false false)

/-- ERET.kill (R422). -/
def execEretKill (a : SArgs) (s : State) : Host.Outcome State Fault Refusal :=
  issues (.eretKill a) (ruleS a) s (eretLocal s false true)

/-! ## ERET with TOK 1 (R423) -/

/-- MODE of ERET with TOK 1. -/
inductive TokMode where
  | resume | decline | abort
  deriving DecidableEq, Repr

namespace State

/-- A parked team or call goes on. -/
def unpark (s : State) (a : Nat) : State :=
  s.modTeam a (fun t => { t with run := .running, token := 0, resolved := none, since := s.mcyc a, aged := false })

/-- The team's block is fetched and checked again before its next instruction (06 R141). -/
def refetch (s : State) (a : Nat) : State := s.modTeam a (fun t => { t with block := [] })

/-- A declined team: the lanes of RPM take the parked cause as a policy trap. -/
def declineTeam (s : State) (a : Nat) : State :=
  let t := s.team a
  let k := t.replay.getD 0 &&& t.live
  let s := (s.unpark a).modTeam a (fun t => { t with replay := none })
  if k = 0 then s.leave a t.pc .seq
  else
    let (s, stop) := s.policy a t.pc (trapAll t.width k t.parkCause) 0
    if stop then s else s.leave a t.pc .seq

/-- An engine operation that waited at a page fault goes on; with `decl` it stops with FAULT. -/
def engineGo (s : State) (op : Nat) (decl : Bool) : State :=
  { s with eng := { s.eng with
      tileOps := s.eng.tileOps.map (fun o => if o.id = op then { o with token := none, decl := decl } else o)
      copyOps := s.eng.copyOps.map (fun o => if o.id = op then { o with token := none, decl := decl } else o) } }

/-- An operation of a control thread has no fixture to abort: it stops with CANCEL. -/
def engineCancel (s : State) (op : Nat) : State :=
  { s with eng := { s.eng with
      copyOps := s.eng.copyOps.map (fun o => if o.id = op then { o with token := none, cancel := true } else o) } }

/-- The post of a token. -/
def postOf (s : State) (tok : Nat) : Option Post := s.posts.find? (fun p => p.token == tok)

/-- A token that is resolved or withdrawn. -/
def dropPost (s : State) (tok : Nat) : State := { s with posts := s.posts.filter (fun p => p.token != tok) }

/-- A resolution acts on a parked team or call of a resident crew. -/
def applyRes (s : State) (a : Nat) (r : Resolution) : State :=
  let t := s.team a
  let call := t.run == .called
  match r with
  | .resume args =>
    if call then
      let s := s.modTeam a (fun t => (args.getD []).zipIdx.foldl (fun t x => t.setU x.2 x.1) t)
      ((s.unpark a).leave a t.pc .seq).refetch a
    else (s.unpark a).refetch a
  | .decline => (s.declineTeam a).refetch a
  | .abort => s.terminateFixture (s.fxOf a) 0x05 (if call then 0 else t.parkCause.code)

/-- A team whose crew is saved takes the resolution when it is restored (R412, R423). -/
def resolveTeam (s : State) (a : Nat) (r : Resolution) : State :=
  if s.resident a then s.applyRes a r else s.modTeam a (fun t => { t with resolved := some r })

/-- The teams of a restored crew take the resolutions that came while it was saved. -/
def takeRes (s : State) (n : Nat) : State :=
  ((List.range (s.crew n).nteams).map (agentOf n)).foldl (fun (s : State) a =>
    match (s.team a).resolved with
    | none => s
    | some r => if (s.crew n).done then s else s.applyRes a r) s

/-- The resolution of a post: `args` are the new s0 to s3 of a call. None is BADREQ. -/
def resolve (s : State) (p : Post) (m : TokMode) (args : Option (List W64)) : Option State :=
  let s := s.dropPost p.token
  match p.kind, m with
  | .call, .resume => some (s.resolveTeam p.agent (.resume args))
  | .call, .decline => none
  | .call, .abort => some (s.resolveTeam p.agent .abort)
  | .team, .resume => if args.isSome then none else some (s.resolveTeam p.agent (.resume none))
  | .team, .decline => some (s.resolveTeam p.agent .decline)
  | .team, .abort => some (s.resolveTeam p.agent .abort)
  | .engine op, .resume => some (s.engineGo op false)
  | .engine op, .decline => some (s.engineGo op true)
  | .engine op, .abort =>
    if isThread p.agent || decide (2 ^ 64 ≤ p.agent) then some (s.engineCancel op)
    else some (s.terminateFixture (s.fxOf p.agent) 0x05 p.cause.code)
  | .thread, _ => some s

end State

/-- ERET with TOK 1: PRIV at L0, in every active live lane (06 R166). -/
def eretToken (s : State) (a : SArgs) (m : TokMode) (c : Ctx) : Res :=
  if s.levelOf c.a = .l0 then { s := s, k := trapAll c.t.width c.t.cur .priv }
  else c.once s (fun _ =>
    match s.postOf (c.t.opndU a.a).toNat with
    | none => c.result s a 0 0x02
    | some p =>
      let args := if a.b = .vz then none else some ((List.range 4).map (fun k => c.t.uniAt a.b k))
      match s.resolve p m args with
      | none => c.result s a p.eid 0x02
      | some s => c.result s a p.eid 0)

/-- ERET.resume (R423). -/
def execEretResume (a : SArgs) (s : State) : Host.Outcome State Fault Refusal :=
  issues (.eretResume a) { guard := a.g, srcs := [(a.a, 1), (a.b, 4)] } s (eretToken s a .resume)

/-- ERET.decline (R423). -/
def execEretDecline (a : SArgs) (s : State) : Host.Outcome State Fault Refusal :=
  issues (.eretDecline a) (ruleS a) s (eretToken s a .decline)

/-- ERET.abort (R423). -/
def execEretAbort (a : SArgs) (s : State) : Host.Outcome State Fault Refusal :=
  issues (.eretAbort a) (ruleS a) s (eretToken s a .abort)

/-! ## Queues and notices (15 R382, R410, R411) -/

/-- QUEUE_TAIL_POLL (15 R382): the device reads TAIL and posts the entries that wait, oldest first. -/
def execQueueTailPoll (part : Nat) (s : State) : Host.Outcome State Fault Refusal :=
  .next (s.postGo [] (s.posts.filter (fun p => p.part == part && !p.posted)))

/-- CONTROL_THREAD_NOTICE (R411): a notice at a thread's boundary. A waiting instruction stops as at a
pre-emption; when what it was ends in a machine check (07 R188), the notice stays pending. The instruction that an ERET replays, or completes with no effect, belongs to the ERET (R422), so no boundary
lies between them. -/
def execControlThreadNotice (agent : Nat) (s : State) : Host.Outcome State Fault Refusal :=
  let th := s.thread agent
  let t := s.team agent
  .next (if isThread agent && th.pending && t.run == .running && s.board.power == .on && !t.frame.inh &&
        (t.replay.isNone || th.eid != 0) then
      let clear := fun (s : State) => s.setThread agent { s.thread agent with pending := false }
      let s := s.pauseTeam agent
      if th.eid ≠ 0 then clear (if (s.thread agent).eid ≠ 0 then s.aex agent else s)
      else if (s.team agent).frame.inh || (s.team agent).run != .running then s
      else match th.vec with
        | none => s
        | some v => clear (s.vectorEntry agent (s.team agent).pc 0 v)
    else s)

/-- CONTROL_THREAD_RESTART (07 R196): the operating system starts a stopped thread at a block (log 17). -/
def execControlThreadRestart (agent : Nat) (pc : W64) (s : State) : Host.Outcome State Fault Refusal :=
  let t := s.team agent
  .next (if isThread agent && t.run == .stopped && s.board.power == .on && pc.toNat % 64 == 0 then
      s.setTeam agent { (t.goto pc).setRec 15 Rec.flat0 with
        run := .running, active := 1, live := 1, exited := 0, stack := []
        frame := { t.frame with inh := false } }
    else s)

/-! ## TLBINV (03 R82-R84) -/

/-- The enclave is neither FREE nor DYING (02 R44). -/
def State.encLive (s : State) (e : Nat) : Bool := (s.enc e).st == .building || (s.enc e).st == .sealed

/-- The page lies in an aperture of partition `p`. -/
def State.inAperture (s : State) (p vpn : Nat) : Bool :=
  (s.part p).apert.any (fun x => x.2.target != 0 && decide (x.2.vabase / 65536 ≤ vpn) && decide (vpn < x.2.vabase / 65536 + x.2.pages))

/-- TLBINV of a kind, once its space is known to be live. -/
def tlbinv (c : Ctx) (s : State) (a : SArgs) (kind : Nat) : Res :=
  c.once s (fun _ =>
    if s.eidOf c.a ≠ 0 then c.trap s .perm
    else
      let e := (c.t.opndU a.a).toNat % 4096
      let b := (c.t.opndU a.b).toNat
      if e ≠ 0 ∧ !s.encLive e then c.result s a e 0x08
      else if kind = 0 then
        if 2 ^ 57 ≤ b then c.result s a e 0x02
        else c.result (s.purge e (fun v => decide (b / 65536 ≤ v) && decide (v ≤ b / 65536 + b % 65536))) a e 0
      else if kind = 1 then c.result (s.purge e (fun _ => true)) a e 0
      else if e = 0 then c.result s a e 0x02
      else
        let p := (s.enc e).part
        let es := (s.encl.filter (fun x => x.2.part == p)).map (·.1)
        c.result (es.foldl (fun (s : State) e => s.purge e (s.inAperture p)) s) a e 0)

/-- TLBINV (03 R82). -/
def execTlbinv (a : SArgs) (s : State) : Host.Outcome State Fault Refusal :=
  issues (.tlbinv a) (ruleS a) s (fun c => tlbinv c s a 0)

/-- TLBINV.all (03 R82). -/
def execTlbinvAll (a : SArgs) (s : State) : Host.Outcome State Fault Refusal :=
  issues (.tlbinvAll a) (ruleS a) s (fun c => tlbinv c s a 1)

/-- TLBINV.ap (03 R82). -/
def execTlbinvAp (a : SArgs) (s : State) : Host.Outcome State Fault Refusal :=
  issues (.tlbinvAp a) (ruleS a) s (fun c => tlbinv c s a 2)

end Sys2Proof.Machine
end

