-- ==== Sys2Proof/Machine/Events.lean ====
section
/-! DEFINITION. Event counters, EVSIG and EVWAIT, the eligibility of fixtures, and engine leases (05 R111, R112, R122-R131,
15 R397). -/
namespace Sys2Proof.Machine

/-! ## Eligibility (R111) -/

/-- The fixture carries a calendar entry or a deadline, and keeps no order in its queue. -/
def Desc.timed (d : Desc) : Bool := d.cal || d.deadline != 0

/-- Every wait pair is met now (01 R30). -/
def State.waitsMet (s : State) (p : Nat) (d : Desc) : Bool :=
  d.waits.all (fun w => w.2 == 0 || decide (w.2 ≤ (s.event p w.1).toNat))

/-- The fixture accepted before `f` on its queue that is not timed has had every crew placed. -/
def State.turnOf (s : State) (f : Fixture) : Bool :=
  let before := s.fixtures.filter (fun x =>
    x.2.part == f.part && x.2.queue == f.queue && decide (x.2.order < f.order) && !x.2.desc.timed)
  match before.foldl (fun (b : Option Fixture) x => match b with
      | none => some x.2
      | some y => some (if y.order < x.2.order then x.2 else y)) none with
  | none => true
  | some y => y.next == y.ncrews

/-- A fixture's wait pairs and turn are looked at. -/
def State.lookFixture (s : State) (n : Nat) : State :=
  let f := s.fixture n
  if f.retired || f.elig.isSome || f.desc.cal then s
  else
    let f := { f with met := f.met || s.waitsMet f.part f.desc }
    let f := if f.met && (f.desc.timed || s.turnOf f) then { f with elig := some s.clk.ptp } else f
    s.setFixture n f

/-- Every fixture of a partition is looked at, after a counter or a placement has changed. -/
def State.lookPart (s : State) (p : Nat) : State :=
  ((s.fixtures.filter (fun x => x.2.part == p)).map (·.1)).foldl State.lookFixture s

/-! ## Counters (R112) -/

/-- A counter takes a new value, and the wait pairs that name it are evaluated. -/
def State.putEvent (s : State) (p i : Nat) (v : W32) : State :=
  (s.modPart p (fun x => { x with events := tset 0 x.events i v })).lookPart p

/-- The sum exceeds 32 bits. -/
def evSat (c : W32) (v : Nat) : Bool := decide (2 ^ 32 ≤ c.toNat + v)

/-- One addition, saturating. -/
def State.addEvent (s : State) (p i v : Nat) : State :=
  let c := s.event p i
  s.putEvent p i (if evSat c v then BitVec.allOnes 32 else BitVec.ofNat 32 (c.toNat + v))

/-! ## EVSIG and EVWAIT (R129, R130, 15 R397) -/

/-- The ring whose doorbell is a counter. -/
def ringKey (p i : Nat) : Nat := p * 4096 + i
def State.ringAt (s : State) (k : Nat) : Ring := tget Ring.none s.eng.rings k
def State.setRing (s : State) (k : Nat) (r : Ring) : State :=
  { s with eng := { s.eng with rings := tset Ring.none s.eng.rings k r } }

/-- The event ID in A; a register above 4,095 raises PERM. -/
def eventId (c : Ctx) (s : State) (a : SArgs) (f : Nat → Res) : Res :=
  let i := (c.t.opndU a.a).toNat
  if 4095 < i then c.trap s .perm else f i

/-- An implicit request for a collective engine (R123). -/
def implicitCol (s : State) (p : Nat) : State :=
  let c := ((s.part p).cfg.map (fun c => c.colMax)).getD 0
  s.modPart p (fun x => { x with
    usedCol := true, impCol := x.impCol || (c != 0 && !s.eng.bindCol.any (fun x => x.2 == p + 1)) })

/-- `v` collectives posted by owner `o` on ring `k`. -/
def postColl (s : State) (o k v : Nat) : State :=
  let r := s.ringAt k
  let ops := (List.range v).map (fun j => ({ id := s.eng.nextOp + j, owner := o, ring := k, seq := r.posted + j } : CollOp))
  let s := s.setRing k { r with posted := r.posted + v }
  { s with eng := { s.eng with collOps := s.eng.collOps ++ ops, nextOp := s.eng.nextOp + v } }

/-- EVSIG with CLR 0 (R129); on a ring's doorbell it also posts collectives (15 R397). -/
def execEvsig (a : SArgs) (s : State) : Host.Outcome State Fault Refusal :=
  issues (.evsig a) (ruleS a) s (fun c => inEnclave s c (fun _ => eventId c s a (fun i =>
    let p := s.partOf c.a
    let v := (c.t.opndU a.b).toNat % 2 ^ 32
    let k := ringKey p i
    let r := s.ringAt k
    let add := fun (s : State) =>
      let sat := evSat (s.event p i) v
      (s.modTeam c.a (fun t => t.raise 0 (flagIf sat dEVSAT))).addEvent p i v
    if r.eid = 0 then { s := add s }
    else if 64 < (s.event p i).toNat + v - r.consumed then c.trap s .perm
    else if 255 < c.t.cnt.coll + v then c.wait s (.evsig a) 0 none
    else
      let s := postColl (add s) (s.ownOf c.a) k v
      let s := s.modTeam c.a (fun t => { t with cnt := { t.cnt with coll := t.cnt.coll + v } })
      { s := if v = 0 then s else implicitCol s p })))

/-- EVSIG with CLR 1; a doorbell counter cannot be cleared (15 R397). -/
def execEvsigClr (a : SArgs) (s : State) : Host.Outcome State Fault Refusal :=
  issues (.evsigClr a) (ruleS a) s (fun c => inEnclave s c (fun _ => eventId c s a (fun i =>
    let p := s.partOf c.a
    if (s.ringAt (ringKey p i)).eid ≠ 0 then c.trap s .perm else { s := s.putEvent p i 0 })))

/-- The counter has reached B[31:0]. -/
def evMet (s : State) (a : Nat) (t : Team) (x : SArgs) : Bool :=
  decide ((t.opndU x.b).toNat % 2 ^ 32 ≤ (s.event (s.partOf a) (t.opndU x.a).toNat).toNat)

/-- D and PD of EVWAIT. -/
def evDone (c : Ctx) (s : State) (a : SArgs) (i : Nat) : Res :=
  let v : W64 := (s.event (s.partOf c.a) i).setWidth 64
  { s := s.setTeam c.a ((c.t.setdU a.d v).setPredMask a.pd.toNat c.m (evMet s c.a c.t a)) }

/-- EVWAIT (R130). -/
def execEvwait (a : SArgs) (s : State) : Host.Outcome State Fault Refusal :=
  issues (.evwait a) { ruleS a with banned := true } s (fun c => inEnclave s c (fun _ => eventId c s a (fun i =>
    if evMet s c.a c.t a then evDone c s a i else c.wait s (.evwait a) 0 none)))

/-- EVWAIT.try (R130). -/
def execEvwaitTry (a : SArgs) (s : State) : Host.Outcome State Fault Refusal :=
  issues (.evwaitTry a) (ruleS a) s (fun c => inEnclave s c (fun _ => eventId c s a (fun i => evDone c s a i)))

/-- EVWAIT_WAKE (R130). -/
def execEvwaitWake (agent : Nat) (s : State) : Host.Outcome State Fault Refusal :=
  .next (match (s.team agent).waiting with
    | some { instr := .evwait x, .. } => if evMet s agent (s.team agent) x then s.wake agent else s
    | _ => s)

/-! ## Leases (R122-R124, R131) -/

/-- CLS of LEASE and UNLEASE: collective. -/
def isCol (a : SArgs) : Bool := fnBits a.sfn 44 1 == 1

/-- Engines of a class bound to a partition. -/
def State.boundTo (s : State) (col : Bool) (p : Nat) : Nat :=
  ((if col then s.eng.bindCol else s.eng.bindCpy).filter (fun x => x.2 == p + 1)).length

/-- The ceiling of a class. -/
def Part.ceil (x : Part) (col : Bool) : Nat := (x.cfg.map (fun c => if col then c.colMax else c.cpyMax)).getD 0

/-- The standing request of a class. -/
def Part.setReq (x : Part) (col : Bool) (n : Nat) : Part := if col then { x with reqCol := n } else { x with reqCpy := n }

/-- LEASE (R131). -/
def execLease (a : SArgs) (s : State) : Host.Outcome State Fault Refusal :=
  issues (.lease a) { ruleS a with banned := true } s (fun c => inEnclave s c (fun _ =>
    let p := s.partOf c.a
    let n := (c.t.opndU a.b).toNat % 32
    if 16 < n then c.trap s .perm
    else
      let s := s.modPart p (fun x => x.setReq (isCol a) (min n (x.ceil (isCol a))))
      { s := s.modTeam c.a (fun t => t.setdU a.d (BitVec.ofNat 64 (s.boundTo (isCol a) p))) }))

/-- UNLEASE (R131). -/
def execUnlease (a : SArgs) (s : State) : Host.Outcome State Fault Refusal :=
  issues (.unlease a) { ruleS a with banned := true } s (fun c => inEnclave s c (fun _ =>
    { s := s.modPart (s.partOf c.a) (fun x => x.setReq (isCol a) 0) }))

/-- What a partition may have of a class: its request, standing or implicit, within its ceiling. -/
def Part.want (x : Part) (col : Bool) : Nat :=
  min (if col then max x.reqCol (bit x.impCol) else max x.reqCpy (bit x.impCpy)) (x.ceil col)

/-- The partitions that want a class, rotated. -/
def State.wanters (s : State) (col : Bool) : List (Nat × Nat) :=
  let l := (s.parts.filter (fun x => x.2.cfg.isSome && x.2.want col != 0)).map (fun x => (x.1, x.2.want col))
  l.rotateLeft s.eng.rotation

/-- One engine to each partition that still wants one, round after round, in order: the partitions of the engines in
binding order. -/
def dealEngines : Nat → Nat → List (Nat × Nat) → List Nat
  | 0, _, _ => []
  | f + 1, n, l =>
    let now := ((l.filter (fun x => x.2 != 0)).map (·.1)).take n
    if now.isEmpty then []
    else now ++ dealEngines f (n - now.length) (l.map (fun x => (x.1, x.2 - 1)))

/-- The binding of a class's `n` engines. -/
def State.bindOf (s : State) (col : Bool) (n : Nat) : List (Nat × Nat) :=
  (dealEngines 16 n (s.wanters col)).zipIdx.map (fun x => (x.2, x.1 + 1))

/-- An implicit request lapses at the end of a period in which the partition has had no operation of the class outstanding; the
next period begins with those that are (R123). -/
def State.lapse (s : State) (p : Nat) : State :=
  let cpy := s.eng.copyOps.any (fun o => o.part == p && o.kind != .wsld)
  let col := s.eng.collOps.any (fun o => o.ring / 4096 == p)
  s.modPart p (fun x => { x with
    impCpy := x.impCpy && (x.usedCpy || cpy), impCol := x.impCol && (x.usedCol || col), usedCpy := cpy, usedCol := col })

/-- LEASE_PERIOD_BOUNDARY (R122-R124). An operation passes to its partition's next engine with no effect on its values. -/
def execLeasePeriodBoundary (s : State) : Host.Outcome State Fault Refusal :=
  .next (if s.board.power == .on && decide (s.eng.boundary ≤ s.clk.ptp) then
      let s := (s.parts.map (·.1)).foldl State.lapse s
      let cpy := s.bindOf false 16
      let col := s.bindOf true 8
      { s with eng := { s.eng with
          bindCpy := cpy, bindCol := col, period := s.eng.nextPeriod
          boundary := s.eng.boundary + 1000 * s.eng.nextPeriod, rotation := s.eng.rotation + 1 } }
    else s)

end Sys2Proof.Machine
end

