-- ==== Sys2Proof/Machine/Fetch.lean ====
section
/-! DEFINITION. Time, and what stands between two instructions of an agent: whether it may issue, the fetch of its block and
the header check (06 R136-R145), the decoding of its slot with the order of 06 R165, and the fold (07 R187). -/
namespace Sys2Proof.Machine

/-- Thousandths of a core cycle that pass in a cluster in `ns` nanoseconds (00 R7). -/
def mcycIn (mhz ns : Nat) : Nat := mhz * ns

/-- The clocks after `ns` nanoseconds (00 R7, 05 R113, 06 R161). -/
def Clock.tick (c : Clock) (ns : Nat) : Clock :=
  let d : Int := c.ptpFrac + (ns : Int) * ((10 : Int) ^ 9 + c.ptpRate)
  { c with
    now := c.now + ns
    ptp := c.ptp + (d / (10 : Int) ^ 9).toNat
    ptpFrac := d % (10 : Int) ^ 9
    mcyc := (List.range 4).foldl (fun m k => tset 0 m k (tget 0 m k + mcycIn (tget 3300 c.mhz k) ns)) c.mcyc }

namespace State

/-- `ns` nanoseconds pass and nothing else happens. -/
def elapse (s : State) (ns : Nat) : State := { s with clk := s.clk.tick ns }

/-- The agent issues: it runs on a core that has power, and neither its instruction nor its fetch is waiting. From t0 on only power-fail handlers
issue, and only within their budget (17 R431-R433). -/
def ready (s : State) (a : Nat) : Bool :=
  let t := s.team a
  (match s.board.power with
   | .on => t.run == .running
   | .quiesce => t.run == .pfHandler && !s.pfOver a
   | _ => false) &&
  s.resident a && t.waiting.all (fun w => w.woken) && decide (t.notBefore ≤ s.mcyc a) && !s.fetchWaits a

/-- The 64 bytes of the block at `pc`, in one copy: those that the core's instruction cache holds, whatever memory holds by
now (06 R143, R144), or else those of memory, which then enter it. A tagged page is fetched under tag 0 (log 68). -/
def fetch (s : State) (a : Nat) (pc : W64) : Ans (List Byte) :=
  let va := (blockOf pc).toNat
  if 2 ^ 57 ≤ pc.toNat then (s, .error (.cause .pagef pc.toNat))
  else match s.ibHit (s.coreOf a) (s.eidOf a) va with
    | some b => (s, .ok b.bytes)
    | none =>
      match readV s (s.req a) TagUse.none .fetch [(va, 64)] with
      | (s, .ok bs) => (s.ibFill (s.coreOf a) { eid := s.eidOf a, va := va, bytes := bs }, .ok bs)
      | (s, .error b) => (s, .error b)

/-- A fetch that faults parks at slot 0 of the block with the whole active mask, and stops a control thread there with
the same cause (01 R34, 06 R141, 16 R404, R405). A block address at or above 2^57 is kept whole (DESIGN CHOICE between 06 R138
and R142, log 77). -/
def fetchFault (s : State) (a : Nat) (pc : W64) : State :=
  let t := s.team a
  let s := s.setTeam a { t with pc := blockOf pc, block := [] }
  if isThread a then s.threadTrap a (blockOf pc) .pagef Kind.fetch.code (blockOf pc).toNat
  else if t.run = .pfHandler then s.pfStop a
  else s.park a (blockOf pc) t.cur .pagef Kind.fetch.code (blockOf pc).toNat

/-- Uncorrectable data in a fetched block is consumed by every active live lane (16 R407, 03 R77). -/
def fetchUe (s : State) (a : Nat) (pc : W64) (mac : Bool) : State :=
  let t := s.team a
  complete a (blockOf pc)
    { s := s.setTeam a { t with pc := blockOf pc }, k := trapAll t.width t.cur .ue, mac := if mac then t.cur else 0 }

/-- The page of the team's next block, when its fetch has to wait for a walk (03 R80). -/
def fetchWalk (s : State) (a : Nat) : List Nat :=
  let va := (blockOf (s.team a).pc).toNat
  if s.slowWalks (s.clusterOf a) && decide (va < 2 ^ 57) && (s.ibHit (s.coreOf a) (s.eidOf a) va).isNone &&
      !s.eng.fetched.contains a then s.missing (s.req a) [va / 65536]
  else []

/-- The mark of a fetch whose walk has been served is taken. -/
def takeFetched (s : State) (a : Nat) : State :=
  if s.eng.fetched.contains a then { s with eng := { s.eng with fetched := s.eng.fetched.filter (fun x => x != a) } } else s

/-- The block of the team at `pc` is loaded when none is held: S is 0 on entry to a checked block (07 R186). The answer
says whether its slots may issue. -/
def loadBlock (s : State) (a : Nat) : State × Bool :=
  let t := s.team a
  if t.block ≠ [] then (s, true)
  else if s.fetchWalk a ≠ [] then (s.queueWalks a .fetch (s.fetchWalk a), false)
  else match (s.takeFetched a).fetch a t.pc with
    | (s, .error .ue) => (s.fetchUe a t.pc false, false)
    | (s, .error .mac) => (s.fetchUe a t.pc true, false)
    | (s, .error _) => (s.fetchFault a t.pc, false)
    | (s, .ok bs) =>
      let h := blockHeader bs
      if !h.ok then
        (complete a (blockOf t.pc) { s := s.setTeam a { t with pc := blockOf t.pc }, k := trapAll t.width t.cur .badblk }, false)
      else if h.slots ≤ slotOf t.pc then
        (complete a t.pc { s := s, k := trapAll t.width t.cur .badblk }, false)
      else
        let sig := if h.sigx ∧ slotOf t.pc = 0 ∧ !t.folded then 0 else t.sig
        (s.setTeam a { t with block := bs, blockAt := blockOf t.pc, sig := sig }, true)

/-- The word at the program counter folds once (07 R187). -/
def foldPc (s : State) (a : Nat) (w : Word96) : State :=
  s.modTeam a (fun t => if t.folded then t else { t with sig := foldWord t.sig w, folded := true })

/-- The trap of a word that does not decode: an opcode that the core's profile lacks goes first (06 R165). -/
def decodeCause (a : Nat) (w : Word96) : DecErr → Cause
  | .illop => .illop
  | .illenc =>
    if (isThread a && simtOnly (fld w 86 10)) || (!isThread a && threadOnly (fld w 86 10)) then .illop else .illenc

/-- A replay with no lane left completes with no effect (16 R422). -/
def emptyReplay (t : Team) : Bool :=
  match t.replay with
  | some m => (m &&& t.cur) == 0
  | none => false

/-! ### The scheduler (05 R135, 07 R178, 15 R378) -/

end State

/-- The issue slot of a word (07 R178): 0 vector, 1 memory, 2 matrix/async, 3 control/uniform. -/
def issueSlot (w : Word96) : Nat :=
  let op := fld w 86 10
  let scalar := match parseR w with
    | some a => a.d.isScalar && a.a.isScalar && a.b.isScalar && a.c.isScalar
    | none => false
  if 0x142 ≤ op ∧ op ≤ 0x152 then 1
  else if (0x153 ≤ op ∧ op ≤ 0x15B) ∨ (0x1C0 ≤ op ∧ op ≤ 0x1C8) then 2
  else if 0x00B ≤ op ∧ op ≤ 0x00F then 0
  else if op = 0x041 then
    match parseI w with
    | some a => if a.d.isScalar then 3 else 0
    | none => 0
  else if (0x040 ≤ op ∧ op ≤ 0x064) ∨ (0x0C0 ≤ op ∧ op ≤ 0x0DC) then if scalar then 3 else 0
  else 3

namespace State

/-- The slot that a team's next instruction uses, once its block is there. -/
def nextSlot (s : State) (a : Nat) : Option Nat :=
  let t := s.team a
  if t.block = [] then none else some (issueSlot (blockWord t.block (slotOf t.pc)))

/-- The other teams of the core that are ready for the slot. -/
def rivals (s : State) (a sl : Nat) : List Nat :=
  (s.teams.map (·.1)).filter (fun b =>
    b != a && !isThread b && s.ready b && s.coreOf b == s.coreOf a && s.nextSlot b == some sl)

/-- A team has waited 1,024 cycles for a slot. -/
def longWait (s : State) (b : Nat) : Bool := (s.team b).aged || decide ((s.team b).since + 1024000 ≤ s.mcyc b)

/-- The key of a core's slot; a control core has one. -/
def issueKey (s : State) (a sl : Nat) : Nat := s.coreOf a * 4 + sl

/-- The slot goes to `b` before `a` (05 R135): a team that has waited 1,024 cycles before any other, the longest wait first;
else the next partition in rotation, and in it the highest PRIO, then the longest wait. -/
def goesBefore (s : State) (sl b a : Nat) : Bool :=
  let x := s.team b
  let y := s.team a
  let turn := fun (c : Nat) => (s.partOf c + 12 - tget 0 s.sched (s.issueKey a sl) % 12) % 12
  let prio := fun (c : Nat) => (s.fixture (s.fxOf c)).desc.prio
  if s.longWait b || s.longWait a then s.longWait b && (!s.longWait a || decide (x.since < y.since))
  else if turn b ≠ turn a then turn b < turn a
  else if prio b ≠ prio a then prio a < prio b
  else x.since < y.since

/-- The scheduler may choose the agent now: no other ready team of its core goes before it in its slot. The two ready threads
of a control core alternate (15 R378). -/
def chosen (s : State) (a : Nat) : Bool :=
  if isThread a then !(s.ready (a ^^^ 1) && tget 0 s.sched (s.issueKey a 0) == 1 + a)
  else
    let s' := (s.loadBlock a).1
    match s'.nextSlot a with
    | none => true
    | some sl => (s'.rivals a sl).all (fun b => !s'.goesBefore sl b a)

/-- The slot is taken by the agent. -/
def takeSlot (s : State) (a : Nat) (w : Word96) : State :=
  let k := if isThread a then s.issueKey a 0 else s.issueKey a (issueSlot w)
  { s with sched := tset 0 s.sched k (1 + (if isThread a then a else s.partOf a)) }

/-- What the agent does next: nothing, since its fetch, its header or its word stopped it, or the instruction at its
program counter. The team's waiting time for an issue slot begins again (05 R135), and with HINT.Y it is not chosen in the next
cycle (06 R148). -/
def nextInstr (s : State) (a : Nat) : State × Option Instr :=
  match s.loadBlock a with
  | (s, false) => (s, none)
  | (s, true) =>
    let t := s.team a
    let w := blockWord t.block (slotOf t.pc)
    let hint := flag w 78
    let s := ((s.foldPc a w).takeSlot a w).modTeam a (fun t => { t with
      since := s.mcyc a, aged := false, notBefore := if hint then s.mcyc a + 1000 else t.notBefore })
    if emptyReplay t then (s.leave a t.pc .seq, none)
    else match decodeWord w with
      | .error e => (complete a t.pc { s := s, k := trapAll t.width t.cur (decodeCause a w e) }, none)
      | .ok i => (s, some i)

/-! ## Placing one instruction (log 13) -/

/-- Page 1 of space `e`, readable, writable and executable, over frame 1 of that enclave and world. -/
def placePage (s : State) (e world : Nat) : State :=
  let m : MapSlot := { mv := true, eid := e, vpn := 1, perm := 7, mattr := 0, next := none }
  let i : Ipt := { owner := e, oworld := world, attr := 0, tagged := false, zeroFb := false, route := 0, valid := true,
                   m0 := m, m1 := .none, m2 := .none, m3 := .none }
  { s with
    mem := { s.mem with
      ipt := tset (Ipt.home 1) s.mem.ipt 1 i
      anchor := tset none s.mem.anchor (hashOf e 1) (some { pfn := 1, slot := 0 })
      badLine := s.mem.badLine.filter (fun k => !inLines 0x10000 128 k) }
    fw := { s.fw with fwm := tset 0 s.fw.fwm world ((tget 0 s.fw.fwm world) ||| ((3 : W32) <<< (2 * world))) } }

/-- The one crew of the staged team: crew 0 of fixture 0 on core 0, in enclave 1 of partition 0. -/
def stagedCrew : Crew :=
  { Crew.none with fx := 0, part := 0, eid := 1, core := some 0, sprows := 64, tiles := 8, accs := 1, nteams := 1, done := false }

/-- The module with power and with one block that holds the word `w` alone, where the agent that issues next is about to
fetch it: control thread 0 of world 2, or for an opcode that only SIMT cores have a team of 32 lanes. -/
def placeWord (s : State) (w : Word96) : State :=
  let simt := simtOnly (fld w 86 10)
  let a := if simt then 128 else 0
  let s := if simt then (s.purge 1 (· == 1)).placePage 1 4 else (s.purge 0 (· == 1)).placePage 0 2
  let s := s.setBytes 0x10000 (mkBlock [w])
  let s := if simt then
      let e : Enclave := { Enclave.free with st := .sealed, part := 0 }
      ((s.setEnc 1 e).setCrew 0 stagedCrew).setFixture 0 { Fixture.none with retired := false, eid := 1, ncrews := 1, next := 1 }
    else s.setThread 0 Thread.idle
  let t : Team := if simt then Team.blank 32 64 else Team.idle
  let s := s.setTeam a { t with pc := 0x10000, run := .running }
  { s with board := { s.board with power := .on }, agenda := [], cur := a }

end State
end Sys2Proof.Machine
end

