-- ==== Sys2Proof/Machine/Place.lean ====
section
/-! DEFINITION. The distributor (05 R125, 01 R32, R33, 13 R330, 16 R413, R414), the ageing of placement and issue, deadlines,
GROW and SHRINK (05 R118, R132-R135). Which places within a core's ranges a claim takes is not observable; a claim fits when
its counts fit (log 15). -/
namespace Sys2Proof.Machine

/-! ## Claims (01 R32, 13 R330) -/

/-- What a crew holds on its core. The plane pair is a range of size one. -/
structure Claim where
  slots : Nat
  regs  : Nat
  sp    : Nat
  tiles : Nat
  accs  : Nat
  plane : Nat
  deriving DecidableEq, Repr

def Claim.zero : Claim := { slots := 0, regs := 0, sp := 0, tiles := 0, accs := 0, plane := 0 }

def Claim.add (a b : Claim) : Claim :=
  { slots := a.slots + b.slots, regs := a.regs + b.regs, sp := a.sp + b.sp, tiles := a.tiles + b.tiles,
    accs := a.accs + b.accs, plane := a.plane + b.plane }

/-- What is left, nothing below 0. -/
def Claim.sub (a b : Claim) : Claim :=
  { slots := a.slots - b.slots, regs := a.regs - b.regs, sp := a.sp - b.sp, tiles := a.tiles - b.tiles,
    accs := a.accs - b.accs, plane := a.plane - b.plane }

/-- The larger of each part. -/
def Claim.max (a b : Claim) : Claim :=
  { slots := Nat.max a.slots b.slots, regs := Nat.max a.regs b.regs, sp := Nat.max a.sp b.sp,
    tiles := Nat.max a.tiles b.tiles, accs := Nat.max a.accs b.accs, plane := Nat.max a.plane b.plane }

/-- `a` fits in `b`. -/
def Claim.fits (a b : Claim) : Bool :=
  decide (a.slots ≤ b.slots) && decide (a.regs ≤ b.regs) && decide (a.sp ≤ b.sp) && decide (a.tiles ≤ b.tiles) &&
    decide (a.accs ≤ b.accs) && decide (a.plane ≤ b.plane)

def Claim.sum (cs : List Claim) : Claim := cs.foldl Claim.add .zero

/-- The claim of one crew of a descriptor. -/
def Desc.claim (d : Desc) : Claim :=
  { slots := d.teams, regs := up64 (d.teams * d.regs * (d.width / 32)), sp := up64 d.sprows, tiles := d.tiles,
    accs := d.accs, plane := if d.accs = 0 then 0 else 1 }

/-- The reservation of one crew of a calendar entry (R114, R115). -/
def CalEntry.claim (e : CalEntry) : Claim :=
  { slots := e.rslots, regs := e.rregs, sp := e.rsp, tiles := e.rtiles, accs := e.racc, plane := if e.racc = 0 then 0 else 1 }

namespace State

/-- What a crew holds. Of a retired crew of a squad only the scratchpad rows remain (11 R283). -/
def held (s : State) (n : Nat) : Claim :=
  let c := s.crew n
  let d := (s.fixture c.fx).desc
  if c.done then { Claim.zero with sp := up64 d.sprows } else { d.claim with regs := s.rows n }

/-- Crews of a partition on a core that `p` names. -/
def crewsOn (s : State) (part core : Nat) (p : Nat → Crew → Bool) : List Nat :=
  (s.crews.filter (fun x => x.2.part == part && x.2.core == some core && p x.1 x.2)).map (·.1)

/-- What crews of a partition hold on a core. -/
def heldOn (s : State) (part core : Nat) (p : Nat → Crew → Bool) : Claim :=
  Claim.sum ((s.crewsOn part core p).map s.held)

/-- The reservations of a partition's armed calendar entries on a core (R115). -/
def calResv (s : State) (part core : Nat) : Claim :=
  Claim.sum ((s.part part).cal.flatMap (fun x =>
    if x.2.armed then (x.2.cores.filter (· == core)).map (fun _ => x.2.claim) else []))

/-- The crew of a fixture with an index. -/
def crewAt (s : State) (fx i : Nat) : Option (Nat × Crew) := s.crews.find? (fun x => x.2.fx == fx && x.2.index == i)

/-- A reserved crew place of a fixture: not yet over, and, with `open_`, not now taken by its crew (R117). -/
def resvLive (s : State) (fx : Nat) (f : Fixture) (open_ : Bool) (i : Nat) : Bool :=
  if f.next ≤ i then true
  else match s.crewAt fx i with
    | some (_, c) => !c.done && !(open_ && c.onRes)
    | none => false

/-- The places reserved on a core for admitted fixtures without a calendar entry, other than `but`. -/
def fxResv (s : State) (part core : Nat) (but : Option Nat) (open_ : Bool) : Claim :=
  Claim.sum (s.fixtures.flatMap (fun x =>
    if x.2.part == part && !x.2.retired && !x.2.desc.cal && some x.1 != but then
      (x.2.resv.zipIdx.filter (fun y => y.1 == core && s.resvLive x.1 x.2 open_ y.2)).map (fun _ => x.2.desc.claim)
    else []))

/-- Another partition holds the core's plane pair, or has it reserved (13 R330). -/
def planeAway (s : State) (part core : Nat) : Bool :=
  s.crews.any (fun x => x.2.part != part && x.2.core == some core && !x.2.done && x.2.accs != 0) ||
  s.parts.any (fun x => x.1 != part && ((s.calResv x.1 core).plane != 0 || (s.fxResv x.1 core none false).plane != 0))

/-- The ranges of a partition on a core of its mask. -/
def cap (s : State) (part core : Nat) : Claim :=
  match (s.part part).cfg with
  | none => .zero
  | some c =>
    { slots := c.slotN, regs := 64 * c.regN, sp := 64 * c.spN, tiles := 4 * c.tileN,
      accs := ((List.range 4).filter (fun k => c.accM.getLsbD k)).length, plane := if s.planeAway part core then 0 else 1 }

/-- Cores of a partition's mask that are in service. -/
def coresIn (s : State) (part : Nat) : List Nat :=
  match (s.part part).cfg with
  | none => []
  | some c => (List.range 768).filter (fun k => c.cores.getLsbD k && s.unitState (.core k) == .inService)

/-- Those where a crew of enclave `eid` may be placed: no WSLD of the enclave is outstanding on the die (12 R324). -/
def coresFor (s : State) (part eid : Nat) : List Nat :=
  (s.coresIn part).filter (fun k => !s.eng.copyOps.any (fun o => o.kind == .wsld && o.eid == eid &&
    o.desc.any (fun b => (wsldRange b).1 == k / 96)))

/-- A calendar fixture has its entry's ranges: it is bound to a slot of the armed entry that has started, and no fixture of a
later slot has started since (R115, R119, R120). -/
def inSlot (s : State) (fx : Nat) : Bool :=
  let f := s.fixture fx
  let e := tget CalEntry.idle (s.part f.part).cal f.desc.calEntry
  f.desc.cal && f.elig.isSome && e.armed && e.bound.any (fun b => b.2 == fx && f.slot == some b.1 && decide (b.1 < e.nextSlot) &&
    e.bound.all (fun x => decide (x.1 ≤ b.1) || (s.fixture x.2).elig.isNone))

/-- What is free on a core for work of fixture `fx`. -/
def freeOn (s : State) (part core fx : Nat) : Claim :=
  ((s.cap part core).sub (s.heldOn part core (fun _ _ => true))).sub (s.fxResv part core (some fx) true)

end State

/-! ## Finding cores (R125) -/

/-- Cores for one crew, or for a squad of `n` crews of `claim` (R125): the lowest core, or the lowest cluster with enough cores
and its lowest ones. -/
def findUnit (avail : List (Nat × Claim)) (claim : Claim) (n : Nat) : Option (List Nat) :=
  let ok := (avail.filter (fun x => claim.fits x.2)).map (·.1)
  if n = 0 then (ok.head?).map (fun c => [c])
  else
    ((List.range 4).map (fun cl => (ok.filter (fun c => State.clusterOfCore c == cl)).take n)).find? (fun l => l.length == n)

/-- The cores' free ranges after a claim is placed. -/
def takeCores (avail : List (Nat × Claim)) (claim : Claim) (cores : List Nat) : List (Nat × Claim) :=
  avail.map (fun x => if cores.contains x.1 then (x.1, x.2.sub claim) else x)

/-- Cores for `k` units in turn. -/
def planUnits (claim : Claim) (n : Nat) : Nat → List (Nat × Claim) → Option (List Nat)
  | 0, _ => some []
  | k + 1, avail =>
    match findUnit avail claim n with
    | none => none
    | some cs => (planUnits claim n k (takeCores avail claim cs)).map (fun t => cs ++ t)

/-! ## Partial eviction (16 R413) -/

/-- Crew `a` is chosen before crew `b`. -/
def evictFirst (s : State) (a b : Nat) : Bool :=
  let key := fun (n : Nat) =>
    let c := s.crew n
    let f := s.fixture c.fx
    (bit f.desc.timed, f.desc.prio, f.order, c.index)
  let x := key a
  let y := key b
  if x.1 ≠ y.1 then decide (x.1 < y.1)
  else if x.2.1 ≠ y.2.1 then decide (x.2.1 < y.2.1)
  else if x.2.2.1 ≠ y.2.2.1 then decide (y.2.2.1 < x.2.2.1)
  else decide (y.2.2.2 < x.2.2.2)

/-- A list put in an order. -/
def sortBy (le : Nat → Nat → Bool) (l : List Nat) : List Nat :=
  l.foldr (fun x acc => (acc.takeWhile (fun y => !le x y)) ++ x :: acc.dropWhile (fun y => !le x y)) []

/-- Evict crews of `vs` in turn until `need` fits on the core beside what remains reserved. -/
def makeRoom (part core fx : Nat) (need : Claim) : State → List Nat → State
  | s, [] => s
  | s, v :: t => if need.fits (s.freeOn part core fx) then s else makeRoom part core fx need (s.evict v) t

/-- The crews that a fixture's reservation may evict (R117, R119): for a calendar fixture all but those on ranges that
another entry's fixture has. -/
def victims (s : State) (part core fx : Nat) : List Nat :=
  let f := s.fixture fx
  sortBy (evictFirst s) (s.crewsOn part core (fun _ c =>
    let g := s.fixture c.fx
    !c.done && c.fx != fx && (if f.desc.cal then !(c.onRes && s.inSlot c.fx) else !g.desc.timed && decide (g.desc.prio < f.desc.prio))))

/-- Make room for `need` on a reserved core; none when even then it does not fit. -/
def clearCore (s : State) (part core fx : Nat) (need : Claim) : Option State :=
  let s := makeRoom part core fx need s (victims s part core fx)
  if need.fits (s.freeOn part core fx) then some s else none

/-- Room on each of the reserved cores. -/
def clearCores (part fx : Nat) (claim : Claim) : State → List Nat → List Nat → Option State
  | s, _, [] => some s
  | s, all, c :: t =>
    match clearCore s part c fx (Claim.sum ((all.filter (· == c)).map (fun _ => claim))) with
    | none => none
    | some s => clearCores part fx claim s all t

/-- The room of a crew: its sealed size rounded up to 64 KiB (16 R414, R416). -/
def Desc.room (d : Desc) : Nat := 65536 * roomFrames (blobLen d.teams d.claim.regs d.sprows d.accs)

/-! ## Placing (01 R19-R22, R33) -/

/-- The role of team `k`. -/
def Desc.role (d : Desc) (k : Nat) : Role :=
  if !d.staged then .solo
  else match d.roles.toNat / 4 ^ k % 4 with
    | 0 => .vx
    | 1 => .mx
    | _ => .cp

/-- Team `k` of a crew at its start. -/
def startTeam (d : Desc) (tag : BitVec 16) (since : Nat) (k : Nat) : Team :=
  { (Team.blank d.width d.regs).setU 0 (BitVec.ofNat 64 d.args) with
    pc := BitVec.ofNat 64 (d.code + 64 * d.entry), tag := tag, role := d.role k, run := .running, since := since }

/-- A new crew of fixture `fx` with index `i` on a core. -/
def State.startCrew (s : State) (fx i core : Nat) (tag : BitVec 16) (onRes : Bool) : State :=
  let f := s.fixture fx
  let d := f.desc
  let n := s.nextCrew
  let c : Crew := { Crew.none with
    fx := fx, part := f.part, eid := f.eid, index := i, rank := if d.squad = 0 then i else i % d.squad
    squad := if d.squad = 0 then Option.none else some (i / d.squad)
    core := some core, onRes := onRes, accs := d.accs, sprows := d.sprows, tiles := d.tiles, stages := d.rings
    nteams := d.teams, placed := s.clk.ptp, done := false
    frames := (s.freeRoom f.eid).take (d.room / 65536) }
  let s := ({ s with nextCrew := n + 1 } : State).setCrew n c
  let since := s.mcycOf (State.clusterOfCore core)
  (List.range d.teams).foldl (fun (s : State) k => s.setTeam (agentOf n k) (startTeam d tag since k)) s

/-- The tag of a crew: a value, or the reason for which the crew does not start. The entry at ARGS + 2c is read under tag 0
(DESIGN CHOICE where its page is tagged: log 68). -/
def State.crewTag (s : State) (f : Fixture) (i : Nat) : State × Except (BitVec 8) (BitVec 16) :=
  match f.desc.tagMode with
  | 0 => (s, .ok 0)
  | 1 => (s, .ok f.desc.itag)
  | _ =>
    match readBlock s (engReq f.part f.eid) (f.desc.args + 2 * i) 2 with
    | (s, none) => (s, .error 0x0B)
    | (s, some b) => (s, if leNat b = 0xFFFF then .error 0x09 else .ok (BitVec.ofNat 16 (leNat b)))

/-- The crews of the unit do not start, for a reason (18 R451). -/
def State.failUnit (s : State) (fx : Nat) (is : List Nat) (reason : BitVec 8) : State :=
  s.modFixture fx (fun f => { f with
    next := f.next + is.length, doneCount := f.doneCount + is.length
    fails := is.foldl (fun t i => tset { reason := 0, detail := 0 } t i { reason := reason, detail := 0 }) f.fails })

/-- The first placement sets TSTART (18 R449). -/
def State.placedUnit (s : State) (fx : Nat) (n : Nat) : State :=
  s.modFixture fx (fun f => { f with next := f.next + n, tstart := if f.tstart = 0 then s.clk.ptp else f.tstart })

/-- The unit's tags, all read before any crew is placed: TAGBAD before ARGFAULT (01 R33). -/
def unitTags (s : State) (f : Fixture) (is : List Nat) : State × Except (BitVec 8) (List (Nat × BitVec 16)) :=
  let (s, ts) := is.foldl (fun (x : State × List (Nat × Except (BitVec 8) (BitVec 16))) i =>
    let (s, t) := x.1.crewTag f i
    (s, x.2 ++ [(i, t)])) (s, [])
  let bad := ts.filterMap (fun x => match x.2 with | .error r => some r | .ok _ => none)
  if bad.contains 0x09 then (s, .error 0x09)
  else match bad with
    | r :: _ => (s, .error r)
    | [] => (s, .ok (ts.filterMap (fun x => match x.2 with | .ok t => some (x.1, t) | .error _ => none)))

/-- The cores reserved for crew places `i` to `i + n − 1` of a fixture, while its reservation stands (R117, R119). -/
def State.reserved (s : State) (fx i n : Nat) : Option (List Nat) :=
  let f := s.fixture fx
  let cs := if f.desc.cal then
      if s.inSlot fx then (tget CalEntry.idle (s.part f.part).cal f.desc.calEntry).cores else []
    else f.resv
  let l := (cs.drop i).take n
  if l.length = n && l.all (fun c => (s.coresFor f.part f.eid).contains c) then some l else none

/-- The free ranges of every core that a fixture's crews may be placed on. -/
def State.availFor (s : State) (f : Fixture) (fx : Nat) : List (Nat × Claim) :=
  (s.coresFor f.part f.eid).map (fun c => (c, s.freeOn f.part c fx))

/-- Cores for a unit: its reserved ones, cleared, or free ones (R117, R119, R125). -/
def State.unitCores (s : State) (fx i n : Nat) (claim : Claim) (useRes : Bool) : Option (State × List Nat × Bool) :=
  let f := s.fixture fx
  let k := if n = 0 then 1 else n
  match (if useRes then s.reserved fx i k else none) with
  | some cs =>
    match clearCores f.part fx claim s cs cs with
    | some s => some (s, cs, true)
    | none => none
  | none => (findUnit (s.availFor f fx) claim n).map (fun cs => (s, cs, false))

/-- The next new crew or squad of a fixture is placed, or reported failed. -/
def State.placeNew (s : State) (fx : Nat) : Option State :=
  let f := s.fixture fx
  let d := f.desc
  let n := if d.squad = 0 then 1 else d.squad
  let is := (List.range n).map (fun j => f.next + j)
  if (s.enc f.eid).region < d.room then some (s.failUnit fx is 0x08)
  else if s.regionFree f.eid < n * d.room then none
  else match s.unitCores fx f.next d.squad d.claim d.timed with
    | none => none
    | some (s', cs, onRes) =>
      match unitTags s' f is with
      | (_, .error r) => some ((unitTags s f is).1.failUnit fx is r)
      | (s', .ok ts) =>
        some (((ts.zip cs).foldl (fun (s : State) x => s.startCrew fx x.1.1 x.2 x.1.2 onRes) s').placedUnit fx n)

/-- A saved crew goes on on a core (16 R412): its teams wait from zero. -/
def State.resumeCrew (s : State) (n core : Nat) (onRes : Bool) : State :=
  let s := s.modCrew n (fun c => { c with core := some core, onRes := onRes })
  (List.range (s.crew n).nteams).foldl (fun (s : State) k => s.modTeam (agentOf n k) (fun t =>
    { t with since := s.mcycOf (State.clusterOfCore core), aged := false })) s

/-- The teams of a restored crew fetch their blocks again (06 R141), once the resolutions have left the old ones (07 R188). -/
def State.refetchCrew (s : State) (n : Nat) : State :=
  (List.range (s.crew n).nteams).foldl (fun (s : State) k => s.refetch (agentOf n k)) s

/-- The saved crew that goes first: the one evicted last, then the lowest index (R134, log 15). -/
def State.firstSaved (s : State) (fx : Nat) : Option (Nat × Crew) :=
  (s.crews.filter (fun x => x.2.fx == fx && !x.2.done && x.2.core.isNone)).foldl (fun (b : Option (Nat × Crew)) x => match b with
    | none => some x
    | some y => some (if y.2.evictAt < x.2.evictAt ∨ (y.2.evictAt = x.2.evictAt ∧ x.2.index < y.2.index) then x else y)) none

/-- A saved crew, or the whole squad of one with the rows of its retired crews (11 R283), is restored on any cores of the
partition (16 R413). An exported crew is not. -/
def State.placeSaved (s : State) (fx : Nat) (x : Nat × Crew) : Option State :=
  let f := s.fixture fx
  let ns : List Nat := match x.2.squad with
    | none => [x.1]
    | some q => (s.crews.filter (fun (y : Nat × Crew) => y.2.fx == fx && y.2.squad == some q)).map (·.1)
  if ns.any (fun n => (s.crew n).exported) then none
  else
    let claim := (ns.map s.held).foldl Claim.max .zero
    let use := f.desc.timed && !f.osa.getLsbD 5 && decide (claim.regs ≤ f.desc.claim.regs) && decide (ns.length = max 1 f.desc.squad)
    match s.unitCores fx (if x.2.squad = none then x.2.index else x.2.index - x.2.rank) (if x.2.squad = none then 0 else ns.length) claim use with
    | none => none
    | some (s, cs, onRes) =>
      let s := (ns.zip cs).foldl (fun (s : State) (y : Nat × Nat) => s.resumeCrew y.1 y.2 onRes) s
      some (ns.foldl State.refetchCrew (ns.foldl State.takeRes s))

/-- A fixture has a crew to place. -/
def State.wantsPlace (s : State) (fx : Nat) : Bool :=
  let f := s.fixture fx
  !f.retired && ((f.elig.isSome && decide (f.next < f.ncrews)) || (s.firstSaved fx).isSome)

/-- One unit of a fixture, its saved crews first. -/
def State.placeUnit (s : State) (fx : Nat) : Option State :=
  match s.firstSaved fx with
  | some x => s.placeSaved fx x
  | none => s.placeNew fx

/-- The rank of a fixture in the distributor's order (R111, R119, R125): the calendar fixture that has its entry's ranges, the
newest first; other fixtures with a reservation; and the rest, a pre-empted calendar fixture among them (R120). -/
def State.placeKey (s : State) (fx : Nat) : Nat × Nat × Nat :=
  let f := s.fixture fx
  if s.inSlot fx && !f.osa.getLsbD 5 then (0, 2 ^ 80 - f.elig.getD 0, f.order)
  else (if f.desc.timed && !f.osa.getLsbD 5 then 1 else 2, 7 - f.desc.prio, f.order)

/-- The fixture has been eligible for 100 µs with a crew unplaced. -/
def State.agedFx (s : State) (fx : Nat) : Bool :=
  let f := s.fixture fx
  f.aged || f.elig.any (fun t => decide (t + 100000 ≤ s.clk.ptp))

/-- A fixture goes before another; of one PRIO an aged one goes first (R125). -/
def placeFirst (s : State) (a b : Nat) : Bool :=
  let x := s.placeKey a
  let y := s.placeKey b
  if x.1 ≠ y.1 then decide (x.1 < y.1)
  else if x.2.1 ≠ y.2.1 then decide (x.2.1 < y.2.1)
  else if s.agedFx a != s.agedFx b then s.agedFx a
  else decide (x.2.2 ≤ y.2.2)

/-- The first fixture in order that can be placed; after an aged fixture that cannot, none of its PRIO or lower. -/
def placeGo (s : State) : Option Nat → List Nat → State
  | _, [] => s
  | blk, fx :: t =>
    let prio := (s.fixture fx).desc.prio
    if blk.any (fun b => decide (prio ≤ b)) then placeGo s blk t
    else match s.placeUnit fx with
      | some s => s
      | none => placeGo s (if s.agedFx fx then some (max prio (blk.getD 0)) else blk) t

/-- CREW_PLACEMENT (R125): the distributor of a partition places one crew or squad. -/
def execCrewPlacement (part : Nat) (s : State) : Host.Outcome State Fault Refusal :=
  let p := s.part part
  .next (if s.board.power != .on || p.cfg.isNone || p.suspended then s
    else
      let fs := (s.fixtures.filter (fun x => x.2.part == part && s.wantsPlace x.1)).map (·.1)
      (placeGo s none (sortBy (placeFirst s) fs)).lookPart part)

/-- PLACEMENT_AGED (R125). -/
def execPlacementAged (fx : Nat) (s : State) : Host.Outcome State Fault Refusal :=
  .next (if s.wantsPlace fx && s.agedFx fx then s.modFixture fx (fun f => { f with aged := true }) else s)

/-- TEAM_AGED (R135): a ready team that has waited 1,024 cycles. -/
def execTeamAged (agent : Nat) (s : State) : Host.Outcome State Fault Refusal :=
  .next (if s.ready agent && decide ((s.team agent).since + 1024000 ≤ s.mcyc agent) then
      s.modTeam agent (fun t => { t with aged := true })
    else s)

/-- A fixture's flag of the overrun word (R121). -/
def State.osaBit (s : State) (fx k : Nat) : State := s.modFixture fx (fun f => { f with osa := f.osa ||| (1#32 <<< k) })

/-- DEADLINE_EXPIRY (R118). -/
def execDeadlineExpiry (fx : Nat) (s : State) : Host.Outcome State Fault Refusal :=
  let f := s.fixture fx
  .next (if s.board.power == .on && !f.retired && f.desc.deadline != 0 && decide (f.tacc + 1000 * f.desc.deadline ≤ s.clk.ptp) &&
        decide (f.doneCount < f.ncrews) then
      ((s.terminateFixture fx 0x02 0).osaBit fx 3).lookPart f.part
    else s)

/-! ## GROW and SHRINK (R132-R134) -/

/-- A team waits in GROW. -/
def growing (t : Team) : Bool :=
  match t.waiting with
  | some { instr := .grow _, .. } => true
  | _ => false

/-- The teams of a core's partition that wait in GROW, oldest first. -/
def State.growers (s : State) (part core : Nat) : List Nat :=
  let as := (s.crewsOn part core (fun _ c => !c.done)).flatMap (fun n =>
    ((List.range (s.crew n).nteams).map (agentOf n)).filter (fun a => growing (s.team a)))
  let at_ : Nat → Nat := fun a => ((s.team a).waiting.map (fun w => w.seq)).getD 0
  sortBy (fun a b => decide (at_ a ≤ at_ b)) as

/-- The rows that a team's growth to `m` adds fit the partition's free rows on its core, and the save area has room for what
the crew's blob becomes (16 R414, log 15). -/
def State.growFits (s : State) (a m : Nat) : Bool :=
  let n := crewNo a
  let c := s.crew n
  decide (s.rowsWith n (teamNo a) m ≤ s.rows n + (s.freeOn c.part (c.core.getD 0) c.fx).regs) &&
    decide (s.moreRoom n (teamNo a) m ≤ (s.freeRoom c.eid).length)

/-- The team gets `m` registers per lane; the new ones read 0. -/
def Team.resize (t : Team) (m : Nat) : Team :=
  { t with regs := m, v := t.v.filter (fun x => decide (x.1 % 256 < m)), badV := t.badV.filter (fun k => decide (k % 256 < m)) }

/-- The n of GROW or SHRINK. -/
def growArg (t : Team) (a : SArgs) : Nat := (t.opndU a.a).toNat % 2 ^ 32

/-- GROW (R133): it completes when its rows fit; a team that waits already is granted in the order of the waits. -/
def execGrow (a : SArgs) (s : State) : Host.Outcome State Fault Refusal :=
  issues (.grow a) (ruleS a) s (fun c => c.once s (fun _ =>
    let m := growArg c.t a
    let cr := s.crew (crewNo c.a)
    if isThread c.a || decide (m ≤ c.t.regs) then { s := s }
    else if 255 < m ∨ (s.cap cr.part (cr.core.getD 0)).regs < s.rowsWith (crewNo c.a) (teamNo c.a) m then c.trap s .regquota
    else
      let first := c.t.waiting.isNone || (s.growers cr.part (cr.core.getD 0)).head? == some c.a
      if first && s.growFits c.a m then
        { s := (s.reserveRoom (crewNo c.a) (teamNo c.a) m).setTeam c.a (c.t.resize m) }
      else c.wait s (.grow a) 0 none))

/-- SHRINK (R133). -/
def execShrink (a : SArgs) (s : State) : Host.Outcome State Fault Refusal :=
  issues (.shrink a) (ruleS a) s (fun c => c.once s (fun _ =>
    let m := growArg c.t a
    if isThread c.a then { s := s }
    else if m < 8 then c.trap s .regquota
    else if c.t.regs ≤ m then { s := s }
    else { s := s.setTeam c.a (c.t.resize m) }))

/-- The n that a waiting GROW asks for. -/
def growWant (t : Team) : Nat :=
  match t.waiting with
  | some { instr := .grow x, .. } => growArg t x
  | _ => 0

/-- A waiting GROW raises REGQUOTA (R134). -/
def State.growQuota (s : State) (a : Nat) : State :=
  let t := s.team a
  match t.waiting with
  | some w =>
    match w.instr with
    | .grow x =>
      let s := (s.setTeam a { t with waiting := none, since := s.mcyc a }).lateDeath a w
      State.complete a t.pc { s := s, k := trapAll t.width (t.en x.g &&& ~~~ w.ue) .regquota }
    | _ => s
  | none => s

/-- A waiting GROW is granted (R133). -/
def State.growDone (s : State) (a : Nat) : State :=
  let t := s.team a
  match t.waiting with
  | some w =>
    match w.instr with
    | .grow x =>
      let s := s.reserveRoom (crewNo a) (teamNo a) (growArg t x)
      State.complete a t.pc { s := (s.setTeam a ({ t with waiting := none, since := s.mcyc a }.resize (growArg t x))).lateDeath a w }
    | _ => s
  | none => s

/-- Every resident team of the partition on the core that has not ended waits in GROW. -/
def State.growStuck (s : State) (part core : Nat) : Bool :=
  (s.crewsOn part core (fun _ c => !c.done)).all (fun n =>
    (List.range (s.crew n).nteams).all (fun k => State.Team.over (s.team (agentOf n k)) || growing (s.team (agentOf n k))))

/-- GROW_GRANT (R133, R134): the oldest waiter of its core is granted; when every resident team waits, the crew of the
youngest waiter is evicted first, or the youngest takes REGQUOTA. -/
def execGrowGrant (agent : Nat) (s : State) : Host.Outcome State Fault Refusal :=
  let c := s.crew (crewNo agent)
  let core := c.core.getD 0
  let q := s.growers c.part core
  .next (if q.head? != some agent || c.core.isNone then s
    else if s.growFits agent (growWant (s.team agent)) then s.growDone agent
    else if !s.growStuck c.part core then s
    else
      let young := q.getLastD agent
      if crewNo young = crewNo agent then s.growQuota young
      else
        let s := (s.evict (crewNo young)).lookPart c.part
        if s.growFits agent (growWant (s.team agent)) then s.growDone agent else s)

end Sys2Proof.Machine
end

