-- ==== Sys2Proof/Machine/Retire.lean ====
section
/-! DEFINITION. The retirement of teams, crews and fixtures, the completion record and its failed-item list, and the records
of fixtures lost to a power failure (07 R184, 08 R233, 18 R448-R454, 17 R439, R445). -/
namespace Sys2Proof.Machine

/-! ## Teams and crews (07 R184, R451) -/

/-- The key of a dead lane: crew, team, lane. -/
def laneKey (crew team lane : Nat) : Nat := crew * 16384 + team * 1024 + lane

/-- The dead lanes of a team of crew index `i`, added to a fixture's. -/
def addDead (d : List (Nat × Cause)) (i k : Nat) (t : Team) : List (Nat × Cause) :=
  t.dead.foldl (fun d x => tins (tdel d (laneKey i k x.1)) (laneKey i k x.1) x.2) d

namespace State

/-- Every team of a crew has retired: the crew completes when one of its lanes lives, and fails with ALLDEAD otherwise. -/
def retireCrew (s : State) (n : Nat) : State :=
  let c := s.crew n
  let ts := (List.range c.nteams).map (fun k => s.team (agentOf n k))
  if c.done || !ts.all (fun t => t.run == .retired) then s
  else
    let alive := ts.any (fun t => (t.live &&& laneMask t.width) != 0)
    let s := (s.crewOver n).modFixture c.fx (fun f => { f with
      doneCount := f.doneCount + 1
      fails := if alive then f.fails else tset { reason := 0, detail := 0 } f.fails c.index { reason := 0x0A, detail := 0 } })
    s.lookPart c.part

/-- A team's summary and dead lanes go to its fixture, and the team has retired. -/
def retireTeam (s : State) (a : Nat) : State :=
  let t := s.team a
  let c := s.crew (crewNo a)
  let s := s.modFixture c.fx (fun f => { f with
    sum := f.sum.merge t.sum, deadLanes := addDead f.deadLanes c.index (teamNo a) t })
  (s.setTeam a { Team.blank t.width t.regs with live := t.live, active := 0, run := .retired }).retireCrew (crewNo a)

end State

/-- TEAM_RETIRE (07 R184): an ended team retires when its accesses and engine operations have completed. -/
def execTeamRetire (agent : Nat) (s : State) : Host.Outcome State Fault Refusal :=
  let t := s.team agent
  .next (if isThread agent || t.run != .ended || t.uwc != [] || s.ownPending agent s.eng.nextOp then s
    else s.retireTeam agent)

/-! ## The completion record (R449-R453) -/

/-- One entry of the failed-item list (R452). -/
def listEntry (crew team lane kind reason detail : Nat) : List Byte :=
  leBytes 8 (crew % 2 ^ 32 + team % 16 * 2 ^ 32 + lane % 1024 * 2 ^ 36 + kind * 2 ^ 47 + reason % 256 * 2 ^ 48 + detail % 256 * 2 ^ 56)

/-- The entries that a fixture's list has, in order. -/
def Fixture.entries (f : Fixture) : List (List Byte) :=
  f.fails.map (fun x => listEntry x.1 0 0 0 x.2.reason.toNat x.2.detail.toNat) ++
  f.deadLanes.map (fun x => listEntry (x.1 / 16384) (x.1 / 1024 % 16) (x.1 % 1024) 1 x.2.code.toNat 0)

/-- Entries that fit between COMPL + 0x80 and the end of COMPL's page. -/
def listRoom (compl : Nat) : Nat := (65536 - compl % 65536 - 0x80) / 8

/-- The entries written. -/
def Fixture.written (f : Fixture) : List (List Byte) := f.entries.take (listRoom f.desc.compl)

/-- CODE of a fixture that ran to its end (R450). -/
def Fixture.code (f : Fixture) : Nat :=
  if f.fails.length = 0 then 0 else if f.fails.length < f.ncrews then 1 else 2

/-- The status word (R450). -/
def Fixture.statusWord (f : Fixture) (code : Nat) : List Byte :=
  leBytes 4 (code + bit (decide (f.written.length < f.entries.length)) * 2 ^ 8 + 2 ^ 31)

/-- Bytes 0x04 to 0x7F of the record (R449). -/
def Fixture.record (f : Fixture) (tend : Nat) : List Byte :=
  let fail := f.fails.length
  let comp := f.ncrews - fail
  let ft := f.first
  leBytes 4 (comp % 2 ^ 32) ++ leBytes 4 (fail % 2 ^ 32) ++ leBytes 4 (min f.deadLanes.length 0xFFFFFFFF) ++
  leBytes 8 f.sum.word.toNat ++ leBytes 8 f.tacc ++ leBytes 8 f.tstart ++ leBytes 8 tend ++ leBytes 4 f.osa.toNat ++
  leBytes 4 (comp / 2 ^ 32 % 2 + fail / 2 ^ 32 % 2 * 2) ++
  leBytes 8 (if f.written.isEmpty then 0 else f.desc.compl + 0x80) ++
  leBytes 8 ((ft.map (fun x => x.pc.toNat)).getD 0) ++
  leBytes 8 ((ft.map (fun x => x.cause.toNat + x.lane * 2 ^ 8 + x.team * 2 ^ 18 + x.crew * 2 ^ 32)).getD 0) ++
  leBytes 48 0

/-- The three writes of a record in their order (R448): address and bytes. -/
def Fixture.writes (f : Fixture) (code tend : Nat) : List (Nat × List Byte) :=
  (if f.written.isEmpty then [] else [(f.desc.compl + 0x80, f.written.flatten)]) ++
  [(f.desc.compl + 4, f.record tend), (f.desc.compl, f.statusWord code)]

/-- One write of a record; a failed one is recorded and the rest go on. -/
def recordWrite (r : Req) (s : State) (w : Nat × List Byte) : State :=
  match writeBlock s r w.1 w.2 with
  | (s, true) => s
  | (s, false) => s.log 0x09 0 r.world 0 r.eid (BitVec.ofNat 64 w.1)

/-- Every crew of the fixture is done and every team of them has retired (R448). -/
def State.fixtureOver (s : State) (fx : Nat) : Bool :=
  let f := s.fixture fx
  !f.retired && f.doneCount == f.ncrews &&
  (s.crews.filter (fun x => x.2.fx == fx)).all (fun x =>
    x.2.done && (List.range x.2.nteams).all (fun k => (s.team (agentOf x.1 k)).run == .retired))

/-- FIXTURE_RETIRE (R448). -/
def execFixtureRetire (fx : Nat) (s : State) : Host.Outcome State Fault Refusal :=
  let f := s.fixture fx
  .next (if !s.fixtureOver fx || s.board.power != .on then s
    else
      let s := (f.writes f.code s.clk.ptp).foldl (recordWrite { engReq f.part f.eid with dep := (s.enc f.eid).st == .dying }) s
      let s := if f.desc.sigEn then s.addEvent f.part f.desc.sigId 1 else s
      (s.modFixture fx (fun f => { f with retired := true })).lookPart f.part)

/-! ## Lost records (17 R439, R445) -/

/-- A record that is written whole, or nothing of it. -/
def writeLost (s : State) (r : Req) (x : Lost) : State × Bool :=
  let y := (x.fx.writes (if x.fx.fails.length < x.fx.ncrews then 1 else 2) x.tend).foldl
    (fun (o : State × Bool) w => if o.2 then writeBlock o.1 r w.1 w.2 else o) (s, true)
  (if y.2 then y.1 else { s with health := y.1.health }, y.2)

/-- An accepted, unretired fixture of the enclave has its record in the same page. -/
def State.complPageUsed (s : State) (eid va : Nat) : Bool :=
  s.fixtures.any (fun x => x.2.eid == eid && !x.2.retired && x.2.desc.compl / 65536 == va / 65536)

/-- The enclave's lost records in turn: the state, the count and whether one was skipped. -/
def lostGo (r : Req) : State × Nat × Bool → List Lost → State × Nat × Bool
  | acc, [] => acc
  | (s, n, skip), x :: t =>
    if s.complPageUsed r.eid x.compl then lostGo r (s, n, true) t
    else match writeLost s r x with
      | (s, false) => lostGo r (s, n, true) t
      | (s, true) => lostGo r ({ s with hold := { s.hold with lost := s.hold.lost.erase x } }, n + 1, skip) t

/-- MSQRY with SEL 3 (17 R445). -/
def execMsqryLost (a : SArgs) (s : State) : Host.Outcome State Fault Refusal :=
  issues (.msqryLost a) (ruleS a) s (fun c => inEnclave s c (fun _ =>
    let e := s.eidOf c.a
    let mine := s.hold.lost.filter (fun x => x.meas == (s.enc e).meas && x.openProf == (s.enc e).openProf)
    let (s', n, skip) := lostGo { s.req c.a with agent := none } (s, 0, false) mine
    { s := s'.modTeam c.a (fun t => t.setdU a.d (msWord e (if skip then 0x03 else 0) 0 + BitVec.ofNat 64 (n * 2 ^ 32))) }))

end Sys2Proof.Machine
end

