-- ==== Sys2Proof/Machine/Launch.lean ====
section
/-! DEFINITION. LAUNCH: the descriptor and its limits (01 R28-R33), admission (05 R117), acceptance (R110, R128); calendar
slots (R119-R121). -/
namespace Sys2Proof.Machine

/-! ## The descriptor (01 R28-R33) -/

/-- The fields of a descriptor. -/
def descOf (b : List Byte) : Desc :=
  let fl := bfld b 0x0C 4
  { code := bfld b 0 8, entry := bfld b 8 4, trapPol := fl % 4, staged := fl.testBit 2, tagMode := fl / 8 % 4
    cal := fl.testBit 5, pfHnd := fl.testBit 6, width := bfld b 0x10 2, teams := bfld b 0x12 1, squad := bfld b 0x13 1
    regs := bfld b 0x14 1, prio := bfld b 0x15 1, sprows := bfld b 0x18 2, tiles := bfld b 0x1A 1, accs := bfld b 0x1B 1
    gx := bfld b 0x20 4, gy := bfld b 0x24 4, gz := bfld b 0x28 4, roles := BitVec.ofNat 32 (bfld b 0x30 4)
    rings := (List.range 4).map (fun k => bfld b (0x34 + k) 1), args := bfld b 0x40 8, compl := bfld b 0x48 8
    traph := bfld b 0x50 8, pfh := bfld b 0x58 8
    waits := (List.range 4).map (fun k => (bfld b (0x60 + 4 * k) 4 % 4096, bfld b (0x60 + 4 * k) 4 / 4096))
    sigEn := (bfld b 0x70 4).testBit 31, sigId := bfld b 0x70 4 % 4096, deadline := bfld b 0x74 4
    duration := bfld b 0x78 4, calEntry := bfld b 0x7C 4, itag := BitVec.ofNat 16 (bfld b 0x80 2) }

/-- Units of the grid. -/
def Desc.grid (d : Desc) : Nat := d.gx * d.gy * d.gz

/-- The crew count (R22). -/
def Desc.crews (d : Desc) : Nat := d.grid * max d.squad 1

/-- The reserved bytes and bits are zero. -/
def descZero (b : List Byte) : Bool :=
  zeroIn b 0x16 2 && zeroIn b 0x1C 4 && zeroIn b 0x2C 4 && zeroIn b 0x38 8 && zeroIn b 0x82 126 &&
  decide (bfld b 0x0C 4 < 128) && bfld b 0x70 4 / 4096 % 2 ^ 19 == 0

/-- Every limit of R28 to R33 holds. -/
def descOk (b : List Byte) : Bool :=
  let d := descOf b
  let c := d.claim
  descZero b && d.code % 64 == 0 && decide (d.code < 2 ^ 57) && decide (d.code + 64 * d.entry < 2 ^ 57) &&
  d.trapPol != 3 && d.tagMode != 3 && decide (32 ≤ d.width) && decide (d.width ≤ 1024) && d.width % 32 == 0 &&
  decide (1 ≤ d.teams) && decide (d.teams ≤ 16) && d.squad != 1 && decide (d.squad ≤ 192) && decide (8 ≤ d.regs) &&
  decide (d.prio ≤ 7) && decide (d.sprows ≤ 4096) && decide (d.tiles ≤ 64) && decide (d.accs ≤ 4) &&
  decide (1 ≤ d.grid) && decide (d.crews ≤ 2 ^ 32) &&
  (List.range 16).all (fun k => d.roles.toNat / 4 ^ k % 4 != 3) && d.roles.toNat / 4 ^ d.teams == 0 &&
  (d.staged || (d.roles == 0 && d.rings.all (· == 0))) && d.rings.all (fun n => decide (n ≤ 8)) &&
  decide (d.rings.sum ≤ d.tiles) && d.args % 64 == 0 && (d.tagMode != 2 || d.args != 0) &&
  d.compl != 0 && d.compl % 64 == 0 && d.traph % 64 == 0 && (d.traph != 0) == (d.trapPol == 2) &&
  d.pfh % 64 == 0 && (d.pfh != 0) == d.pfHnd && d.waits.all (fun w => w.2 != 0 || w.1 == 0) &&
  (d.sigEn || d.sigId == 0) && (d.duration != 0 || !(d.deadline != 0 || d.cal)) &&
  (d.deadline == 0 || decide (d.duration ≤ d.deadline)) && (d.cal || d.calEntry == 0) &&
  (if d.tagMode = 1 then d.itag != 0xFFFF else d.itag == 0) && decide (c.regs ≤ 4096) && decide (c.sp ≤ 4096)

/-! ## Admission (05 R117) -/

/-- The start of slot `k` of an entry. -/
def CalEntry.slotAt (e : CalEntry) (k : Nat) : Nat := e.start + 1000 * e.period * k

/-- The first slot that starts at or after a time. -/
def CalEntry.slotFrom (e : CalEntry) (t : Nat) : Nat := ceilDiv (t - e.start) (1000 * e.period)

/-- A fixture with a crew that is not over is bound to slot `k`. -/
def State.boundAt (s : State) (e : CalEntry) (k : Nat) : Option Nat :=
  (e.bound.find? (fun b => b.1 == k && decide ((s.fixture b.2).doneCount < (s.fixture b.2).ncrews))).map (·.2)

/-- The slot that row 4 finds. -/
def State.slotFor (s : State) (e : CalEntry) : Option Nat :=
  let k := e.slotFrom (s.clk.ptp + 20000)
  ((List.range 4).map (fun j => k + j)).find? (fun j => (s.boundAt e j).isNone)

/-- What row 7 may count on a core: neither what is reserved, nor what other work of at least the fixture's PRIO or with a
promise holds. -/
def State.admitOn (s : State) (part : Nat) (d : Desc) (core : Nat) : Claim :=
  let c := (s.cap part core).sub ((s.calResv part core).add (s.fxResv part core none false))
  c.sub (s.heldOn part core (fun _ x =>
    let g := (s.fixture x.fx).desc
    if g.timed then !x.onRes else decide (d.prio ≤ g.prio)))

/-- The cores on which row 7 finds room for every crew, in crew order. A suspended partition places no crew. -/
def State.admitPlan (s : State) (part eid : Nat) (d : Desc) : Option (List Nat) :=
  if (s.part part).suspended then none
  else planUnits d.claim d.squad d.grid ((s.coresFor part eid).map (fun c => (c, s.admitOn part d c)))

/-- The outcome of admission: a refusal's reason, a slot, or reserved cores. -/
inductive Admit where
  | refused (k : Nat)
  | slot (k : Nat)
  | cores (cs : List Nat)
  deriving DecidableEq, Repr

/-- Rows 1 to 5 of R117. -/
def State.admitCal (s : State) (part eid : Nat) (d : Desc) : Admit :=
  let n := ((s.part part).cfg.map (fun c => c.calN)).getD 0
  let e := tget CalEntry.idle (s.part part).cal d.calEntry
  if n ≤ d.calEntry ∨ !e.armed ∨ (e.eid ≠ 0 ∧ e.eid ≠ eid) then .refused 1
  else if e.rcrews < d.crews ∨ d.squad ≠ e.rsquad ∨ !d.claim.fits e.claim then .refused 2
  else if e.period < d.duration + 5 then .refused 3
  else match s.slotFor e with
    | none => .refused 4
    | some k =>
      if d.deadline ≠ 0 ∧ s.clk.ptp + 1000 * d.deadline < e.slotAt k + 5000 + 1000 * d.duration then .refused 5
      else .slot k

/-- Rows 6 to 8. -/
def State.admitDl (s : State) (part eid : Nat) (d : Desc) : Admit :=
  if !s.waitsMet part d then .refused 6
  else match s.admitPlan part eid d with
    | none => .refused 7
    | some cs => if d.deadline < d.duration + 10 then .refused 8 else .cores cs

/-- R117 for any fixture. -/
def State.admission (s : State) (part eid : Nat) (d : Desc) : Admit :=
  if d.cal then s.admitCal part eid d else if d.deadline = 0 then .cores [] else s.admitDl part eid d

/-! ## LAUNCH (05 R128) -/

/-- The fixture ID after `n` (R110). -/
def nextFixId (n : W32) : W32 := if n = 0xFFFFFFFE then 1 else n + 1

/-- A fixture's claim fits no core of the partition, or its squad no cluster. -/
def State.noFit (s : State) (part : Nat) (d : Desc) : Bool :=
  match (s.part part).cfg with
  | none => true
  | some c =>
    let r : Claim := { slots := c.slotN, regs := 64 * c.regN, sp := 64 * c.spN, tiles := 4 * c.tileN
                       accs := ((List.range 4).filter (fun k => c.accM.getLsbD k)).length, plane := 1 }
    let cs := s.coresIn part
    !d.claim.fits r || cs.isEmpty ||
    (List.range 4).all (fun cl => decide ((cs.filter (fun k => State.clusterOfCore k == cl)).length < d.squad))

/-- A queue of a partition holds 256 unretired fixtures. -/
def State.queueFull (s : State) (part q : Nat) : Bool :=
  decide (256 ≤ (s.fixtures.filter (fun x => x.2.part == part && x.2.queue == q && !x.2.retired)).length)

/-- An accepted fixture is appended, and its eligibility is looked at (R111). -/
def State.accept (s : State) (part eid q : Nat) (d : Desc) (m : Admit) : State :=
  let n := s.nextFx
  let now := s.clk.ptp
  let f : Fixture := { Fixture.none with
    part := part, eid := eid, fid := (s.part part).nextFid, queue := q, desc := d, order := n, tacc := now
    slot := match m with
      | .slot k => some k
      | _ => none
    resv := match m with
      | .cores cs => cs
      | _ => []
    ncrews := d.crews, retired := false }
  let s := s.modPart part (fun p => { p with
    nextFid := nextFixId p.nextFid
    cal := match m with
      | .slot k => let e := tget CalEntry.idle p.cal d.calEntry
                   tset CalEntry.idle p.cal d.calEntry { e with bound := e.bound ++ [(k, n)] }
      | _ => p.cal })
  (({ s with nextFx := n + 1 } : State).setFixture n f).lookFixture n

/-- launch(): the state and the word for D. -/
def launch (s : State) (a : Nat) (q va : Nat) : State × W64 :=
  let part := s.partOf a
  let eid := s.eidOf a
  let res := fun (st : Nat) => (s, BitVec.ofNat 64 (st * 2 ^ 16))
  if (s.enc eid).st ≠ .sealed then res 0x08
  else if 15 < q then res 0x02
  else if va % 64 ≠ 0 then res 0x02
  else match readBlock s (s.req a) va 256 with
    | (s, none) => (s, BitVec.ofNat 64 (0x03 * 2 ^ 16))
    | (s, some b) =>
      let res := fun (st : Nat) => (s, BitVec.ofNat 64 (st * 2 ^ 16))
      let d := descOf b
      if !descOk b then res 0x10
      else if s.noFit part d then res 0x13
      else if s.queueFull part q then res 0x12
      else match s.admission part eid d with
        | .refused k => (s, BitVec.ofNat 64 (0x11 * 2 ^ 16 + k * 2 ^ 24))
        | m => (s.accept part eid q d m, BitVec.ofNat 64 ((s.part part).nextFid.toNat * 2 ^ 32))

/-- LAUNCH (R128). -/
def execLaunch (a : SArgs) (s : State) : Host.Outcome State Fault Refusal :=
  issues (.launch a) { ruleS a with banned := true } s (fun c => inEnclave s c (fun _ =>
    let (s, w) := launch s c.a (c.t.opndU a.a).toNat (c.t.opndU a.b).toNat
    { s := s.modTeam c.a (fun t => (t.setdU a.d w).setPredMask a.pd.toNat c.m (w.toNat / 2 ^ 16 % 256 = 0)) }))

/-! ## Calendar slots (05 R119-R121) -/

/-- A fixture that does not run is reported and flagged. -/
def State.skipFx (s : State) (fx : Nat) (reason : BitVec 8) (flag : Nat) : State :=
  (s.terminateFixture fx reason 0).osaBit fx flag

/-- Fixtures of earlier slots of an entry with a crew still on a core. -/
def State.overruns (s : State) (e : CalEntry) (k : Nat) : List Nat :=
  (e.bound.filter (fun b => decide (b.1 < k) && s.crews.any (fun x => x.2.fx == b.2 && !x.2.done && x.2.core.isSome))).map (·.2)

/-- Crews of a fixture no longer stand on reserved ranges: the entry's next fixture may evict them. -/
def State.giveUpResv (s : State) (fx : Nat) : State :=
  { s with crews := tmap Crew.none (fun c => if c.fx = fx then { c with onRes := false } else c) s.crews }

/-- The overrun rule at the start of a slot (R120) for one overrunning fixture. -/
def overrun (rule : Nat) (bound : Bool) (s : State) (fx : Nat) : State :=
  let s := s.osaBit fx 0
  if !bound then s
  else match rule with
    | 0 => (s.osaBit fx 5).giveUpResv fx
    | 1 => s
    | _ => (s.terminateFixture fx 0x04 0).osaBit fx 2

/-- The fixture of a slot becomes eligible, and its reserved ranges are cleared (R119). -/
def State.startSlot (s : State) (part fx : Nat) (e : CalEntry) : State :=
  let f := s.fixture fx
  let s := s.setFixture fx { f with met := true, elig := some s.clk.ptp }
  let cs := e.cores.take f.ncrews
  (clearCores part fx f.desc.claim s cs cs).getD s

/-- CALENDAR_SLOT_START (R119, R120): the next slot of an armed entry starts. During the OS-fatal stop its fixture retires
SKIPPED (16 R419). -/
def execCalendarSlotStart (part entry : Nat) (s : State) : Host.Outcome State Fault Refusal :=
  let e := tget CalEntry.idle (s.part part).cal entry
  let k := e.nextSlot
  .next (if s.board.power != .on || !e.armed || decide (s.clk.ptp < e.slotAt k) then s
    else
      let new := s.boundAt e k
      let old := s.overruns e k
      let s := s.modPart part (fun p => { p with cal := tset CalEntry.idle p.cal entry { e with nextSlot := k + 1 } })
      let s := old.foldl (overrun e.rule new.isSome) s
      let s := match new with
        | none => s
        | some fx =>
          if (s.part part).osStop || (!old.isEmpty && e.rule == 1) then s.skipFx fx 0x01 1
          else if !s.waitsMet part (s.fixture fx).desc then s.skipFx fx 0x03 4
          else s.startSlot part fx e
      s.lookPart part)

end Sys2Proof.Machine
end

