-- ==== Sys2Proof/Machine/Enclaves.lean ====
section
/-! DEFINITION. Enclaves: building, sealing, entering and leaving (02 R44-R55), paging (16 R415-R418, R424), destruction and
clearing (16 R425, 18 R454, R455), pre-emption and the saving of crews (16 R426), and the frames and chains of the
inverted page table (03 R70-R73, R81). -/
namespace Sys2Proof.Machine

/-! ## Frames and chains (03 R70, R81) -/

/-- A link is replaced by the link after it. -/
def MapSlot.relink (m : MapSlot) (l : Link) (n : Option Link) : MapSlot := if m.next = some l then { m with next := n } else m

/-- The same in every slot of an entry. -/
def Ipt.relink (l : Link) (n : Option Link) (i : Ipt) : Ipt :=
  { i with m0 := i.m0.relink l n, m1 := i.m1.relink l n, m2 := i.m2.relink l n, m3 := i.m3.relink l n }

namespace State

/-- A mapping slot comes into use at the head of its chain. -/
def addLink (s : State) (pfn k e vpn : Nat) (perm : BitVec 3) (attr : BitVec 2) : State :=
  let h := hashOf e vpn
  let m : MapSlot := { mv := true, eid := e, vpn := vpn, perm := perm, mattr := attr, next := tget none s.mem.anchor h }
  let s := s.setIpt pfn ((s.iptOf pfn).setMap k m)
  { s with mem := { s.mem with anchor := tset none s.mem.anchor h (some { pfn := pfn, slot := k }) } }

/-- A mapping slot leaves its chain. -/
def unlink (s : State) (pfn k : Nat) : State :=
  let m := (s.iptOf pfn).map k
  let l : Link := { pfn := pfn, slot := k }
  if !m.mv then s
  else
    let s : State := { s with mem := { s.mem with
      ipt := iptMap (Ipt.relink l m.next) s.mem.ipt
      anchor := tmap none (fun x => if x = some l then m.next else x) s.mem.anchor } }
    s.setIpt pfn ((s.iptOf pfn).setMap k .none)

/-- The translations of a mapping slot are invalidated. -/
def purgeMap (s : State) (pfn k : Nat) : State :=
  let m := (s.iptOf pfn).map k
  if m.mv then s.purge m.eid (· == m.vpn) else s

/-- Every translation of a frame is invalidated (R81). -/
def purgeMaps (s : State) (pfn : Nat) : State := [0, 1, 2, 3].foldl (fun s k => s.purgeMap pfn k) (s.purgeFrame pfn)

/-- Before a frame's owner or ATTR changes its translations are invalidated (R81), and its lines leave the L2s and the
memory-side caches, pinned or not (11 R292, R296). The primary mapping ends; an alias stays until it is removed (R73). -/
def unmapFrame (s : State) (pfn : Nat) : State := ((s.purgeMaps pfn).unlink pfn 0).dropLinesAt (pfn * 65536) 65536

/-- Version counters of a frame start afresh (R76). -/
def freshVer (s : State) (pfn : Nat) : State :=
  { s with mem := { s.mem with ver := s.mem.ver.filter (fun x => x.1 / 256 != pfn) } }

/-- A frame returns to world 2, cleared. -/
def returnFrame (s : State) (pfn : Nat) : State :=
  let s := ((s.unmapFrame pfn).zeroRange (pfn * 65536) 65536).freshVer pfn
  s.setIpt pfn { s.iptOf pfn with owner := 0, oworld := 2, attr := 0, tagged := false, zeroFb := false, route := 0 }

/-- An HBM frame owned by world 2 with no enclave owner (02 R50). -/
def freeFrame (s : State) (pfn : Nat) : Bool :=
  let i := s.iptOf pfn
  decide (pfn < hbmFrames) && i.owner == 0 && i.oworld == 2 && i.valid

/-- The mapping slots that may not stay when a frame becomes a pool frame (`all`: none is in use, 04 R91) or a tagged one
(space 0 holds no mapping of it, 04 R97) end. -/
def unmapSlots (s : State) (pfn : Nat) (all : Bool) : State :=
  [1, 2, 3].foldl (fun s k => if all || ((s.iptOf pfn).map k).eid == 0 then s.unlink pfn k else s) s

/-- A frame passes to an owner and a world; a pool frame has no owner. -/
def claimFrame (s : State) (pfn owner world : Nat) (attr : BitVec 2) (tagf : Nat) (route : BitVec 8) : State :=
  let s := (s.unmapFrame pfn).freshVer pfn
  let s := if owner = 0 ∨ tagf.testBit 0 then s.unmapSlots pfn (owner = 0) else s
  s.setIpt pfn { s.iptOf pfn with
    owner := owner, oworld := world, attr := attr, tagged := tagf.testBit 0, zeroFb := tagf.testBit 1, route := route }

/-- The bytes of a frame are written as a whole. -/
def fillFrame (s : State) (pfn : Nat) (data : List Byte) : State :=
  let s := if (s.iptOf pfn).attr = 2 then s.bump (pfn * 65536) 65536 else s
  (s.zeroRange (pfn * 65536) 65536).setBytes (pfn * 65536) data

end State

/-! ## Measurement (R48) -/

/-- extend(m, x). -/
def extendM (m : BitVec 384) (x : List Byte) : BitVec 384 := sha384 (leBytes 48 m.toNat ++ x)

/-- The sealing key: HKDF-SHA-384 from the device identity secret, with the profile and the final measurement (R46). -/
def sealKeyOf (openProf : Bool) (m : BitVec 384) : BitVec 256 :=
  BitVec.ofNat 256 (leNat (hkdf384 Config.deviceSecret (asciiBytes "TLT-SEAL" ++ leBytes 1 (bit openProf) ++ leBytes 48 m.toNat) 32))

/-- The creation record, from the creation block. -/
def creationRecord (b : List Byte) : List Byte :=
  leBytes 4 1 ++ slice b 1 1 ++ leBytes 1 0 ++ slice b 2 2 ++ slice b 8 8 ++ slice b 0x10 8 ++ slice b 0x18 48 ++ leBytes 56 0

/-- The add record, from the page-add block and the data placed. -/
def addRecord (b data : List Byte) : List Byte :=
  leBytes 4 2 ++ leBytes 4 0 ++ slice b 0 8 ++ slice b 0x18 4 ++ leBytes 4 0 ++ leBytes 48 (sha384 data).toNat ++ leBytes 56 0

/-- The seal record. -/
def sealRecord (adds : Nat) : List Byte := leBytes 4 3 ++ leBytes 4 adds ++ leBytes 56 0

/-! ## ENCREATE (R51) -/

/-- The limits of a creation block. -/
def ecbOk (b : List Byte) : Bool :=
  let threads := bfld b 2 2
  decide (bfld b 0 1 ≤ 11) && decide (bfld b 1 1 ≤ 1) && decide (1 ≤ threads) && decide (threads ≤ 128) && zeroIn b 4 4 &&
  bfld b 8 8 % 64 == 0 && decide (bfld b 8 8 < 2 ^ 57) && bfld b 0x10 8 % 64 == 0 && bfld b 0x48 8 % 65536 == 0 &&
  decide ((threads + 3) / 4 + 1 ≤ bfld b 0x50 4) && zeroIn b 0x54 44

/-- The lowest FREE ID. -/
def State.freeEid (s : State) : Option Nat := ((List.range 4095).map (· + 1)).find? (fun e => (s.enc e).st == .free)

/-- The save-area frames of a creation block. -/
def saveFrames (b : List Byte) : List Nat := (List.range (bfld b 0x50 4)).map (fun j => bfld b 0x48 8 / 65536 + j)

/-- ENCREATE of a block that was read: the state, the ID and the status. Every FREE ID has a key-store slot (log 61). -/
def encreate (s : State) (b : List Byte) : State × Nat × Nat :=
  let part := bfld b 0 1
  if !ecbOk b then (s, 0, 0x02)
  else if (s.part part).cfg.isNone then (s, 0, 0x04)
  else if hbmFrames < bfld b 0x48 8 / 65536 + bfld b 0x50 4 ∨ !(saveFrames b).all s.freeFrame then (s, 0, 0x05)
  else match s.freeEid with
    | none => (s, 0, 0x01)
    | some e =>
      let n : Enclave := { Enclave.free with
        st := .building, part := part, openProf := bfld b 1 1 == 1, threads := bfld b 2 2, entry := bfld b 8 8
        repdata := bfld b 0x10 8, config := slice b 0x18 48, savepa := bfld b 0x48 8, savefr := bfld b 0x50 4
        meas := extendM 0 (creationRecord b), memKey := Config.memKey s.free, saveKey := Config.saveKey s.free }
      let s := (saveFrames b).foldl (fun (s : State) p => s.claimFrame p e (4 + part) 0 0 0) s
      (({ s with free := s.free + 1 } : State).setEnc e n, e, 0)

/-- An instruction of the control cores that reads a block at a 64-byte aligned address: BADREQ and FAULT (R50), or `f` of
its bytes. `id` is the ID of the result of a refusal. -/
def withBlock (c : Ctx) (s : State) (a : SArgs) (va n id : Nat) (f : State → List Byte → Res) : Res :=
  if va % 64 ≠ 0 then c.result s a id 0x02
  else match readBlock s (s.req c.a) va n with
    | (s, none) => c.result s a id 0x03
    | (s, some b) => f s b

/-- ENCREATE (R51). -/
def execEncreate (a : SArgs) (s : State) : Host.Outcome State Fault Refusal :=
  issues (.encreate a) (ruleS a) s (fun c => c.once s (fun _ =>
    if s.eidOf c.a ≠ 0 then c.trap s .perm
    else withBlock c s a (c.t.opndU a.a).toNat 128 0 (fun s b =>
      let (s, e, st) := encreate s b
      c.result s a e st)))

/-! ## ENADD and ENSEAL (R52, R53) -/

/-- The limits of a page-add block. -/
def pabOk (b : List Byte) : Bool :=
  bfld b 0 8 % 65536 == 0 && decide (bfld b 0 8 < 2 ^ 57) && bfld b 8 8 % 65536 == 0 && bfld b 0x10 8 % 64 == 0 &&
  decide (bfld b 0x18 1 < 8) && decide (bfld b 0x19 1 ≤ 2) && decide (bfld b 0x1A 1 < 4) && decide (bfld b 0x1B 1 < 16) &&
  zeroIn b 0x1C 36

/-- maps(e, VA): a page that is paged out keeps its mapping (16 R418), and an aperture window over the VA is none (log 62). -/
def State.mapsPage (s : State) (e vpn : Nat) : Bool :=
  (s.findMap e vpn).isSome || (s.enc e).pagedOut.any (fun x => x.1 == vpn)

/-- ENADD of a block that was read, by requester `r`: the state and the status. -/
def enadd (s : State) (r : Req) (e : Nat) (b : List Byte) : State × Nat :=
  let n := s.enc e
  let src := bfld b 0x10 8
  let vpn := bfld b 0 8 / 65536
  let pfn := bfld b 8 8 / 65536
  if !pabOk b then (s, 0x02)
  else if n.st = .sealed ∧ src ≠ 0 then (s, 0x07)
  else if s.mapsPage e vpn then (s, 0x06)
  else if !s.freeFrame pfn then (s, 0x05)
  else match (if src = 0 then (s, some (List.replicate 65536 0)) else readBlock s r src 65536) with
    | (s, none) => (s, 0x03)
    | (s, some data) =>
      let attr := BitVec.ofNat 2 (bfld b 0x19 1)
      let s := s.claimFrame pfn e (4 + n.part) attr (bfld b 0x1A 1) (BitVec.ofNat 8 (bfld b 0x1B 1))
      let s := (s.fillFrame pfn data).addLink pfn 0 e vpn (BitVec.ofNat 3 (bfld b 0x18 1)) attr
      (s.modEnc e (fun n => if n.st = .building then { n with meas := extendM n.meas (addRecord b data), adds := n.adds + 1 } else n), 0)

/-- ENADD (R52). -/
def execEnadd (a : SArgs) (s : State) : Host.Outcome State Fault Refusal :=
  issues (.enadd a) (ruleS a) s (fun c => osOnly s c (fun _ =>
    let e := (c.t.opndU a.a).toNat % 4096
    if !s.encLive e then c.result s a e 0x08
    else withBlock c s a (c.t.opndU a.b).toNat 64 e (fun s b =>
      let (s, st) := enadd s (s.req c.a) e b
      c.result s a e st)))

/-- ENSEAL (R53). -/
def execEnseal (a : SArgs) (s : State) : Host.Outcome State Fault Refusal :=
  issues (.enseal a) (ruleS a) s (fun c => osOnly s c (fun _ =>
    let e := (c.t.opndU a.a).toNat % 4096
    if !s.encLive e then c.result s a e 0x08
    else if (s.enc e).st = .sealed then c.result s a e 0x07
    else
      let s := s.modEnc e (fun n =>
        let m := extendM n.meas (sealRecord n.adds)
        { n with st := .sealed, meas := m, sealKey := sealKeyOf n.openProf m })
      c.result s a e 0))

/-! ## ENENTER and ENEXIT (R54) -/

/-- The team that starts in a slot at ENTRY: the registers of R54's list are cleared, s0 to s7 and every other register are
the thread's; s8 is the slot, b15 the flat record (03 R65). -/
def enteredTeam (t : Team) (k entry : Nat) (trapped : Option (BitVec 8 × W64)) : Team :=
  let n : Team := { Team.idle with
    pc := BitVec.ofNat 64 entry, run := .running, u := t.u.filter (fun x => decide (x.1 < 8))
    badU := t.badU.filter (· < 8), badSr := t.badSr, srseed := t.srseed, amovGen := t.amovGen, uwc := t.uwc, tag := t.tag
    sppass := t.sppass, trapcause := t.trapcause, trappc := t.trappc, trapmask := t.trapmask, causes := t.causes }
  let n := n.setU 8 (BitVec.ofNat 64 k)
  match trapped with
  | some (c, pc) => n.setTrap 1 pc c
  | none => n

/-- The thread enters slot `k` of enclave `e`: its state is saved into the slot's frame (16 R414). A sealed state goes on where
it stopped, with the flat record in b15 (03 R65), and its notice ends. -/
def enter (s : State) (c : Ctx) (a : SArgs) (e k : Nat) : State :=
  let x := s.slotAt e k
  let out := c.t.move c.pc .seq
  let inn := match x.inner with
    | some t => { t.setRec 15 Rec.flat0 with uwc := c.t.uwc, run := .running, block := [] }
    | none => enteredTeam c.t k (s.enc e).entry x.trapped
  let s := s.setSlot e k { x with entered := some c.a, outer := some out, inner := none, trapped := none, retD := a.d, retPd := a.pd }
  let s := s.setBytes ((s.enc e).slotPa k) (outerImage out)
  let s := (s.setTeam c.a inn).setThread c.a { s.thread c.a with eid := e, slot := k }
  { s with posts := s.posts.filter (fun p => !(p.kind == .thread && p.eid == e && p.crew.toNat == k)) }

/-- ENENTER (R54). It ends its block (06 R140), so that the block is compared before the thread enters. A slot at or above
THREADS answers BADREQ (log 63). -/
def execEnenter (a : SArgs) (s : State) : Host.Outcome State Fault Refusal :=
  issues (.enenter a) { ruleS a with ends := true } s (fun c => osOnly s c (fun _ =>
    let e := (c.t.opndU a.a).toNat % 4096
    let k := (c.t.opndU a.b).toNat
    let n := s.enc e
    if !s.encLive e then c.result s a e 0x08
    else if n.st ≠ .sealed ∨ (s.slotAt e k).killed then c.result s a e 0x07
    else if n.threads ≤ k then c.result s a e 0x02
    else if (s.slotAt e k).entered.isSome then c.result s a e 0x09
    else if c.t.sigBad c.pc then { s := s.sigmis c.a c.pc, flow := .gone }
    else { s := enter s c a e k, flow := .gone }))

/-- ENEXIT (R54). -/
def execEnexit (a : SArgs) (s : State) : Host.Outcome State Fault Refusal :=
  issues (.enexit a) (ruleS a) s (fun c => c.once s (fun _ =>
    if s.eidOf c.a = 0 then c.trap s .perm
    else if c.t.sigBad c.pc then { s := s.sigmis c.a c.pc, flow := .gone }
    else { s := s.enexit c.a, flow := .gone }))

/-! ## Paging (16 R417, R418, R424) -/

/-- NOENC or BADSTATE for an enclave that is not SEALED, else 0. -/
def State.sealedSt (s : State) (e : Nat) : Nat := if !s.encLive e then 0x08 else if (s.enc e).st ≠ .sealed then 0x07 else 0

/-- PERM, ATTR, TAGF and ROUTE of a page. -/
def pattrOf (i : Ipt) : Nat := i.m0.perm.toNat + i.attr.toNat * 2 ^ 8 + (bit i.tagged + 2 * bit i.zeroFb) * 2 ^ 16 + i.route.toNat * 2 ^ 24

/-- The frame of a resident primary mapping. -/
def State.primaryOf (s : State) (e vpn : Nat) : Option Nat :=
  match s.findMap e vpn with
  | some l => if l.slot = 0 then some l.pfn else none
  | none => none

/-- The page may not leave: an alias, a cell (04 R98), or a declared item (17 R443). -/
def State.pageBusy (s : State) (e vpn pfn : Nat) : Bool :=
  let i := s.iptOf pfn
  i.m1.mv || i.m2.mv || i.m3.mv || s.mem.cells.any (fun c => c.frame == pfn) ||
  (s.enc e).items.any (fun x => (pagesOf x.va x.len).contains vpn)

/-- A page's frame returns to world 2, and its mapping is marked paged out. -/
def State.pageOut (s : State) (e vpn pfn : Nat) : State :=
  let pa : W32 := BitVec.ofNat 32 (pattrOf (s.iptOf pfn))
  (s.returnFrame pfn).modEnc e (fun n => { n with
    pageVer := tset 0 n.pageVer vpn (tget 0 n.pageVer vpn + 1), pagedOut := tins (tdel n.pagedOut vpn) vpn pa, iv := n.iv + 1 })

/-- ENPGOUT of a block that was read: the state and the status. -/
def enpgout (s : State) (r : Req) (b : List Byte) : State × Nat :=
  let e := bfld b 0 2
  let va := bfld b 8 8
  let dst := bfld b 0x10 8
  let vpn := va / 65536
  if s.sealedSt e ≠ 0 then (s, s.sealedSt e)
  else if !zeroIn b 2 6 || !zeroIn b 0x18 40 || va % 65536 != 0 || dst % 64 != 0 then (s, 0x02)
  else match s.primaryOf e vpn with
    | none => (s, 0x02)
    | some pfn =>
      let n := s.enc e
      if s.pageBusy e vpn pfn then (s, 0x09)
      else if !s.goodIn (pfn * 65536) 65536 (s.iptOf pfn) then (s.ueAt (pfn * 65536) 65536 (s.iptOf pfn), 0x03)
      else
        let hdr := sealHeader 3 e 0 0 va (tget 0 n.pageVer vpn + 1) 65536 n.iv (pattrOf (s.iptOf pfn))
        match writeBlock s r dst (sealObj n.saveKey n.iv hdr (s.bytes (pfn * 65536) 65536)) with
        | (s, false) => (s, 0x03)
        | (s, true) => (s.pageOut e vpn pfn, 0)

/-- ENPGIN of a block that was read. BADREQ is the status of a page that has never been paged out: a resident one that has
been answers a second ENPGIN of one image with STALE (R427, 21 R474; log 28). -/
def enpgin (s : State) (r : Req) (b : List Byte) : State × Nat :=
  let e := bfld b 0 2
  let va := bfld b 8 8
  let vpn := va / 65536
  let pfn := bfld b 0x18 8 / 65536
  let n := s.enc e
  if s.sealedSt e ≠ 0 then (s, s.sealedSt e)
  else if !zeroIn b 2 6 || !zeroIn b 0x20 32 || va % 65536 != 0 || bfld b 0x10 8 % 64 != 0 || tget 0 n.pageVer vpn == 0 then
    (s, 0x02)
  else if bfld b 0x18 8 % 65536 ≠ 0 ∨ !s.freeFrame pfn then (s, 0x05)
  else match readBlock s r (bfld b 0x10 8) 65616 with
    | (s, none) => (s, 0x03)
    | (s, some img) =>
      if !sealGood n.saveKey 65536 img then (s, 0x14)
      else if bfld img 0 2 ≠ 3 ∨ bfld img 2 2 ≠ e ∨ bfld img 0x10 8 ≠ va ∨ bfld img 0x20 8 ≠ 65536 then (s, 0x14)
      else if bfld img 0x18 8 ≠ tget 0 n.pageVer vpn ∨ !n.pagedOut.any (fun x => x.1 == vpn) then (s, 0x0F)
      else
        let pa := bfld img 0x34 4
        let attr := BitVec.ofNat 2 (pa / 2 ^ 8)
        let s := s.claimFrame pfn e (4 + n.part) attr (pa / 2 ^ 16 % 256) (BitVec.ofNat 8 (pa / 2 ^ 24))
        let s := (s.fillFrame pfn (openObj n.saveKey 65536 img)).addLink pfn 0 e vpn (BitVec.ofNat 3 pa) attr
        (s.modEnc e (fun n => { n with
          pageVer := tset 0 n.pageVer vpn (tget 0 n.pageVer vpn + 1), pagedOut := tdel n.pagedOut vpn }), 0)

/-- ENPGOUT (R424). The result echoes A (02 R50), as those of every instruction of R420 do. -/
def execEnpgout (a : SArgs) (s : State) : Host.Outcome State Fault Refusal :=
  issues (.enpgout a) (ruleS a) s (fun c => osOnly s c (fun _ =>
    let va := (c.t.opndU a.a).toNat
    withBlock c s a va 64 va (fun s b =>
      let (s, st) := enpgout s { s.req c.a with agent := none } b
      c.result s a va st)))

/-- ENPGIN (R424). -/
def execEnpgin (a : SArgs) (s : State) : Host.Outcome State Fault Refusal :=
  issues (.enpgin a) (ruleS a) s (fun c => osOnly s c (fun _ =>
    let va := (c.t.opndU a.a).toNat
    withBlock c s a va 64 va (fun s b =>
      let (s, st) := enpgin s { s.req c.a with agent := none } b
      c.result s a va st)))

/-! ## ENKILL (16 R425) -/

/-- The tag of a departing enclave retires (04 R100). -/
def TagState.depart (e : Nat) : TagState → TagState
  | .live x => if x = e then .retiring e none else .live x
  | .leaving x o u => if x = e then .retiring e (some (o, u)) else .leaving x o u
  | t => t

namespace State

/-- The enclave's threads leave at their return points with NOENC. -/
def expel (s : State) (e : Nat) : State :=
  let s := (s.thr.filter (fun x => x.2.eid == e)).foldl (fun (s : State) (x : Nat × Thread) => s.leaveEnclave x.1 false 0x08) s
  s.modEnc e (fun n => { n with slots := [] })

/-- The enclave's pins, bindings and streams end. -/
def endLinks (s : State) (e : Nat) : State :=
  let free := fun (ls : List Line) => ls.map (fun x => if x.pin == some e then { x with pin := none } else x)
  { s with
    caches := { s.caches with msc := tmap [] free s.caches.msc }
    links := { s.links with bindings := s.links.bindings.filter (fun b => b.eid != e) }
    parts := tmap Part.none (fun p => { p with streams := tmap Stream.none (fun x => if x.eid = e then Stream.none else x) p.streams }) s.parts }

/-- What ENKILL does to an enclave that is BUILDING or SEALED. -/
def killEnc (s : State) (e : Nat) : State :=
  let p := (s.enc e).part
  let fxs := (s.fixtures.filter (fun x => x.2.eid == e && !x.2.retired)).map (·.1)
  let s := fxs.foldl (fun (s : State) fx => s.terminateFixture fx 0x06 0) s
  let s := s.expel e
  let s := s.modEnc e (fun n => { n with st := .dying, items := [], crewVer := [], clear := 0, cleared := [] })
  let s := ((s.mem.ipt.filter (fun x => x.2.owner == e)).map (·.1)).foldl purgeMaps s
  let s : State := { s with
    posts := s.posts.filter (fun x => x.eid != e)
    eng := { s.eng with copyOps := s.eng.copyOps.map (fun o =>
      if o.eid = e ∧ o.kind ≠ .wsld then { o with cancel := true, token := none } else o) } }
  let s := s.modPart p (fun x => { x with tags := tmap .free (TagState.depart e) x.tags })
  ((s.endLinks e).stir).lookPart p

end State

/-- ENKILL (R425). -/
def execEnkill (a : SArgs) (s : State) : Host.Outcome State Fault Refusal :=
  issues (.enkill a) (ruleS a) s (fun c => osOnly s c (fun _ =>
    let e := (c.t.opndU a.a).toNat % 4096
    if !s.encLive e then c.result s a e 0x08 else c.result (s.killEnc e) a e 0))

/-! ## Departure (18 R454, R455) -/

namespace State

/-- The enclave's records are written, its operations have ended and its tags are FREE. -/
def mayDepart (s : State) (e : Nat) : Bool :=
  (s.enc e).st == .dying && s.fixtures.all (fun x => x.2.eid != e || x.2.retired) &&
  s.eng.copyOps.all (fun o => o.eid != e) && s.eng.collOps.all (fun o => (s.ringAt o.ring).eid != e) &&
  (s.part (s.enc e).part).tags.all (fun x => match x.2 with
    | .retiring y _ => y != e
    | t => t.liveIn != some e)

/-- The steps of the table that a profile runs. -/
def clearSteps (openProf : Bool) : List Nat := if openProf then [4, 6, 7, 8] else [1, 2, 3, 4, 5, 6, 7, 8]

/-- Step 7: the weight-store granules are zeroed and freed. -/
def clearGranules (s : State) (e : Nat) : State :=
  (s.mem.gran.filter (fun x => x.2 == e)).foldl (fun (s : State) (x : Nat × Nat) =>
    let s := s.zeroWs (x.1 / 4096 * 2 ^ 28 + x.1 % 4096 * 65536) 65536
    { s with mem := { s.mem with gran := tset 0 s.mem.gran x.1 0 } }) s

/-- Registers, banks, planes, scratchpad rows and tiles of the enclave's crews. All its crews have left their cores, where
a crew's ranges are cleared (R454). -/
def clearCrews (s : State) (e : Nat) : State :=
  { s with crews := tmap Crew.none (fun c => if c.eid = e then vacate c else c) s.crews }

/-- The units that a step is the last to clear, numbered here: SIMT and control cores 0 to 831, the L2s from 1000, the TLBs from
1100, the weight stores from 1200, and the key store 1300. -/
def clearUnits : Nat → List Nat
  | 4 => List.range 832
  | 5 => [1000, 1001, 1002, 1003]
  | 6 => [1100, 1101, 1102, 1103]
  | 7 => (List.range 8).map (· + 1200)
  | 8 => [1300]
  | _ => []

/-- One clearing step, in every unit; the clear-done bits rise of the units that it is the last to clear (R455). -/
def clearStep (s : State) (e k : Nat) : State :=
  let mine := fun (i : Nat) => (s.iptOf i).owner == e
  let s : State := match k with
    | 1 | 2 | 3 => s.clearCrews e
    | 4 => { s with caches := { s.caches with
        l1 := tmap [] (fun ls => ls.filter (fun x => x.eid != e)) s.caches.l1
        icache := tmap [] (fun ls => ls.filter (fun x => x.eid != e)) s.caches.icache } }
    | 5 => { s with caches := { s.caches with l2 := tmap [] (fun ls => ls.filter (fun x => !mine (x.addr / 65536))) s.caches.l2 } }
    | 6 => { s with caches := { s.caches with tlb := tmap [] (fun ls => ls.filter (fun x => x.eid != e)) s.caches.tlb } }
    | 7 => s.clearGranules e
    | _ => s.modEnc e (fun n => { n with memKey := 0, saveKey := 0, sealKey := 0 })
  s.modEnc e (fun n => { n with clear := n.clear ||| (1#8 <<< (k - 1)), cleared := n.cleared ++ clearUnits k })

/-- Mappings of the enclave's space as aliases of other frames end. -/
def dropAliases (s : State) (e : Nat) : State :=
  s.mem.ipt.foldl (fun (s : State) (x : Nat × Ipt) =>
    [0, 1, 2, 3].foldl (fun (s : State) k =>
      if (x.2.map k).mv && (x.2.map k).eid == e then (s.purgeMap x.1 k).unlink x.1 k else s) s) s

/-- Aperture entries of the enclave end, with every other translation that names it (02 R44). -/
def dropApertures (s : State) (e : Nat) : State :=
  { s with parts := tmap Part.none (fun p => { p with apert := tmap Aperture.none (fun x => if x.eid = e then .none else x) p.apert }) s.parts }

/-- The enclave's frames and save area are zeroed and return to world 2, and the ID is FREE. -/
def depart (s : State) (e : Nat) : State :=
  let s := ((s.mem.ipt.filter (fun x => x.2.owner == e)).map (·.1)).foldl returnFrame s
  let s := (((s.dropAliases e).dropApertures e).purge e (fun _ => true)).setEnc e Enclave.free
  let s : State := { s with
    eng := { s.eng with rings := s.eng.rings.filter (fun x => x.2.eid != e) }
    links := { s.links with rels := s.links.rels.filter (fun x => x.1 / 4096 != e)
                            relsIn := s.links.relsIn.filter (fun x => x.1 / 4096 != e) } }
  s.log 0x0D 0 0xFF 0 e 0

end State

/-- Clearing goes on until power-off (R455). -/
def State.railsUp (s : State) : Bool := s.board.power == .on || s.board.power == .quiesce || s.board.power == .saving

/-- ENCLAVE_DEPARTURE (R454, R455): the next clearing step in order; after the last one, with every clear-done bit set, the
frames are zeroed and the ID becomes FREE. -/
def execEnclaveDeparture (eid : Nat) (s : State) : Host.Outcome State Fault Refusal :=
  let n := s.enc eid
  .next (if !s.mayDepart eid || !s.railsUp then s
    else match (State.clearSteps n.openProf).find? (fun k => !n.clear.getLsbD (k - 1)) with
      | some k => s.clearStep eid k
      | none => if ((State.clearSteps n.openProf).flatMap State.clearUnits).all n.cleared.contains then s.depart eid else s)

/-! ## Pre-emption (16 R412, R426) -/

/-- TSAVE with KIND 0 (R426). -/
def execTsavePart (a : SArgs) (s : State) : Host.Outcome State Fault Refusal :=
  issues (.tsavePart a) (ruleS a) s (fun c => osOnly s c (fun _ =>
    let p := (c.t.opndU a.a).toNat
    if 12 ≤ p ∨ (s.part p).cfg.isNone then c.result s a p 0x04
    else if (s.part p).suspended then c.result s a p 0x09
    else c.result (s.suspend p) a p 0))

/-- TREST with KIND 0 (R426). -/
def execTrestPart (a : SArgs) (s : State) : Host.Outcome State Fault Refusal :=
  issues (.trestPart a) (ruleS a) s (fun c => osOnly s c (fun _ =>
    let p := (c.t.opndU a.a).toNat
    if 12 ≤ p ∨ (s.part p).cfg.isNone then c.result s a p 0x04
    else if !(s.part p).suspended then c.result s a p 0x07
    else c.result (s.modPart p (fun x => { x with suspended := false, osStop := false })) a p 0))

/-- The crew of an enclave with a fixture ID and a linear index. -/
def State.crewByUnit (s : State) (e fid unit : Nat) : Option (Nat × Crew) :=
  s.crews.find? (fun x => x.2.eid == e && (s.fixture x.2.fx).fid.toNat == fid && x.2.index == unit && !x.2.done)

/-- TSAVE with KIND 1 of a block that was read: the state and the status. The blob is the one that the eviction sealed. -/
def tsaveExport (s : State) (r : Req) (b : List Byte) : State × Nat :=
  let e := bfld b 0 2
  if !zeroIn b 2 2 || !zeroIn b 0x0C 4 || !zeroIn b 0x20 32 then (s, 0x02)
  else if s.sealedSt e ≠ 0 then (s, s.sealedSt e)
  else match s.crewByUnit e (bfld b 4 4) (bfld b 8 4) with
    | none => (s, 0x07)
    | some (k, c) =>
      let len := s.crewLen k
      if c.core.isSome || c.exported then (s, 0x07)
      else if bfld b 0x18 8 < len + 80 then (s, 0x02)
      else
        match writeBlock s r (bfld b 0x10 8) (s.readFrames c.frames (len + 80)) with
        | (s, false) => (s, 0x03)
        | (s, true) => (s.modCrew k (fun c => { c with exported := true, frames := [] }), 0)

/-- The largest LEN of a crew's blob: 16 teams with every row and bank of a core. -/
def maxBlob : Nat := blobLen 16 4096 4096 4

/-- TREST with KIND 1 of a block that was read. A blob that claims more than a crew can hold was never sealed. An accepted one
raises the version (R417), and its room holds it sealed under the next (log 28). -/
def trestImport (s : State) (r : Req) (b : List Byte) : State × Nat :=
  let e := bfld b 0 2
  let n := s.enc e
  if !zeroIn b 2 6 || !zeroIn b 0x10 48 then (s, 0x02)
  else if s.sealedSt e ≠ 0 then (s, s.sealedSt e)
  else match readBlock s r (bfld b 8 8) 64 with
    | (s, none) => (s, 0x03)
    | (s, some hdr) =>
      let len := bfld hdr 0x20 8
      if maxBlob < len then (s, 0x14)
      else match readBlock s r (bfld b 8 8) (len + 80) with
        | (s, none) => (s, 0x03)
        | (s, some img) =>
          if !sealGood n.saveKey len img then (s, 0x14)
          else if bfld img 0 2 ≠ 1 ∨ bfld img 2 2 ≠ e then (s, 0x14)
          else match s.crewByUnit e (bfld img 4 4) (bfld img 8 4) with
            | none => (s, 0x14)
            | some (k, c) =>
              let key := (s.fixture c.fx).fid.toNat * 2 ^ 32 + c.index
              let ps := (s.freeRoom e).take (roomFrames len)
              if !c.exported || bfld img 0x18 8 != tget 0 n.crewVer key then (s, 0x0F)
              else if ps.length < roomFrames len then (s, 0x09)
              else
                ((s.modCrew k (fun c => { c with exported := false, frames := ps })).saveBlob k, 0)

/-- TSAVE with KIND 1 (R426). -/
def execTsaveExport (a : SArgs) (s : State) : Host.Outcome State Fault Refusal :=
  issues (.tsaveExport a) (ruleS a) s (fun c => osOnly s c (fun _ =>
    let va := (c.t.opndU a.a).toNat
    withBlock c s a va 64 va (fun s b =>
      let (s, st) := tsaveExport s { s.req c.a with agent := none } b
      c.result s a va st)))

/-- TREST with KIND 1 (R426). -/
def execTrestImport (a : SArgs) (s : State) : Host.Outcome State Fault Refusal :=
  issues (.trestImport a) (ruleS a) s (fun c => osOnly s c (fun _ =>
    let va := (c.t.opndU a.a).toNat
    withBlock c s a va 64 va (fun s b =>
      let (s, st) := trestImport s { s.req c.a with agent := none } b
      c.result s a va st)))

end Sys2Proof.Machine
end

