-- ==== Sys2Proof/Machine/Spdm.lean ====
section
/-! DEFINITION. Sphinx as SPDM responder, attestation reports and dual signatures (02 R56-R60). The message formats are those
of SPDM 1.3, which the spec does not repeat (log 32); a response holds the fields that 02 states (`SpdmRsp`). Requester 0 is
the PF and SPDMX, requester k the VF k. -/
namespace Sys2Proof.Machine

/-! ## Measurement blocks (R57) -/

/-- The bytes of a partition's configuration block (R40). -/
def cfgBytes (p : Nat) (c : PartCfg) : List Byte :=
  leBytes 1 p ++ leBytes 1 c.vf ++ leBytes 1 c.slotB ++ leBytes 1 c.slotN ++ leBytes 1 c.regB ++ leBytes 1 c.regN ++
  leBytes 1 c.spB ++ leBytes 1 c.spN ++ leBytes 1 c.tileB ++ leBytes 1 c.tileN ++ leBytes 1 c.accM.toNat ++
  leBytes 1 c.hbmW ++ leBytes 2 c.calN ++ leBytes 1 c.cpyMax ++ leBytes 1 c.colMax ++ leBytes 4 c.llcq ++ leBytes 12 0 ++
  leBytes 96 c.cores.toNat ++ leBytes 128 0

namespace State

/-- Partition `p` is visible to a requester. -/
def spdmSees (s : State) (who p : Nat) : Bool := who == 0 || (s.part p).cfg.any (fun c => c.vf == who)

/-- The digest of measurement block `i` for a requester. -/
def measBlock (s : State) (who i : Nat) : BitVec 384 :=
  match i with
  | 4 => sha384 ((List.range 17).flatMap (fun k => leBytes 4 ((s.fwRead 0 k).getD 0).toNat))
  | 5 => sha384 ((s.parts.filter (fun x => s.spdmSees who x.1)).flatMap (fun x =>
      match x.2.cfg with
      | some c => cfgBytes x.1 c
      | none => []))
  | _ => sha384 (Config.image i)

/-- The digest over the blocks 1 to 5: of their five digests one after another, without block headers (DESIGN CHOICE, log 73). -/
def measDigest (s : State) (who : Nat) : BitVec 384 :=
  sha384 (([1, 2, 3, 4, 5] : List Nat).flatMap (fun i => leBytes 48 (s.measBlock who i).toNat))

end State

/-! ## Signatures and certificates (R59) -/

/-- Bytes of an HSS signature: two levels, LMS_SHA256_M32_H15 over LMS_SHA256_M32_H20 with LMOTS_SHA256_N32_W8 (log 32). -/
def hssLen : Nat := 3444

/-- A dual signature over an object: the ECDSA half, L, and the HSS half with its `n`-th one-time key. -/
def dualSig (key : Nat) (obj : List Byte) (n : Nat) : List Byte :=
  fitTo 96 (Config.ecdsa key (sha384 obj) n) ++ leBytes 4 hssLen ++ (List.range hssLen).map (Config.hssByte key obj n)

/-- Certificate `k` of the chain: its body, the HSS public key of its subject, and the issuer's dual signature. -/
def certOf (k : Nat) (body : List Byte) : List Byte :=
  let b := body ++ (List.range 60).map (Config.hssPublic k)
  b ++ dualSig (k + 1) b 0

/-- The slot-0 certificate chain. -/
def certChain : List Byte := Config.certBodies.zipIdx.flatMap (fun x => certOf x.2 x.1)

/-! ## The bytes of a response (log 32) -/

/-- A measurement block: index, specification, size, and the digest with its type and size. -/
def blockBytes (x : Nat × BitVec 384) : List Byte :=
  leBytes 1 x.1 ++ leBytes 1 1 ++ leBytes 2 51 ++ leBytes 1 0 ++ leBytes 2 48 ++ leBytes 48 x.2.toNat

/-- A response header. -/
def rspHead (code p1 p2 : Nat) : List Byte := leBytes 1 0x13 ++ leBytes 1 code ++ leBytes 1 p1 ++ leBytes 1 p2

/-- The bytes of a response. -/
def rspBytes : SpdmRsp → List Byte
  | .version => leBytes 1 0x10 ++ leBytes 1 0x04 ++ leBytes 3 0 ++ leBytes 1 1 ++ leBytes 2 0x1300
  | .capabilities => rspHead 0x61 0 0 ++ leBytes 4 0 ++ leBytes 4 0x202D6 ++ leBytes 4 4096 ++ leBytes 4 65536
  | .algorithms =>
    rspHead 0x63 3 0 ++ leBytes 2 48 ++ leBytes 1 1 ++ leBytes 1 0 ++ leBytes 4 4 ++ leBytes 4 0x80 ++ leBytes 4 2 ++ leBytes 12 0 ++
      leBytes 1 0 ++ leBytes 1 0 ++ leBytes 2 0 ++ leBytes 4 0x00102002 ++ leBytes 4 0x00022003 ++ leBytes 4 0x00012005
  | .digests d => rspHead 0x01 1 1 ++ leBytes 48 d.toNat
  | .certificate b => rspHead 0x02 0 0 ++ leBytes 2 b.length ++ leBytes 2 0 ++ b
  | .challengeAuth nonce h sig =>
    rspHead 0x03 0 1 ++ leBytes 48 (sha384 certChain).toNat ++ leBytes 32 nonce.toNat ++ leBytes 48 h.toNat ++ leBytes 10 0 ++ sig
  | .measurements bs nonce sig =>
    rspHead 0x60 (if bs = [] then 5 else 0) 0 ++ leBytes 1 bs.length ++ leBytes 3 (55 * bs.length) ++ bs.flatMap blockBytes ++
      leBytes 32 nonce.toNat ++ leBytes 10 0 ++ sig
  | .keyExchange n share => rspHead 0x64 0 0 ++ leBytes 2 n ++ leBytes 2 0 ++ leBytes 96 share.toNat
  | .finished _ => rspHead 0x65 0 0
  | .ended _ => rspHead 0x6C 0 0
  | .chunkAck h n => rspHead 0x05 0 h ++ leBytes 2 n
  | .chunk h n last d => rspHead 0x06 (bit last) h ++ leBytes 2 n ++ leBytes 2 0 ++ leBytes 4 d.length ++ d
  | .report b sig => rspHead 0x7E 0 0 ++ leBytes 3 0 ++ leBytes 2 (b.length + sig.length) ++ b ++ sig
  | .errUnsupported => rspHead 0x7F 0x07 0
  | .errInvalid => rspHead 0x7F 0x01 0
  | .errUnspecified => rspHead 0x7F 0x05 0

namespace State

/-- A dual signature with the device's key; the count of one-time keys advances first (R60). None when they are exhausted. -/
def sign (s : State) (obj : List Byte) : Option (State × List Byte) :=
  let n := s.hold.hss
  if 2 ^ 35 ≤ n then none
  else some ({ s with hold := { s.hold with hss := n + 1 } }, dualSig 0 obj n)

/-- A response with a signature over `obj`, or ERROR Unspecified with its event. -/
def signed (s : State) (obj : List Byte) (f : List Byte → SpdmRsp) : State × SpdmRsp :=
  match s.sign obj with
  | some (s, sig) => (s, f sig)
  | none => (s.log 0x03 0 0 0 0 0, .errUnspecified)

/-- A response with a signature over its own bytes. -/
def signedRsp (s : State) (f : List Byte → SpdmRsp) : State × SpdmRsp := s.signed (rspBytes (f [])) f

/-! ## Messages (R56-R58) -/

/-- A response that needs no state. -/
def spdmPlain (s : State) (r : SpdmRsp) : State × SpdmRsp := (s, r)

def spdmAlgorithms (s : State) (who : Nat) : State × SpdmRsp :=
  ({ s with spdm := { s.spdm with negotiated := who :: s.spdm.negotiated.filter (· != who) } }, .algorithms)

def spdmCertificate (s : State) (slot off len : Nat) : State × SpdmRsp :=
  if slot ≠ 0 then (s, .errUnsupported) else (s, .certificate ((certChain.drop off).take len))

def spdmChallenge (s : State) (who slot : Nat) (nonce : BitVec 256) : State × SpdmRsp :=
  if slot ≠ 0 then (s, .errUnsupported) else s.signedRsp (.challengeAuth nonce (s.measDigest who))

/-- The blocks of a measurement index: one block, or all with index 0xFF; index 0 asks only how many there are. -/
def measList (s : State) (who index : Nat) : Option (List (Nat × BitVec 384)) :=
  let one := fun (i : Nat) => (i, s.measBlock who i)
  if index = 0 then some []
  else if index ≤ 5 then some [one index]
  else if index = 0xFF then some (([1, 2, 3, 4, 5] : List Nat).map one)
  else none

def spdmMeasurements (s : State) (who index : Nat) (sig : Bool) (nonce : BitVec 256) : State × SpdmRsp :=
  match s.measList who index with
  | none => (s, .errInvalid)
  | some bs => if sig then s.signedRsp (.measurements bs nonce) else (s, .measurements bs 0 [])

def spdmKeyExchange (s : State) (slot : Nat) : State × SpdmRsp :=
  if slot ≠ 0 then (s, .errUnsupported)
  else
    let n := s.spdm.nextSession
    ({ s with spdm := { s.spdm with sessions := s.spdm.sessions ++ [(n, false)], nextSession := n + 1 } },
     .keyExchange n (Config.keyShare n))

def spdmFinish (s : State) (session : Nat) : State × SpdmRsp :=
  if s.spdm.sessions.contains (session, false) then
    ({ s with spdm := { s.spdm with sessions := s.spdm.sessions.map (fun x => if x.1 = session then (x.1, true) else x) } },
     .finished session)
  else (s, .errInvalid)

def spdmEnd (s : State) (session : Nat) : State × SpdmRsp :=
  if s.spdm.sessions.contains (session, true) then
    ({ s with spdm := { s.spdm with sessions := s.spdm.sessions.filter (fun x => x.1 != session) } }, .ended session)
  else (s, .errInvalid)

/-- The report-data area, zero when REPDATA is 0 (R58). Sphinx reads it, in world 0 (R36). -/
def reportData (s : State) (eid : Nat) : State × Option (List Byte) :=
  let n := s.enc eid
  if n.repdata = 0 then (s, some (List.replicate 64 0)) else readBlock s { engReq n.part eid with fw := 0 } n.repdata 64

/-- Bytes 0x00 to 0xC7 of a report (R58). -/
def reportBytes (s : State) (who eid : Nat) (nonce : BitVec 256) (data : List Byte) : List Byte :=
  let n := s.enc eid
  leBytes 4 1 ++ leBytes 1 (bit n.openProf) ++ leBytes 3 0 ++ leBytes 48 n.meas.toNat ++ leBytes 48 (s.measDigest who).toNat ++
    leBytes 32 nonce.toNat ++ data

/-- ENCREPORT (R58). A report-data area that cannot be read is answered with ERROR Unspecified (log 64). -/
def spdmReport (s : State) (who eid : Nat) (nonce : BitVec 256) : State × SpdmRsp :=
  if (s.enc eid).st ≠ .sealed ∨ !s.spdmSees who (s.enc eid).part then (s, .errInvalid)
  else match s.reportData eid with
    | (s, none) => (s, .errUnspecified)
    | (s, some d) => s.signed (s.reportBytes who eid nonce d) (.report (s.reportBytes who eid nonce d))

/-- One chunk of a long response. -/
def chunkSize : Nat := 1024

def spdmChunkGet (s : State) (who handle seq : Nat) : State × SpdmRsp :=
  let b := tget [] s.spdm.chunkOut (who * 256 + handle)
  if b.length ≤ seq * chunkSize then (s, .errInvalid)
  else (s, .chunk handle seq (decide (b.length ≤ (seq + 1) * chunkSize)) ((b.drop (seq * chunkSize)).take chunkSize))

/-- A message that is no chunk of a request: code, parameters and fields where SPDM 1.3 has them (log 32). A slot other than 0
and the signature of a mutual authentication are not supported. -/
def spdmMessage (s : State) (who : Nat) (b : List Byte) : State × SpdmRsp :=
  let sig := bfld b 2 1 % 2 == 1
  match bfld b 1 1 with
  | 0x84 => s.spdmPlain .version
  | 0xE1 => s.spdmPlain .capabilities
  | 0xE3 => s.spdmAlgorithms who
  | 0x81 => s.spdmPlain (.digests (sha384 certChain))
  | 0x82 => s.spdmCertificate (bfld b 2 1 % 16) (bfld b 4 2) (bfld b 6 2)
  | 0x83 => s.spdmChallenge who (bfld b 2 1 % 16) (BitVec.ofNat 256 (bfld b 4 32))
  | 0xE0 =>
    if sig && bfld b 36 1 % 16 != 0 then (s, .errUnsupported)
    else s.spdmMeasurements who (bfld b 3 1) sig (BitVec.ofNat 256 (bfld b 4 32))
  | 0xE4 => s.spdmKeyExchange (bfld b 3 1 % 16)
  | 0xE5 => if sig then (s, .errUnsupported) else s.spdmFinish (bfld b 4 4)
  | 0xEC => s.spdmEnd (bfld b 4 4)
  | 0x86 => s.spdmChunkGet who (bfld b 3 1) (bfld b 4 2)
  | 0xFE => s.spdmReport who (bfld b 4 2) (BitVec.ofNat 256 (bfld b 6 32))
  | _ => s.spdmPlain .errUnsupported

/-- A chunk of a long request; the message is answered when its last chunk is there. -/
def spdmChunkSend (s : State) (who handle seq : Nat) (last : Bool) (data : List Byte) : State × SpdmRsp :=
  let k := who * 256 + handle
  let b := (if seq = 0 then [] else tget [] s.spdm.chunkIn k) ++ data
  let s := { s with spdm := { s.spdm with chunkIn := tset [] s.spdm.chunkIn k (if last then [] else b) } }
  if last then s.spdmMessage who b else (s, .chunkAck handle seq)

/-- A message as its bytes; the first chunk of a request has the request's size before its data. -/
def spdmBytes (s : State) (who : Nat) (b : List Byte) : State × SpdmRsp :=
  if bfld b 1 1 = 0x85 then
    let o := if bfld b 4 2 = 0 then 16 else 12
    s.spdmChunkSend who (bfld b 3 1) (bfld b 4 2) (bfld b 2 1 % 2 == 1) (slice b o (bfld b 8 4))
  else s.spdmMessage who b

/-- The answer stands as the requester's latest response, and its bytes stand for CHUNK_GET under handle 0. -/
def spdmAnswer (who : Nat) (r : State × SpdmRsp) : State :=
  let keep := match r.2 with
    | .chunk .. => r.1.spdm.chunkOut
    | x => tset [] r.1.spdm.chunkOut (who * 256) (rspBytes x)
  { r.1 with spdm := { r.1.spdm with rsp := tins (tdel r.1.spdm.rsp who) who r.2, chunkOut := keep } }

/-- The 4,096 bytes of a response on a path that carries no more: one that is longer is an ERROR LargeResponse, whose chunks
CHUNK_GET reads. -/
def rspWire (r : SpdmRsp) : List Byte :=
  let b := rspBytes r
  fitTo 4096 (if b.length ≤ 4096 then b else rspHead 0x7F 0x0F 0 ++ leBytes 1 0)

end State

/-- A message on the mailbox of the PF or a VF. -/
def mailbox (who : Nat) (s : State) (f : State → State × SpdmRsp) : Host.Outcome State Fault Refusal :=
  .next (if 12 < who ∨ s.board.power = .off then s else State.spdmAnswer who (f s))

/-- GET_VERSION. -/
def execGetVersion (who : Nat) (s : State) : Host.Outcome State Fault Refusal := mailbox who s (fun s => s.spdmPlain .version)

/-- GET_CAPABILITIES. -/
def execGetCapabilities (who : Nat) (s : State) : Host.Outcome State Fault Refusal :=
  mailbox who s (fun s => s.spdmPlain .capabilities)

/-- NEGOTIATE_ALGORITHMS. -/
def execNegotiateAlgorithms (who : Nat) (s : State) : Host.Outcome State Fault Refusal := mailbox who s (fun s => s.spdmAlgorithms who)

/-- GET_DIGESTS. -/
def execGetDigests (who : Nat) (s : State) : Host.Outcome State Fault Refusal :=
  mailbox who s (fun s => s.spdmPlain (.digests (sha384 certChain)))

/-- GET_CERTIFICATE: slots other than 0 are not supported. -/
def execGetCertificate (who slot off len : Nat) (s : State) : Host.Outcome State Fault Refusal :=
  mailbox who s (fun s => s.spdmCertificate slot off len)

/-- CHALLENGE (R59). -/
def execChallenge (who slot : Nat) (nonce : BitVec 256) (s : State) : Host.Outcome State Fault Refusal :=
  mailbox who s (fun s => s.spdmChallenge who slot nonce)

/-- GET_MEASUREMENTS (R57). -/
def execGetMeasurements (who index : Nat) (signed : Bool) (nonce : BitVec 256) (s : State) : Host.Outcome State Fault Refusal :=
  mailbox who s (fun s => s.spdmMeasurements who index signed nonce)

/-- KEY_EXCHANGE; the key that the share leads to leaves no trace outside Sphinx. -/
def execKeyExchange (who : Nat) (_share : BitVec 768) (s : State) : Host.Outcome State Fault Refusal :=
  mailbox who s (fun s => s.spdmKeyExchange 0)

/-- FINISH. -/
def execFinish (who session : Nat) (s : State) : Host.Outcome State Fault Refusal := mailbox who s (fun s => s.spdmFinish session)

/-- END_SESSION. -/
def execEndSession (who session : Nat) (s : State) : Host.Outcome State Fault Refusal := mailbox who s (fun s => s.spdmEnd session)

/-- CHUNK_SEND. -/
def execChunkSend (who handle seq : Nat) (last : Bool) (data : List Byte) (s : State) : Host.Outcome State Fault Refusal :=
  mailbox who s (fun s => s.spdmChunkSend who handle seq last data)

/-- CHUNK_GET. -/
def execChunkGet (who handle seq : Nat) (s : State) : Host.Outcome State Fault Refusal :=
  mailbox who s (fun s => s.spdmChunkGet who handle seq)

/-- ENCREPORT (R58). -/
def execEncreport (who eid : Nat) (nonce : BitVec 256) (s : State) : Host.Outcome State Fault Refusal :=
  mailbox who s (fun s => s.spdmReport who eid nonce)

/-- Any other message, mutual authentication or a pre-shared key: ERROR UnsupportedRequest. -/
def execSpdmUnsupported (who _code : Nat) (s : State) : Host.Outcome State Fault Refusal :=
  mailbox who s (fun s => s.spdmPlain .errUnsupported)

end Sys2Proof.Machine
end

