-- ==== Sys2Proof/Machine/Requests.lean ====
section
/-! DEFINITION. Monitor requests (02 R43): partitions (R40-R43), mappings, apertures and pools (03 R74, R78, 04 R91), calendar
entries and the lease period (05 R114-R116, R122), queues, bindings, streams and rings (15 R381, R385, R391, R396,
16 R406), vectors, the OS-fatal stop, the black box and the scores (16 R409, R419, 18 R457, R460), and SYSCALL (15 R380,
16 R421). A request answers the state and the value that s0 takes. -/
namespace Sys2Proof.Machine

namespace State

/-- A request with a block of `n` bytes at a 64-byte aligned address in space 0: BADREQ or FAULT, or `f` of its bytes. -/
def monBlock (s : State) (va : W64) (n : Nat) (f : State → List Byte → State × Nat) : State × Nat :=
  if va.toNat % 64 ≠ 0 then (s, 0x02)
  else match readBlock s osReq va.toNat n with
    | (s, none) => (s, 0x03)
    | (s, some b) => f s b

/-- The partition is configured. -/
def partOk (s : State) (p : Nat) : Bool := decide (p ≤ 11) && (s.part p).cfg.isSome

/-! ## Partitions (R40-R43) -/

/-- The configuration in a block. Retired cores are removed from every CORES mask (18 R459). -/
def cfgOf (s : State) (b : List Byte) : PartCfg :=
  let cores := bfld b 0x20 96
  { vf := bfld b 1 1, slotB := bfld b 2 1, slotN := bfld b 3 1, regB := bfld b 4 1, regN := bfld b 5 1, spB := bfld b 6 1
    spN := bfld b 7 1, tileB := bfld b 8 1, tileN := bfld b 9 1, accM := BitVec.ofNat 4 (bfld b 0xA 1), hbmW := bfld b 0xB 1
    calN := bfld b 0xC 2, cpyMax := bfld b 0xE 1, colMax := bfld b 0xF 1, llcq := bfld b 0x10 4
    cores := (List.range 768).foldl (fun m k =>
      if s.unitState (.core k) == .retired then m &&& ~~~ (1#768 <<< k) else m) (BitVec.ofNat 768 cores) }

/-- The limits of R40 within the block. -/
def cfgLimits (b : List Byte) (c : PartCfg) : Bool :=
  decide (c.vf ≤ 12) && decide (c.slotB ≤ 31) && decide (1 ≤ c.slotN) && decide (c.slotB + c.slotN ≤ 32) &&
  decide (c.regB ≤ 63) && decide (1 ≤ c.regN) && decide (c.regB + c.regN ≤ 64) && decide (c.spB ≤ 63) &&
  decide (c.spB + c.spN ≤ 64) && decide (c.tileB ≤ 15) && decide (c.tileB + c.tileN ≤ 16) && decide (bfld b 0xA 1 < 16) &&
  decide (1 ≤ c.hbmW) && decide (c.calN ≤ 64) && decide (c.cpyMax ≤ 16) && decide (c.colMax ≤ 8) && decide (c.llcq ≤ 4608) &&
  zeroIn b 0x14 12 && zeroIn b 0x80 128

/-- Two ranges given by first and count share a place. -/
def meets (a n b m : Nat) : Bool := n != 0 && m != 0 && decide (a < b + m) && decide (b < a + n)

/-- Two configurations overlap on a core that both name (R41). -/
def cfgOverlap (c d : PartCfg) : Bool :=
  (c.cores &&& d.cores) != 0 && (meets c.slotB c.slotN d.slotB d.slotN || meets c.regB c.regN d.regB d.regN ||
    meets c.spB c.spN d.spB d.spN || meets c.tileB c.tileN d.tileB d.tileN || (c.accM &&& d.accM) != 0)

/-- PCFG (R41-R43). -/
def monPcfg (s : State) (arg : W64) : State × Nat :=
  s.monBlock arg 256 (fun s b =>
    let p := bfld b 0 1
    let c := s.cfgOf b
    if 11 < p then (s, 0x02)
    else if (s.part p).cfg.isSome then (s, 0x09)
    else if !cfgLimits b c || (c.vf != 0 && s.parts.any (fun x => x.2.cfg.any (fun d => d.vf == c.vf))) then (s, 0x02)
    else if s.parts.any (fun x => x.2.cfg.any (cfgOverlap c)) then (s, 0x0B)
    else (s.setPart p { Part.none with cfg := some c }, 0))

/-- Enclaves of a partition that are not FREE. -/
def liveEnclaves (s : State) (p : Nat) : Nat := (s.encl.filter (fun x => x.2.part == p && x.2.st != .free)).length

/-- A requested step of the time base takes place when no entry is armed (05 R113). One that had to wait sets the time that
it named (log 70). -/
def tryStep (s : State) : State :=
  match s.clk.step with
  | none => s
  | some t =>
    if s.parts.any (fun x => x.2.cal.any (fun y => y.2.armed)) then s
    else { s with clk := { s.clk with ptp := t, step := none } }

/-- The pins of a partition end, and its pool frames return to world 2. Its calendar entries go with it. -/
def releasePart (s : State) (p : Nat) : State :=
  let free := fun (ls : List Line) => ls.map (fun x => if x.part == some p then { x with pin := none } else x)
  let s := (s.part p).pool.foldl returnFrame s
  ({ s.setPart p Part.none with caches := { s.caches with msc := tmap [] free s.caches.msc } } : State).tryStep

/-- PREL (R43): the argument is a partition number, and no address. -/
def monPrel (s : State) (arg : W64) : State × Nat :=
  let p := arg.toNat
  if 15 < p then (s, 0x02)
  else if !s.partOk p then (s, 0x04)
  else if s.liveEnclaves p ≠ 0 then (s, 0x09)
  else (s.releasePart p, 0)

/-- Crews of a partition on a core. -/
def residentCrews (s : State) (p : Nat) : Nat := (s.crews.filter (fun x => x.2.part == p && !x.2.done && x.2.core.isSome)).length

/-- PQRY (R43). -/
def monPqry (s : State) (arg : W64) : State × Nat :=
  s.monBlock arg 256 (fun s b =>
    let p := bfld b 0 1
    match (if p ≤ 11 then (s.part p).cfg else none) with
    | none => (s, 0x04)
    | some c =>
      let w := cfgBytes p c
      let out := slice w 0 0x14 ++ leBytes 2 (s.liveEnclaves p) ++ leBytes 2 0 ++ leBytes 4 (s.residentCrews p) ++
        leBytes 2 (s.countTags p (fun t => t.liveIn.isSome)) ++ leBytes 2 0 ++ slice w 0x20 224
      match writeBlock s osReq arg.toNat out with
      | (s, false) => (s, 0x03)
      | (s, true) => (s, 0))

/-- SPDMX (R56): a message of 4,096 bytes, and the response behind it (log 32). -/
def monSpdmx (s : State) (arg : W64) : State × Nat :=
  s.monBlock arg 4096 (fun s b =>
    let r := s.spdmBytes 0 b
    match writeBlock (spdmAnswer 0 r) osReq (arg.toNat + 4096) (rspWire r.2) with
    | (s, false) => (s, 0x03)
    | (s, true) => (s, 0))

/-! ## Mappings and aliases (03 R73, R74) -/

/-- The space of a mapping is 0 or a live enclave. -/
def spaceOk (s : State) (e : Nat) : Bool := e == 0 || s.encLive e

/-- A VA lies in an aperture that applies to a space. -/
def apertAt (s : State) (e vpn : Nat) : Bool :=
  e != 0 && (s.part (s.enc e).part).apert.any (fun x =>
    x.2.target != 0 && (x.2.eid == 0 || x.2.eid == e) && decide (x.2.vabase / 65536 ≤ vpn) && decide (vpn < x.2.vabase / 65536 + x.2.pages))

/-- The first slot from `k` up that is not in use. -/
def freeSlotOf (i : Ipt) (k : Nat) : Option Nat := ([0, 1, 2, 3].filter (fun j => decide (k ≤ j))).find? (fun j => !(i.map j).mv)

/-- An alias that R73 admits, its free slot apart. -/
def aliasOk (s : State) (i : Ipt) (e : Nat) (mattr : BitVec 2) : Bool :=
  mattr == i.attr &&
  (if e = 0 then !i.tagged && (i.attr == 0 || (s.enc i.owner).openProf)
   else i.owner != 0 && e != i.owner && (s.enc e).part == (s.enc i.owner).part && i.attr == 0)

/-- The limits of a PMAP block. -/
def pmapOk (b : List Byte) : Bool :=
  decide (bfld b 1 1 < 8) && decide (bfld b 2 1 ≤ 2) && zeroIn b 3 1 && decide (bfld b 4 2 ≤ 4095) && zeroIn b 6 2 &&
  bfld b 8 8 % 65536 == 0 && decide (bfld b 8 8 < 2 ^ 57) && bfld b 0x10 8 % 65536 == 0 && zeroIn b 0x18 40

/-- OPC 1: a world-2 frame into space 0. An EID other than 0 is BADREQ (log 65). -/
def pmapMap (s : State) (e vpn pfn : Nat) (perm : BitVec 3) (mattr : BitVec 2) : State × Nat :=
  let i := s.iptOf pfn
  if e ≠ 0 then (s, 0x02)
  else if !s.freeFrame pfn then (s, 0x05)
  else if (s.findMap 0 vpn).isSome then (s, 0x06)
  else if mattr ≠ i.attr then (s, 0x0C)
  else match freeSlotOf i 0 with
    | none => (s, 0x0D)
    | some k => (s.addLink pfn k 0 vpn perm mattr, 0)

/-- OPC 2 and OPC 4: the mapping of (EID, VA) onto FRAME ends; `alias` asks for an alias slot, and otherwise the frame must
be one of world 2. A mapping that is not there is BADREQ (log 65). -/
def pmapEnd (s : State) (alias_ : Bool) (e vpn pfn : Nat) : State × Nat :=
  match s.findMap e vpn with
  | none => (s, 0x02)
  | some l =>
    if l.pfn ≠ pfn ∨ (if alias_ then decide (l.slot = 0) else decide (e ≠ 0) || !s.freeFrame pfn) then (s, 0x02)
    else (s.unlink pfn l.slot, 0)

/-- OPC 3: an alias. Pool frames have none (04 R91). -/
def pmapAlias (s : State) (e vpn pfn : Nat) (perm : BitVec 3) (mattr : BitVec 2) : State × Nat :=
  let i := s.iptOf pfn
  if hbmFrames ≤ pfn ∨ !i.valid ∨ (i.owner = 0 ∧ i.oworld ≠ 2) then (s, 0x05)
  else if s.mapsPage e vpn then (s, 0x06)
  else if s.apertAt e vpn then (s, 0x0D)
  else if !s.aliasOk i e mattr then (s, 0x0C)
  else match freeSlotOf i 1 with
    | none => (s, 0x0D)
    | some k => (s.addLink pfn k e vpn perm mattr, 0)

/-- PMAP (R74). -/
def monPmap (s : State) (arg : W64) : State × Nat :=
  s.monBlock arg 64 (fun s b =>
    let opc := bfld b 0 1
    let e := bfld b 4 2
    let vpn := bfld b 8 8 / 65536
    let pfn := bfld b 0x10 8 / 65536
    let perm := BitVec.ofNat 3 (bfld b 1 1)
    let mattr := BitVec.ofNat 2 (bfld b 2 1)
    if opc = 0 ∨ 4 < opc ∨ !pmapOk b then (s, 0x02)
    else if !s.spaceOk e then (s, 0x08)
    else match opc with
      | 1 => s.pmapMap e vpn pfn perm mattr
      | 2 => s.pmapEnd false e vpn pfn
      | 3 => s.pmapAlias e vpn pfn perm mattr
      | _ => s.pmapEnd true e vpn pfn)

/-! ## Apertures (03 R78) -/

/-- The aperture entry at offset 4 of an APSET block. -/
def apertureOf (b : List Byte) : Aperture :=
  { vabase := bfld b 4 8, pages := bfld b 0xC 4, eid := bfld b 0x10 2, perm := BitVec.ofNat 3 (bfld b 0x12 1)
    route := BitVec.ofNat 8 (bfld b 0x13 1), raddr := bfld b 0x14 8, target := bfld b 0x1C 1, stream := bfld b 0x1D 1 }

/-- The limits of a valid entry. -/
def apertureOk (b : List Byte) : Bool :=
  let e := apertureOf b
  e.vabase % 65536 == 0 && decide (e.vabase < 2 ^ 57) && decide (1 ≤ e.pages) && decide (e.pages ≤ 2 ^ 24) &&
  decide (e.vabase + 65536 * e.pages ≤ 2 ^ 57) && decide (e.eid ≤ 4095) && decide (bfld b 0x12 1 < 4) &&
  !e.route.getLsbD 0 && decide (e.route.toNat < 16) && e.raddr % 65536 == 0

/-- Two entries apply to one enclave. -/
def sameSpace (a b : Nat) : Bool := a == 0 || b == 0 || a == b

/-- The entry meets another valid entry, or a mapping, of an enclave that it applies to. -/
def apertureTaken (s : State) (p k : Nat) (e : Aperture) : Bool :=
  (s.part p).apert.any (fun x => x.1 != k && x.2.target != 0 && sameSpace x.2.eid e.eid &&
    meets x.2.vabase (65536 * x.2.pages) e.vabase (65536 * e.pages)) ||
  s.mem.ipt.any (fun x => [0, 1, 2, 3].any (fun j =>
    let m := x.2.map j
    m.mv && m.eid != 0 && (s.enc m.eid).part == p && sameSpace m.eid e.eid && decide (e.vabase / 65536 ≤ m.vpn) &&
      decide (m.vpn < e.vabase / 65536 + e.pages)))

/-- APSET (R78). -/
def monApset (s : State) (arg : W64) : State × Nat :=
  s.monBlock arg 36 (fun s b =>
    let k := bfld b 0 2
    let p := bfld b 2 1
    let e := apertureOf b
    let put := fun (e : Aperture) => (s.modPart p (fun x => { x with apert := tset Aperture.none x.apert k e }), 0)
    if !s.partOk p then (s, 0x04)
    else if 1023 < k ∨ !zeroIn b 3 1 ∨ 3 < e.target ∨ !zeroIn b 0x1E 6 then (s, 0x02)
    else if e.target = 0 then put Aperture.none
    else if !apertureOk b then (s, 0x02)
    else if e.eid ≠ 0 ∧ (!s.encLive e.eid ∨ (s.enc e.eid).part ≠ p) then (s, 0x08)
    else if s.apertureTaken p k e then (s, 0x0D)
    else put e)

/-! ## Tag pools (04 R91) -/

/-- The frames of a CPOOL list. -/
def poolFrames (b : List Byte) (n : Nat) : List Nat := (List.range n).map (fun j => bfld b (8 * j) 8 / 65536)

/-- CPOOL with a list that was read. -/
def cpool (s : State) (p opc n : Nat) (l : List Byte) : State × Nat :=
  let fs := poolFrames l n
  if (List.range n).any (fun j => bfld l (8 * j) 8 % 65536 != 0) || !decide fs.Nodup then (s, 0x05)
  else if opc = 1 then
    if !fs.all s.freeFrame then (s, 0x05)
    else ((fs.foldl (fun (s : State) f => s.claimFrame f 0 (4 + p) 0 0 0) s).modPart p (fun x => { x with pool := x.pool ++ fs }), 0)
  else if !fs.all (fun f => (s.part p).pool.contains f) then (s, 0x05)
  else if fs.any (fun f => s.mem.cells.any (fun c => c.slot / 65536 == f)) then (s, 0x09)
  else ((fs.foldl returnFrame s).modPart p (fun x => { x with pool := x.pool.filter (fun f => !fs.contains f) }), 0)

/-- CPOOL (R91). -/
def monCpool (s : State) (arg : W64) : State × Nat :=
  s.monBlock arg 64 (fun s b =>
    let p := bfld b 0 1
    let opc := bfld b 1 1
    let n := bfld b 4 4
    let va := bfld b 8 8
    if !s.partOk p then (s, 0x04)
    else if (opc ≠ 1 ∧ opc ≠ 2) ∨ !zeroIn b 2 2 ∨ n = 0 ∨ 65536 < n ∨ va % 8 ≠ 0 ∨ !zeroIn b 0x10 48 then (s, 0x02)
    else match readBlock s osReq va (8 * n) with
      | (s, none) => (s, 0x03)
      | (s, some l) => s.cpool p opc n l)

/-! ## Calendar entries and the lease period (05 R114-R116, R122) -/

/-- The entry that an arm asks for. -/
def entryOf (b : List Byte) : CalEntry :=
  { CalEntry.idle with
    armed := true, rule := bfld b 4 1, rslots := bfld b 5 1, rtiles := bfld b 6 1, racc := bfld b 7 1, start := bfld b 8 8
    period := bfld b 0x10 4, rcrews := bfld b 0x14 4, rregs := bfld b 0x18 2, rsp := bfld b 0x1A 2, rsquad := bfld b 0x1C 1
    eid := bfld b 0x20 2 }

/-- The limits of an arm. Bytes 0x1E and 0x1F, which the map does not list, are reserved and zero (log 71). -/
def armOk (s : State) (b : List Byte) : Bool :=
  let e := entryOf b
  decide (e.rule ≤ 2) && decide (1 ≤ e.rslots) && decide (e.rslots ≤ 32) && decide (e.rtiles ≤ 64) && decide (e.racc ≤ 4) &&
  e.start % 1000 == 0 && decide (s.clk.ptp + 100000 ≤ e.start) && decide (10 ≤ e.period) && decide (e.period ≤ 1000000) &&
  decide (1 ≤ e.rcrews) && decide (e.rcrews ≤ 768) && e.rregs % 64 == 0 && decide (64 ≤ e.rregs) && decide (e.rregs ≤ 4096) &&
  e.rsp % 64 == 0 && decide (e.rsp ≤ 4096) && e.rsquad != 1 && decide (e.rsquad ≤ 192) &&
  (e.rsquad == 0 || e.rcrews % e.rsquad == 0) && decide (e.eid ≤ 4095) && zeroIn b 0x1D 3 && zeroIn b 0x22 30

/-- The cores of an entry's reservation (R115): ranges that no other armed entry has reserved. -/
def armPlan (s : State) (p : Nat) (e : CalEntry) : Option (List Nat) :=
  planUnits e.claim e.rsquad (e.rcrews / max e.rsquad 1)
    ((s.coresIn p).map (fun c => (c, (s.cap p c).sub (s.calResv p c))))

/-- Disarming (R116): fixtures bound to slots that have not started retire SKIPPED. -/
def disarm (s : State) (p k : Nat) : State :=
  let e := tget CalEntry.idle (s.part p).cal k
  if !e.armed then s
  else
    let s := (e.bound.filter (fun b => decide (e.nextSlot ≤ b.1) && decide ((s.fixture b.2).doneCount < (s.fixture b.2).ncrews))).foldl
      (fun (s : State) b => s.skipFx b.2 0x01 1) s
    let s := e.bound.foldl (fun (s : State) b => s.giveUpResv b.2) s
    ((s.modPart p (fun x => { x with cal := tset CalEntry.idle x.cal k CalEntry.idle })).lookPart p).tryStep

/-- CALSET (R114). -/
def monCalset (s : State) (arg : W64) : State × Nat :=
  s.monBlock arg 64 (fun s b =>
    let p := bfld b 0 1
    let opc := bfld b 1 1
    let k := bfld b 2 2
    if !s.partOk p then (s, 0x04)
    else if (opc ≠ 1 ∧ opc ≠ 2) ∨ ((s.part p).cfg.map (fun c => c.calN)).getD 0 ≤ k then (s, 0x02)
    else if opc = 2 then (if zeroIn b 4 60 then (s.disarm p k, 0) else (s, 0x02))
    else if !s.armOk b then (s, 0x02)
    else if (tget CalEntry.idle (s.part p).cal k).armed then (s, 0x09)
    else match s.armPlan p (entryOf b) with
      | none => (s, 0x0E)
      | some cs =>
        (s.modPart p (fun x => { x with cal := tset CalEntry.idle x.cal k { entryOf b with cores := cs } }), 0))

/-- LPSET (R122): the argument is a period in µs, and no address. -/
def monLpset (s : State) (arg : W64) : State × Nat :=
  let n := arg.toNat
  if n < 10 ∨ 10000 < n then (s, 0x02) else ({ s with eng := { s.eng with nextPeriod := n } }, 0)

/-! ## Queues (15 R381, R382, 16 R406) -/

/-- A queue holds entries that are not serviced. -/
def queueBusy (s : State) (q : Option Queue) : Bool :=
  match q with
  | none => false
  | some q =>
    match (readBlock s osReq q.idx 8).2 with
    | none => false
    | some b => bfld b 0 4 != bfld b 4 4

/-- CQSET and FQSET: the queue is set and the waiting entries are posted, oldest first. -/
def monQueue (s : State) (call : Bool) (arg : W64) : State × Nat :=
  s.monBlock arg 64 (fun s b =>
    let p := bfld b 0 1
    let q : Queue := { log2n := bfld b 1 1, core := bfld b 2 1, thr := bfld b 3 1, ring := bfld b 8 8, idx := bfld b 0x10 8 }
    if !s.partOk p then (s, 0x04)
    else if q.log2n < 4 ∨ 12 < q.log2n ∨ 63 < q.core ∨ 1 < q.thr ∨ !zeroIn b 4 4 ∨ q.ring % 64 ≠ 0 ∨ q.idx % 64 ≠ 0 ∨
        !zeroIn b 0x18 40 then (s, 0x02)
    else if s.queueBusy (if call then (s.part p).callQ else (s.part p).faultQ) then (s, 0x09)
    else
      let s := s.modPart p (fun x => if call then { x with callQ := some q } else { x with faultQ := some q })
      (s.postGo [] (s.posts.filter (fun x => x.part == p && !x.posted)), 0))

/-! ## Bindings (15 R385) -/

/-- The key of a requester in `Links.tdi` and `Links.errs`. -/
def ridKey (port rid : Nat) : Nat := port * 65536 + rid

/-- The requester's TDI is in RUN and its stream is keyed. -/
def tdiRuns (s : State) (port rid ide : Nat) : Bool :=
  tget Tdi.configUnlocked s.links.tdi (ridKey port rid) == .run && ide != 0xFF && tget false s.links.ide (port * 16 + ide)

/-- The binding of a requester. -/
def bindingOf (s : State) (port rid : Nat) : Option Binding := s.links.bindings.find? (fun x => x.port == port && x.rid == rid)

/-- The binding of a requester ends. -/
def unbind (s : State) (port rid : Nat) : State :=
  { s with links := { s.links with bindings := s.links.bindings.filter (fun x => !(x.port == port && x.rid == rid)) } }

/-- A VF is bound only to an enclave of its own partition. -/
def vfMatches (s : State) (rid e : Nat) : Bool := e != 0 && ((s.part (s.enc e).part).cfg.any (fun c => c.vf == rid))

/-- PDBIND (R385). -/
def monPdbind (s : State) (arg : W64) : State × Nat :=
  s.monBlock arg 64 (fun s b =>
    let port := bfld b 0 1
    let opc := bfld b 1 1
    let rid := bfld b 2 2
    let e := bfld b 4 2
    let ide := bfld b 6 1
    if 1 < port ∨ (opc ≠ 1 ∧ opc ≠ 2) ∨ (port = 0 ∧ (rid = 0 ∨ 12 < rid)) ∨ 4095 < e ∨
        (ide ≠ 0xFF ∧ (if port = 0 then 15 else 7) < ide) ∨ !zeroIn b 7 57 then (s, 0x02)
    else if opc = 2 then (s.unbind port rid, 0)
    else if e ≠ 0 ∧ !s.encLive e then (s, 0x08)
    else if port = 0 ∧ !s.vfMatches rid e then (s, 0x02)
    else if (s.bindingOf port rid).isSome then (s, 0x09)
    else if e ≠ 0 ∧ !(s.enc e).openProf ∧ !s.tdiRuns port rid ide then (s, 0x07)
    else
      let n : Binding := { port := port, rid := rid, eid := e, ide := if ide = 0xFF then none else some ide }
      ({ s with links := { s.links with bindings := s.links.bindings ++ [n] } }, 0))

/-! ## Streams and rings (15 R391, R396) -/

/-- Whether the peer package runs a matching enclave and admits the exchange: a free value. -/
def peerAgrees (s : State) : Bool := (Config.freeWord s.free).getLsbD 0

/-- The key that both ends of a stream derive from their SPDM session, bound to the measurements of both enclaves (R391). The
session's secret and the peer's measurement are free values; the order of the two and the label are the model's (log 8). -/
def streamKey (s : State) (eid sid : Nat) : BitVec 256 :=
  let peer := (List.range 48).map (Config.freeByte s.free)
  BitVec.ofNat 256 (leNat (hkdf384 (Config.sessionSecret s.free)
    (asciiBytes "BURRA" ++ leBytes 6 sid ++ leBytes 48 (s.enc eid).meas.toNat ++ peer) 32))

/-- BSSET (R391). -/
def monBsset (s : State) (arg : W64) : State × Nat :=
  s.monBlock arg 64 (fun s b =>
    let e := bfld b 0 2
    let k := bfld b 2 1
    let opc := bfld b 3 1
    let p := (s.enc e).part
    let x : Stream := { Stream.none with st := .open, eid := e, pkg := bfld b 4 2, failev := bfld b 6 2, sid := bfld b 8 6 }
    if 4095 < e ∨ (opc ≠ 1 ∧ opc ≠ 2) ∨ 4095 < x.pkg ∨ 4095 < x.failev ∨ !zeroIn b 0x0E 50 then (s, 0x02)
    else if !s.encLive e then (s, 0x08)
    else if opc = 2 then
      if (s.stream p k).st = .absent ∨ (s.stream p k).eid ≠ e then (s, 0x02) else ((s.setStream p k Stream.none).stir, 0)
    else if (s.stream p k).st ≠ .absent then (s, 0x09)
    else if s.parts.any (fun y => y.2.streams.any (fun z => z.2.st != .absent && z.2.sid == x.sid)) then (s, 0x02)
    else if s.peerAgrees then
      let s : State := { s with free := s.free + 1 }
      (({ s with free := s.free + 1 } : State).setStream p k { x with key := s.streamKey e x.sid }, 0)
    else ({ s with free := s.free + 1 }, 0x07))

/-- CRSET (R396). -/
def monCrset (s : State) (arg : W64) : State × Nat :=
  s.monBlock arg 64 (fun s b =>
    let e := bfld b 0 2
    let d := bfld b 2 2
    let k := ringKey (s.enc e).part d
    if 4095 < e ∨ 4095 < d ∨ !zeroIn b 4 4 ∨ bfld b 8 8 % 128 ≠ 0 ∨ !zeroIn b 0x10 48 then (s, 0x02)
    else if !s.encLive e then (s, 0x08)
    else if (s.ringAt k).eid ≠ 0 ∧ (s.ringAt k).eid ≠ e then (s, 0x02)
    else (s.setRing k { eid := e, doorb := d, base := bfld b 8 8, consumed := 0, posted := 0 }, 0))

/-! ## Control threads, the black box and the scores (16 R409, R419, 18 R457, R460) -/

/-- CTSET (16 R409). -/
def monCtset (s : State) (arg : W64) : State × Nat :=
  s.monBlock arg 64 (fun s b =>
    let c := bfld b 0 1
    let t := bfld b 1 1
    if 63 < c ∨ 1 < t ∨ !zeroIn b 2 6 ∨ bfld b 8 8 % 64 ≠ 0 ∨ bfld b 0x10 8 % 8 ≠ 0 ∨ !zeroIn b 0x18 40 then (s, 0x02)
    else
      let a := 2 * c + t
      (s.setThread a { s.thread a with vec := some (BitVec.ofNat 64 (bfld b 8 8)), note := BitVec.ofNat 64 (bfld b 0x10 8) }, 0))

/-- The 32 bytes of a black-box record (18 R456). -/
def bbBytes (e : BbEvent) : List Byte :=
  leBytes 8 e.seq ++ leBytes 8 e.time ++ leBytes 2 e.type ++ leBytes 1 e.uclass ++ leBytes 1 e.world ++ leBytes 2 e.unit ++
    leBytes 2 e.eid ++ leBytes 8 e.detail.toNat

/-- The records that a BBRD reads, oldest first. -/
def bbTake (s : State) (gen first n : Nat) : List BbEvent :=
  (((if gen = 0 then s.health.bb else s.health.saved).reverse).filter (fun e => decide (first ≤ e.seq))).take n

/-- BBRD (18 R457). -/
def monBbrd (s : State) (arg : W64) : State × Nat :=
  s.monBlock arg 64 (fun s b =>
    let n := bfld b 8 4
    let gen := bfld b 0xC 1
    let dst := bfld b 0x10 8
    if n = 0 ∨ 4096 < n ∨ 1 < gen ∨ !zeroIn b 0xD 3 ∨ dst % 32 ≠ 0 ∨ !zeroIn b 0x18 40 then (s, 0x02)
    else
      let rs := s.bbTake gen (bfld b 0 8) n
      match writeBlock s osReq dst (rs.flatMap bbBytes) with
      | (s, false) => (s, 0x03)
      | (s, true) => (s, rs.length * 2 ^ 32))

/-- The state of a unit as HQRY writes it. -/
def unitWord (s : State) (u : UnitName) : Nat :=
  s.score u + (match s.unitState u with
    | .inService => 0
    | .draining => 1
    | .testing => 2
    | .retired => 3) * 2 ^ 16

/-- Every scored unit in HQRY's order. -/
def allUnits : List UnitName :=
  (List.range 768).map .core ++ (List.range 384).map .slice ++ (List.range 384).map .channel ++ (List.range 8).map .laneGroup

/-- HQRY (18 R460). -/
def monHqry (s : State) (arg : W64) : State × Nat :=
  if arg.toNat % 64 ≠ 0 then (s, 0x02)
  else match writeBlock s osReq arg.toNat (allUnits.flatMap (fun u => leBytes 4 (s.unitWord u))) with
    | (s, false) => (s, 0x03)
    | (s, true) => (s, 0)

/-! ## The table of requests (R43) -/

/-- A request by its code; an unlisted code is BADREQ. OSFATAL is not here: it stops the thread that issues it. -/
def request (s : State) (code : Nat) (arg : W64) : State × Nat :=
  match code with
  | 0x01 => s.monPcfg arg
  | 0x02 => s.monPrel arg
  | 0x03 => s.monPqry arg
  | 0x04 => s.monSpdmx arg
  | 0x05 => s.monPmap arg
  | 0x06 => s.monApset arg
  | 0x07 => s.monCpool arg
  | 0x08 => s.monCalset arg
  | 0x09 => s.monLpset arg
  | 0x0A => s.monQueue true arg
  | 0x0B => s.monPdbind arg
  | 0x0C => s.monBsset arg
  | 0x0D => s.monCrset arg
  | 0x0E => s.monQueue false arg
  | 0x0F => s.monCtset arg
  | 0x11 => s.monBbrd arg
  | 0x12 => s.monHqry arg
  | _ => (s, 0x02)

/-- The codes of R43 and the later chapters. -/
def listed (code : Nat) : Bool := decide (1 ≤ code) && decide (code ≤ 0x12)

/-- The value of a request in s0 of the thread that issued it. -/
def answer (a : Nat) (r : State × Nat) : State := r.1.modTeam a (fun t => t.setU 0 (BitVec.ofNat 64 r.2))

end State

/-! ## SYSCALL (15 R380, 16 R421) -/

/-- A team of a fixture parks and posts its call (15 R382). -/
def callOs (s : State) (c : Ctx) : Res :=
  if c.m ≠ (c.t.live &&& ~~~ c.t.exited &&& laneMask c.t.width) then c.trap s .sysdiv
  else
    let s := s.modTeam c.a (fun t => { t with run := .called, token := s.nextToken + 1 })
    { s := s.addPost (s.teamPost c.a .call .trap 0 0 c.pc), flow := .gone }

/-- A monitor request of a thread at L1 in world 2. OSFATAL stops the thread itself. -/
def callMonitor (s : State) (c : Ctx) : Res :=
  if c.t.ureg 0 = 0x10 then { s := s.osFatal, flow := .gone }
  else { s := State.answer c.a (s.request (c.t.ureg 0).toNat (c.t.ureg 1)) }

/-- SYSCALL (16 R421). -/
def execSyscall (a : SArgs) (s : State) : Host.Outcome State Fault Refusal :=
  issues (.syscall a) { ruleS a with banned := true, srcs := [(.s 0, 4)] } s (fun c => c.once s (fun _ =>
    if !isThread c.a then callOs s c else if s.osThread c.a then callMonitor s c else c.trap s .perm))

/-! ## Requests as events: one request of the current agent, a thread at L1 in world 2 -/

/-- The request takes effect and its value goes to s0 of the current thread. -/
def reqEvent (s : State) (f : State → State × Nat) : Host.Outcome State Fault Refusal :=
  .next (if s.osThread s.cur && s.board.power == .on then State.answer s.cur (f s) else s)

/-- The same for a request of one operation code of its block, at offset `o`. -/
def opcEvent (s : State) (arg : W64) (o opc : Nat) (f : State → State × Nat) : Host.Outcome State Fault Refusal :=
  match (readBlock s State.osReq arg.toNat 64).2 with
  | none => .next s
  | some b => if bfld b o 1 = opc then reqEvent s f else .next s

/-- PCFG (02 R41). -/
def execPcfg (arg : W64) (s : State) : Host.Outcome State Fault Refusal := reqEvent s (fun s => s.monPcfg arg)

/-- PREL (02 R43). -/
def execPrel (arg : W64) (s : State) : Host.Outcome State Fault Refusal := reqEvent s (fun s => s.monPrel arg)

/-- PQRY (02 R43). -/
def execPqry (arg : W64) (s : State) : Host.Outcome State Fault Refusal := reqEvent s (fun s => s.monPqry arg)

/-- SPDMX (02 R56). -/
def execSpdmx (arg : W64) (s : State) : Host.Outcome State Fault Refusal := reqEvent s (fun s => s.monSpdmx arg)

/-- PMAP with OPC 1 (03 R74). -/
def execPmapMap (arg : W64) (s : State) : Host.Outcome State Fault Refusal := opcEvent s arg 0 1 (fun s => s.monPmap arg)

/-- PMAP with OPC 2 (03 R74). -/
def execPmapUnmap (arg : W64) (s : State) : Host.Outcome State Fault Refusal := opcEvent s arg 0 2 (fun s => s.monPmap arg)

/-- PMAP with OPC 3 (03 R73). -/
def execPmapAddAlias (arg : W64) (s : State) : Host.Outcome State Fault Refusal := opcEvent s arg 0 3 (fun s => s.monPmap arg)

/-- PMAP with OPC 4 (03 R74). -/
def execPmapRemoveAlias (arg : W64) (s : State) : Host.Outcome State Fault Refusal := opcEvent s arg 0 4 (fun s => s.monPmap arg)

/-- APSET (03 R78). -/
def execApset (arg : W64) (s : State) : Host.Outcome State Fault Refusal := reqEvent s (fun s => s.monApset arg)

/-- CPOOL with OPC 1 (04 R91). -/
def execCpoolAdd (arg : W64) (s : State) : Host.Outcome State Fault Refusal := opcEvent s arg 1 1 (fun s => s.monCpool arg)

/-- CPOOL with OPC 2 (04 R91). -/
def execCpoolRemove (arg : W64) (s : State) : Host.Outcome State Fault Refusal := opcEvent s arg 1 2 (fun s => s.monCpool arg)

/-- CALSET with OPC 1 (05 R115). -/
def execCalsetArm (arg : W64) (s : State) : Host.Outcome State Fault Refusal := opcEvent s arg 1 1 (fun s => s.monCalset arg)

/-- CALSET with OPC 2 (05 R116). -/
def execCalsetDisarm (arg : W64) (s : State) : Host.Outcome State Fault Refusal := opcEvent s arg 1 2 (fun s => s.monCalset arg)

/-- LPSET (05 R122). -/
def execLpset (arg : W64) (s : State) : Host.Outcome State Fault Refusal := reqEvent s (fun s => s.monLpset arg)

/-- CQSET (15 R381). -/
def execCqset (arg : W64) (s : State) : Host.Outcome State Fault Refusal := reqEvent s (fun s => s.monQueue true arg)

/-- PDBIND with OPC 1 (15 R385). -/
def execPdbindBind (arg : W64) (s : State) : Host.Outcome State Fault Refusal := opcEvent s arg 1 1 (fun s => s.monPdbind arg)

/-- PDBIND with OPC 2 (15 R385). -/
def execPdbindUnbind (arg : W64) (s : State) : Host.Outcome State Fault Refusal := opcEvent s arg 1 2 (fun s => s.monPdbind arg)

/-- BSSET with OPC 1 (15 R391). -/
def execBssetCreate (arg : W64) (s : State) : Host.Outcome State Fault Refusal := opcEvent s arg 3 1 (fun s => s.monBsset arg)

/-- BSSET with OPC 2 (15 R391). -/
def execBssetDestroy (arg : W64) (s : State) : Host.Outcome State Fault Refusal := opcEvent s arg 3 2 (fun s => s.monBsset arg)

/-- CRSET (15 R396). -/
def execCrset (arg : W64) (s : State) : Host.Outcome State Fault Refusal := reqEvent s (fun s => s.monCrset arg)

/-- FQSET (16 R406). -/
def execFqset (arg : W64) (s : State) : Host.Outcome State Fault Refusal := reqEvent s (fun s => s.monQueue false arg)

/-- CTSET (16 R409). -/
def execCtset (arg : W64) (s : State) : Host.Outcome State Fault Refusal := reqEvent s (fun s => s.monCtset arg)

/-- OSFATAL (16 R419): the argument is ignored, and the issuing thread stops with the operating system. -/
def execOsfatal (_arg : W64) (s : State) : Host.Outcome State Fault Refusal :=
  .next (if s.osThread s.cur && s.board.power == .on then s.osFatal else s)

/-- BBRD (18 R457). -/
def execBbrd (arg : W64) (s : State) : Host.Outcome State Fault Refusal := reqEvent s (fun s => s.monBbrd arg)

/-- HQRY (18 R460). -/
def execHqry (arg : W64) (s : State) : Host.Outcome State Fault Refusal := reqEvent s (fun s => s.monHqry arg)

/-- A request whose code is not listed: BADREQ, and no effect (02 R43). -/
def execMonitorRequestUnknown (code _arg : W64) (s : State) : Host.Outcome State Fault Refusal :=
  if State.listed code.toNat then .next s else reqEvent s (fun s => (s, 0x02))

end Sys2Proof.Machine
end

