-- ==== Sys2Proof/Machine/Links.lean ====
section
/-! DEFINITION. What arrives from outside the cores: the walk batches (03 R80), the acknowledgements and failures of
off-package requests (14 R365, 15 R386), inbound PCIe requests and the state of the ports (15 R383-R387), the Burra link
(15 R390-R395), and the collective engines (15 R396-R398). -/
namespace Sys2Proof.Machine

/-- The policy of the firewall and its lock, which the monitor writes at boot (02 R38). -/
def Firewall.policy : Firewall :=
  { fwm := [(0, 0xFFFFFFFF#32), (1, 0xFFFFFFFF#32), (2, 0xFFFFFFF0#32), (3, 0x000000F0#32)] ++
      (List.range 12).map (fun k => (4 + k, 3#32 <<< (2 * (4 + k))))
    lock := true }

namespace State

/-- The module has power and runs. -/
def powered (s : State) : Bool := s.board.power == .on

/-- A change of the links' state. -/
def modLinks (s : State) (f : Links → Links) : State := { s with links := f s.links }

end State

/-! ## Walks (03 R80) -/

/-- WALK_BATCH_AGED (03 R80): a batch that has waited 65,536 cycles goes first. The order changes no value (log 6). -/
def execWalkBatchAged (batch : Nat) (s : State) : Host.Outcome State Fault Refusal :=
  let none_ : WalkBatch := { agent := 0, cluster := 0, use := .instr, pages := [], cycles := 0, aged := false }
  .next (match s.eng.walks.find? (fun x => x.1 == batch) with
    | none => s
    | some (_, w) =>
      if w.cycles + 65536000 ≤ s.mcycOf w.cluster then
        { s with eng := { s.eng with walks := tset none_ s.eng.walks batch { w with aged := true } } }
      else s)

/-! ## Acknowledgements and failures (14 R365, 15 R386) -/

namespace State

/-- The outstanding writes of every team that pass through an aperture of `p` fail: they are dropped, leave the counts and
are recorded, and the teams that waited for the counts look again. -/
def failWrites (s : State) (p : Nat → Nat → Bool) : State :=
  let bad := fun (x : Nat × Nat) => p (x.1 / 1024) (x.1 % 1024)
  let s := s.teams.foldl (fun (s : State) (y : Nat × Team) =>
    (y.2.uwc.filter bad).foldl (fun (s : State) x => s.dropWrite (s.req y.1) (x.1 % 1024) x.2) s) s
  ({ s with teams := tmap Team.idle (fun t => { t with uwc := t.uwc.filter (fun x => !bad x) }) s.teams } : State).stir

/-- The oldest outstanding write of an aperture fails; none when there is none. -/
def failOldest (s : State) (key : Nat) : Option State :=
  match s.teams.find? (fun y => y.2.uwc.any (fun x => x.1 == key)) with
  | none => none
  | some (a, t) =>
    match t.uwc.find? (fun x => x.1 == key) with
    | none => none
    | some x =>
      some ((s.dropWrite (s.req a) (key % 1024) x.2).modTeam a (fun t => { t with uwc := t.uwc.erase x })).stir

/-- The aperture's target, or 0. -/
def targetOf (s : State) (part entry : Nat) : Nat := (tget Aperture.none (s.part part).apert entry).target

end State

/-- UWC_ACK (14 R365): the acknowledgement of the agent's oldest outstanding write. -/
def execUwcAck (agent : Nat) (s : State) : Host.Outcome State Fault Refusal :=
  .next (if (s.team agent).uwc = [] then s
    else (s.modTeam agent (fun t => { t with uwc := t.uwc.tail })).stir)

/-- APERTURE_REQUEST_FAIL (15 R386): an outstanding write through the entry fails, or the next request through it will. -/
def execApertureRequestFail (part entry : Nat) (s : State) : Host.Outcome State Fault Refusal :=
  .next (if !s.powered || s.targetOf part entry == 0 then s
    else match s.failOldest (apKey part entry) with
      | some s => s
      | none => s.modLinks (fun l => { l with failNext := tset 0 l.failNext (apKey part entry) 1 }))

/-! ## Inbound PCIe requests (15 R383-R385) -/

namespace State

/-- An inbound request completes. -/
def complete_ (s : State) (c : Cpl) : State := s.modLinks (fun l => { l with cpl := c :: l.cpl })

/-- A posted write is dropped and counted against its function (02 R39). -/
def dropPosted (s : State) (port rid : Nat) (c : Cpl) : State :=
  (s.modLinks (fun l => { l with errs := tset 0 l.errs (ridKey port rid) (tget 0 l.errs (ridKey port rid) + 1) })).complete_ c

/-- The requester that a binding stands for (02 R36): world 2 for space 0. -/
def inboundReq (s : State) (b : Binding) : Req := engReq (s.enc b.eid).part b.eid

/-- A VF's BAR2 is 64 GiB; port D addresses the space directly. -/
def inBar (port va n : Nat) : Bool := port != 0 || decide (va + n ≤ 2 ^ 36)

/-- A binding admits a request of `n` bytes at `va`; no inbound request leads on to an aperture (log 33). -/
def inbound (s : State) (port rid va n : Nat) : Option (Req × Bool) :=
  match s.bindingOf port rid with
  | none => none
  | some b =>
    let r := s.inboundReq b
    if inBar port va n then some (r, !(s.apertOf r va).isSome && !(s.apertOf r (va + n - 1)).isSome && decide (va + n ≤ 2 ^ 57))
    else none

/-- A request to the PF's BAR0, the management registers of world 3 (15 R383, 02 R36): it is in the 4 MiB and the firewall
admits it. -/
def inPf (s : State) (va n : Nat) (k : Kind) : Bool := decide (va + n ≤ 2 ^ 22) && s.fwAdmits 3 3 k

/-- A refused request to the PF's BAR0 is recorded. -/
def pfRefused (s : State) (va : Nat) : State := s.log 0x01 0 3 0 0 (BitVec.ofNat 64 va)

/-- A read of the PF's BAR0: the spec gives no register of it, so the bytes are free (log 33). -/
def pfRead (s : State) (va n : Nat) : State :=
  if 2 ^ 22 < va + n then s.complete_ .unsupported
  else if !s.inPf va n .read then (s.pfRefused va).complete_ .completerAbort
  else (s.freeBytes n).2.complete_ (.data (s.freeBytes n).1)

/-- A write to the PF's BAR0: the spec gives no register that it changes (log 33). -/
def pfWrite (s : State) (va n : Nat) : State :=
  if 2 ^ 22 < va + n then s.dropPosted 0 0 .unsupported
  else if !s.inPf va n .write then (s.pfRefused va).dropPosted 0 0 .dropped
  else s.complete_ .ok

/-- An address range of a VF's BAR0: 1 MiB with the DOE mailbox and the MSI-X table (15 R383). -/
def inVf (port rid va n : Nat) : Bool := port == 0 && rid != 0 && decide (rid ≤ 12) && decide (va + n ≤ 2 ^ 20)

/-- A read of a VF's BAR0: the spec gives no register of it, so the bytes are free (log 33). -/
def vfRead (s : State) (port rid va n : Nat) : State :=
  if inVf port rid va n then (s.freeBytes n).2.complete_ (.data (s.freeBytes n).1) else s.complete_ .unsupported

/-- A write to a VF's BAR0 (log 33). -/
def vfWrite (s : State) (port rid va n : Nat) : State :=
  if inVf port rid va n then s.complete_ .ok else s.dropPosted port rid .unsupported

end State

/-- PCIE_INBOUND_READ (15 R383, R384). -/
def execPcieInboundRead (port rid : Nat) (target : PcieTarget) (len : Nat) (s : State) : Host.Outcome State Fault Refusal :=
  .next (if !s.powered then s
    else match target with
    | .lacking => s.complete_ .unsupported
    | .vfBar0 o => s.vfRead port rid o len
    | .dma va =>
      if port = 0 ∧ rid = 0 then s.pfRead va len
      else match s.inbound port rid va len with
        | none => s.complete_ .unsupported
        | some (r, ok) =>
          if !ok then s.complete_ .completerAbort
          else match readV s r .none .read (linesOf va len) with
            | (s, .ok bs) => s.complete_ (.data bs)
            | (s, .error _) => s.complete_ .completerAbort)

/-- PCIE_INBOUND_WRITE (15 R383, R384): a posted write that fails is dropped and counted (02 R39). -/
def execPcieInboundWrite (port rid : Nat) (target : PcieTarget) (data : List Byte) (s : State) :
    Host.Outcome State Fault Refusal :=
  .next (if !s.powered then s
    else match target with
    | .lacking => s.dropPosted port rid .unsupported
    | .vfBar0 o => s.vfWrite port rid o data.length
    | .dma va =>
      if port = 0 ∧ rid = 0 then s.pfWrite va data.length
      else match s.inbound port rid va data.length with
        | none => s.dropPosted port rid .unsupported
        | some (r, ok) =>
          if !ok then s.dropPosted port rid .dropped
          else match writeV s r .none .write none (linesOf va data.length) data with
            | (s, .ok _) => s.complete_ .ok
            | (s, .error _) => s.dropPosted port rid .dropped)

/-- The size, the route's view and the new bytes of an inbound AtomicOp; none for an unsupported size (R71). -/
def pcieAtom : PcieAtomic → Option (Nat × AtomOp × (List Byte → Option (List Byte)))
  | .fetchAdd n v =>
    if n = 4 ∨ n = 8 then some (n, .add, fun old => some (leBytes n ((leNat old + v) % 2 ^ (8 * n)))) else none
  | .swap n v => if n = 4 ∨ n = 8 then some (n, .swap, fun _ => some (leBytes n (v % 2 ^ (8 * n)))) else none
  | .cas n c v =>
    if n = 4 ∨ n = 8 ∨ n = 16 then
      some (n, .cas, fun old => if leNat old = c % 2 ^ (8 * n) then some (leBytes n (v % 2 ^ (8 * n))) else none)
    else none

/-- PCIE_INBOUND_ATOMIC (15 R383, R384): the page needs route bit 0 (03 R71). A size that PCIe lacks and a misaligned
operand are unsupported, and so is an atomic that does not go to memory (log 33). -/
def execPcieInboundAtomic (port rid : Nat) (target : PcieTarget) (op : PcieAtomic) (s : State) :
    Host.Outcome State Fault Refusal :=
  .next (if !s.powered then s
    else match target, pcieAtom op with
    | .dma va, some (n, kind, f) =>
      if port = 0 ∧ rid = 0 then s.complete_ .unsupported
      else match s.inbound port rid va n with
        | none => s.complete_ .unsupported
        | some (r, ok) =>
          if va % n ≠ 0 then s.complete_ .unsupported
          else if !ok then s.complete_ .completerAbort
          else match atomicV s r .none { op := kind, bytes := n, system := true } true [(va, n)] f with
            | (s, .ok old) => s.complete_ (.data old)
            | (s, .error _) => s.complete_ .completerAbort
    | _, _ => s.complete_ .unsupported)

/-! ## The state of the ports (15 R383, R385, R387) -/

namespace State

/-- The entries of the frames that the retired channels have taken: each the highest 2 GiB that its stack still had (18
R459). -/
def retiredIpt (us : List UnitName) : List (Nat × Ipt) :=
  (List.range 12).flatMap (fun st =>
    let n := (us.filter (fun u => match u with
      | .channel c => c / 32 == st
      | _ => false)).length
    (List.range (32768 * n)).map (fun j => ((st + 1) * 2 ^ 20 - 32768 * n + j, { Ipt.free with oworld := 1, valid := false })))

/-- A module that starts has the units that are retired for life retired: out of service, its frames withdrawn and its lane
groups out (18 R459). -/
def withRetired (s : State) : State :=
  let us := s.hold.retiredUnits
  let out := fun (t : List (Nat × Nat)) (u : UnitName) =>
    match u with
    | .laneGroup g => tset 0 t g 1
    | _ => t
  { s with
    mem := { s.mem with ipt := retiredIpt us }
    links := { s.links with group := us.foldl out [] }
    health := { s.health with st := us.foldl (fun t u => tset .inService t (unitKey u) .retired) [] } }

/-- Module reset with the rails up (22 R484): everything takes its reset value but the hold store (02 R60), the power
manager's measurements and the board's settings, and the monitor writes the firewall's policy again (02 R38). Units retired
for life stay retired (18 R459), and what the outside has set up of the module's mode stays. -/
def moduleReset (s : State) : State :=
  withRetired { State.reset with
    hold := s.hold
    board := { s.board with toWrite := [], lost := [], overAt := none, calmAt := none }
    health := { State.reset.health with saved := s.health.saved }
    links := { State.reset.links with attached := s.links.attached }
    fw := Firewall.policy
    agenda := s.agenda, cur := s.cur, free := s.free }

/-- A TDI leaves RUN: its binding is removed at once (15 R385). -/
def leaveRun (s : State) (port rid : Nat) : State :=
  (s.modLinks (fun l => { l with tdi := tset .configUnlocked l.tdi (ridKey port rid) .configUnlocked })).unbind port rid

/-- Every thread of the operating system that has a vector is notified (15 R387, R393; log 34). -/
def notifyOs (s : State) (k : Nat) : State :=
  (s.thr.filter (fun x => !x.2.monitor && x.2.vec.isSome)).foldl (fun (s : State) (x : Nat × Thread) => s.notify x.1 k) s

/-- The IDE streams of port U that `p` names lose their keys. -/
def unkey (s : State) (p : Nat → Bool) : State :=
  s.modLinks (fun l => { l with ide := l.ide.filter (fun x => !(decide (x.1 < 16) && p x.1)) })

/-- A write through an entry of port U on an IDE stream that `p` names. -/
def throughU (s : State) (p : Nat → Bool) (part entry : Nat) : Bool :=
  s.targetOf part entry == 1 && p (tget Aperture.none (s.part part).apert entry).stream

/-- The IDE streams of port U that the bindings of `f` carry. -/
def boundIde (s : State) (f : Nat → Bool) (k : Nat) : Bool :=
  s.links.bindings.any (fun b => b.port == 0 && f b.rid && b.ide == some k)

/-- The functions of port U that `f` names are reset: their outbound requests fail, their bindings end, their TDIs are
CONFIG_UNLOCKED and their streams unkeyed, and the operating system is notified. -/
def resetPortU (s : State) (f : Nat → Bool) (ide : Nat → Bool) : State :=
  let s := (s.failWrites (s.throughU ide)).unkey ide
  let s := s.modLinks (fun l => { l with
    bindings := l.bindings.filter (fun b => !(b.port == 0 && f b.rid))
    tdi := l.tdi.filter (fun x => !(decide (x.1 < 65536) && f x.1)) })
  s.notifyOs 2

end State

/-- PORT_U_HOT_RESET (15 R387). -/
def execPortUHotReset (s : State) : Host.Outcome State Fault Refusal :=
  .next (if !s.powered then s
    else if s.links.attached then s.moduleReset
    else s.resetPortU (fun _ => true) (fun _ => true))

/-- PORT_U_LINK_DOWN: in attached mode a module reset (15 R387); else the requests through the port fail (15 R386). -/
def execPortULinkDown (s : State) : Host.Outcome State Fault Refusal :=
  .next (if !s.powered then s
    else if s.links.attached then s.moduleReset
    else s.failWrites (s.throughU (fun _ => true)))

/-- VF_FLR (15 R387): the same for one VF and the stream of its binding. -/
def execVfFlr (vf : Nat) (s : State) : Host.Outcome State Fault Refusal :=
  .next (if !s.powered || vf == 0 || decide (12 < vf) then s
    else s.resetPortU (fun r => r == vf) (s.boundIde (fun r => r == vf)))

/-- TDI_LEAVE_RUN (15 R385). -/
def execTdiLeaveRun (port rid : Nat) (s : State) : Host.Outcome State Fault Refusal :=
  .next (if s.powered && tget Tdi.configUnlocked s.links.tdi (State.ridKey port rid) == .run then s.leaveRun port rid else s)

/-- TDISP_REQUEST (15 R383): lock, start and stop. A message that the state does not allow changes nothing. -/
def execTdispRequest (port rid : Nat) (req : TdispReq) (s : State) : Host.Outcome State Fault Refusal :=
  let k := State.ridKey port rid
  let set := fun (t : Tdi) => s.modLinks (fun l => { l with tdi := tset .configUnlocked l.tdi k t })
  .next (if !s.powered || decide (1 < port) || (port == 0 && (rid == 0 || decide (12 < rid))) then s
    else match req, tget Tdi.configUnlocked s.links.tdi k with
      | .lock, .configUnlocked => set .configLocked
      | .startIface, .configLocked => set .run
      | .stopIface, .run => s.leaveRun port rid
      | .stopIface, _ => set .configUnlocked
      | _, _ => s)

/-- IDE_KM_REQUEST (15 R383): a selective stream is keyed, or its keys end. -/
def execIdeKmRequest (port stream : Nat) (enable : Bool) (s : State) : Host.Outcome State Fault Refusal :=
  .next (if !s.powered || decide (1 < port) || decide ((if port = 0 then 15 else 7) < stream) then s
    else s.modLinks (fun l => { l with ide := tset false l.ide (port * 16 + stream) enable }))

/-! ## The Burra link (15 R390-R395) -/

namespace State

/-- A stream that is not absent and has not failed. -/
def streamUp (x : Stream) : Bool := x.st == .open || x.st == .rekey || x.st == .halted

/-- The stream fails (15 R393): its requests fail, FAILEV rises and the operating system is notified. -/
def failStream (s : State) (part k : Nat) : State :=
  let x := s.stream part k
  let s := s.setStream part k { x with st := .failed }
  let s := s.log 0x07 0 (4 + part) k x.eid (BitVec.ofNat 64 x.sid)
  let s := s.failWrites (fun p e =>
    p == part && s.targetOf p e == 3 && (tget Aperture.none (s.part p).apert e).stream == k)
  (s.addEvent part x.failev 1).notifyOs 3

/-- Every lane group has been out of service for 10 ms (15 R393). -/
def noGroups (s : State) : Bool := s.linkOut && (List.range 8).all (fun g => decide (tget 0 s.links.group g + 10000000 ≤ s.clk.now + 1))

/-- The CTR value has not been accepted before; one older than the window counts as a duplicate (15 R394). -/
def freshCtr (x : Stream) (ctr : Nat) : Bool := decide (x.highest ≤ ctr + 2 ^ 16) && !x.seen.contains ctr

/-- The stream has accepted a CTR value, and keeps those of the window. -/
def acceptCtr (x : Stream) (ctr : Nat) : Stream :=
  let h := max x.highest (ctr + 1)
  { x with highest := h, seen := (ctr :: x.seen).filter (fun c => decide (h ≤ c + 2 ^ 16)), authFails := 0 }

/-- The firewall refuses a request of a stream: the record names the stream, and its refusals are counted (02 R39). -/
def burraRefused (s : State) (part k pa : Nat) : State :=
  let key := 2 * 65536 + part * 256 + k
  (s.log 0x01 0 (4 + part) k (s.stream part k).eid (BitVec.ofNat 64 pa)).modLinks (fun l => { l with errs := tset 0 l.errs key (tget 0 l.errs key + 1) })

/-- The frame that a global address of this package leads to, with the firewall's answer (02 R37). -/
def burraFrame (s : State) (part st pa n : Nat) (k : Kind) : State × Option Ipt :=
  if n = 0 ∨ pa / 65536 ≠ (pa + n - 1) / 65536 ∨ hbmFrames ≤ pa / 65536 then (s, none)
  else
    let i := s.iptOf (pa / 65536)
    if !i.valid then (s, none)
    else if s.fwAdmits (4 + part) i.oworld k then (s, some i)
    else (s.burraRefused part st pa, none)

/-- A read of a stream. -/
def burraRead (s : State) (part st pa n : Nat) : State :=
  match s.burraFrame part st pa n .read with
  | (s, none) => s.complete_ .completerAbort
  | (s, some i) =>
    match readPlace s (engReq part 0) .none pa n (.at pa i) with
    | (s, .ok bs) => s.complete_ (.data bs)
    | (s, .error _) => s.complete_ .completerAbort

/-- A write of a stream. -/
def burraWrite (s : State) (part st pa : Nat) (data : List Byte) : State :=
  match s.burraFrame part st pa data.length .write with
  | (s, none) => s.complete_ .dropped
  | (s, some i) =>
    if i.attr = 2 && s.verFull pa then s.complete_ .dropped
    else ((writePlace s (engReq part 0) .none pa data (.at pa i)).1).complete_ .ok

/-- The size and the new bytes of an atomic of a stream; none for an operation that 12 R306 does not have. -/
def burraAtom : BurraAtom → Option (Nat × (List Byte → Option (List Byte)))
  | .arith mfn ty v =>
    if atomTy mfn ty then some (esOf ty, fun old => some (leBytes (esOf ty) (newVal mfn ty (leNat old) (v % 2 ^ (8 * esOf ty))))) else none
  | .cas n c v =>
    if n = 4 ∨ n = 8 ∨ n = 16 then
      some (n, fun old => if leNat old = c % 2 ^ (8 * n) then some (leBytes n (v % 2 ^ (8 * n))) else none)
    else none

/-- An atomic of a stream: the page needs route bit 0 (15 R395). -/
def burraAtomic (s : State) (part st pa : Nat) (op : BurraAtom) : State :=
  match burraAtom op with
  | none => s.complete_ .unsupported
  | some (n, f) =>
    if pa % n ≠ 0 then s.complete_ .unsupported
    else match s.burraFrame part st pa n .atomic with
      | (s, none) => s.complete_ .completerAbort
      | (s, some i) =>
        if !i.route.getLsbD 0 then s.complete_ .completerAbort
        else match readPlace s (engReq part 0) .none pa n (.at pa i) with
          | (s, .error _) => s.complete_ .completerAbort
          | (s, .ok old) =>
            match f old with
            | none => s.complete_ (.data old)
            | some new =>
              if i.attr = 2 && s.verFull pa then s.complete_ .completerAbort
              else ((writePlace s (engReq part 0) .none pa new (.at pa i)).1).complete_ (.data old)

/-- What an accepted access does. -/
def burraDo (s : State) (part st : Nat) : BurraAcc → State
  | .read pa n => s.burraRead part st pa n
  | .write pa data => s.burraWrite part st pa data
  | .atomic pa op => s.burraAtomic part st pa op

/-- The key of the releases of a stream: its enclave and the package at its other end (15 R394). -/
def relKey (x : Stream) : Nat := x.eid * 4096 + x.pkg

/-- A release is performed when its turn has come, which counts it (15 R394); until then it is as if it had not arrived. -/
def takeTurn (s : State) (x : Stream) : BurraReq → Option (State × BurraAcc)
  | .access a => some (s, a)
  | .release seq a =>
    if seq = tget 0 s.links.relsIn (relKey x) then
      some (s.modLinks (fun l => { l with relsIn := tset 0 l.relsIn (relKey x) (seq + 1) }), a)
    else none
  | .forged => none

end State

/-- BURRA_FLIT_RECEIVE (15 R390): a flit that fails its CRC is sent again, and the lane group is charged (18 R458). -/
def execBurraFlitReceive (group : Nat) (crcOk : Bool) (s : State) : Host.Outcome State Fault Refusal :=
  .next (if !s.powered || crcOk || decide (8 ≤ group) then s
    else (s.modLinks (fun l => { l with resent := l.resent + 1 })).charge (.laneGroup group) 4)

/-- BURRA_INBOUND_REQUEST (15 R393, R394). A discarded duplicate is acknowledged and does nothing. -/
def execBurraInboundRequest (part stream ctr : Nat) (req : BurraReq) (s : State) : Host.Outcome State Fault Refusal :=
  let x := s.stream part stream
  .next (if !s.powered || !State.streamUp x then s
    else if req = .forged then
      let s := s.setStream part stream { x with authFails := x.authFails + 1 }
      if 3 ≤ x.authFails + 1 then s.failStream part stream else s
    else if !State.freshCtr x ctr then (s.setStream part stream { x with authFails := 0 }).complete_ .ok
    else match s.takeTurn x req with
      | none => s
      | some (s, a) => (s.setStream part stream (State.acceptCtr x ctr)).burraDo part stream a)

/-- BURRA_LANE_GROUP_FAIL (15 R390). -/
def execBurraLaneGroupFail (group : Nat) (s : State) : Host.Outcome State Fault Refusal :=
  .next (if s.powered && decide (group < 8) then
      (s.dropGroup group).modLinks (fun l => { l with resent := l.resent + 1 })
    else s)

/-- BURRA_REKEY_REQUEST (15 R392): at 2^47 encryptions; sending continues. -/
def execBurraRekeyRequest (part stream : Nat) (s : State) : Host.Outcome State Fault Refusal :=
  let x := s.stream part stream
  .next (if s.powered && x.st == .open && decide (2 ^ 47 ≤ x.ctr) then s.setStream part stream { x with st := .rekey } else s)

/-- BURRA_SEND_STOP (15 R392): at 2^48 − 2^16 encryptions. -/
def execBurraSendStop (part stream : Nat) (s : State) : Host.Outcome State Fault Refusal :=
  let x := s.stream part stream
  .next (if s.powered && (x.st == .open || x.st == .rekey) && decide (2 ^ 48 - 2 ^ 16 ≤ x.ctr) then
      s.setStream part stream { x with st := .halted, haltAt := s.clk.now }
    else s)

/-- The re-keying deadline of a stream that has stopped is over (15 R392). -/
def State.keyLate (s : State) (x : Stream) : Bool := x.st == .halted && decide (x.haltAt + 10000000 ≤ s.clk.now)

/-- BURRA_KEY_INSTALLED (15 R392): CTR returns to 0 under the new key, and sending resumes. -/
def execBurraKeyInstalled (part stream : Nat) (s : State) : Host.Outcome State Fault Refusal :=
  let x := s.stream part stream
  .next (if s.powered && (x.st == .rekey || x.st == .halted) && !s.keyLate x then
      (({ s with free := s.free + 1 } : State).setStream part stream
        { x with st := .open, ctr := 0, haltAt := 0, highest := 0, seen := [], key := s.streamKey x.eid x.sid }).stir
    else s)

/-- BURRA_STREAM_FAIL (15 R393): no key within 10 ms of the stop, no lane group for 10 ms, or three failed authentications. -/
def execBurraStreamFail (part stream : Nat) (s : State) : Host.Outcome State Fault Refusal :=
  let x := s.stream part stream
  .next (if s.powered && State.streamUp x &&
        (s.keyLate x || s.noGroups || decide (3 ≤ x.authFails)) then
      s.failStream part stream
    else s)

/-! ## Collective engines (15 R396-R398) -/

/-- A collective's descriptor within its limits (R397). -/
structure CollDesc where
  op   : Nat
  ty   : Ty
  nmem : Nat
  rank : Nat
  count : Nat
  src  : Nat
  dst  : Nat
  memb : Nat

/-- The element types of a collective. -/
def collTy (code : Nat) : Option Ty :=
  match Ty.ofCode code with
  | some t => if t = .f32 ∨ t = .bf16 ∨ t = .i32 ∨ t = .w32 then some t else none
  | none => none

/-- The descriptor when no limit is broken. -/
def collDesc (b : List Byte) : Option CollDesc :=
  match (if bfld b 1 1 < 32 then collTy (bfld b 1 1) else none) with
  | none => none
  | some t =>
    let d : CollDesc := { op := bfld b 0 1, ty := t, nmem := bfld b 2 1, rank := bfld b 3 1, count := bfld b 8 8,
                          src := bfld b 0x10 8, dst := bfld b 0x18 8, memb := bfld b 0x28 8 }
    if d.op ≤ 2 ∧ 2 ≤ d.nmem ∧ d.nmem ≤ 64 ∧ d.rank < d.nmem ∧ 1 ≤ d.count ∧ d.count ≤ 2 ^ 32 ∧ zeroIn b 4 4 ∧ zeroIn b 0x30 80 ∧
       bfld b 0x20 8 % 32 = 0
    then some d else none

/-- Elements of the source and of the destination (R397). -/
def CollDesc.srcN (d : CollDesc) : Nat := if d.op = 2 then d.count else d.nmem * d.count
def CollDesc.dstN (d : CollDesc) : Nat := if d.op = 1 then d.count else d.nmem * d.count

/-- A running sum and the flags it has raised. -/
structure CollSum where
  v  : Nat
  fl : W32

/-- A source element as the sum takes it: bf16 is widened to f32 exactly. -/
def collElem (t : Ty) (p : Nat) : CollSum :=
  match t with
  | .f32 => { v := (fsrc .f32 false false false p).pat, fl := (fsrc .f32 false false false p).fl }
  | .bf16 => { v := (fsrc .bf16 false false false p).pat * 65536, fl := (fsrc .bf16 false false false p).fl }
  | _ => { v := p, fl := 0 }

/-- One addition (R398): f32 with RNE and no flush, or a sum that wraps. -/
def collAdd (t : Ty) (a b : CollSum) : CollSum :=
  match t with
  | .f32 | .bf16 =>
    let o := rnd .f32 .exact (addX .rne (Ty.val .f32 a.v) (Ty.val .f32 b.v))
    { v := o.pat, fl := a.fl ||| b.fl ||| o.fl }
  | _ => { v := (a.v + b.v) % 2 ^ 32, fl := 0 }

/-- The reduction of one element over the members in rank order (R398); bf16 is rounded once at the end. -/
def collReduce (t : Ty) : List Nat → CollSum
  | [] => { v := 0, fl := 0 }
  | p :: ps =>
    let r := ps.foldl (fun acc q => collAdd t acc (collElem t q)) (collElem t p)
    match t with
    | .bf16 =>
      let o := rnd .bf16 .exact (Ty.val .f32 r.v).toX
      { v := o.pat, fl := r.fl ||| o.fl }
    | _ => r

/-- Read the lines of a collective's source or index list in order: what was read before an error counts (R320). -/
def collRead (r : Req) : State → List (Nat × Nat) → List Byte → State × List Byte × MoveEnd
  | s, [], acc => (s, acc, .ok)
  | s, x :: t, acc =>
    match readV s r .none .read [x] with
    | (s, .ok bs) => collRead r s t (acc ++ bs)
    | (s, .error b) => (s, acc, moveEnd b)

/-- Write the lines of its destination in order, with the bytes written. -/
def collWrite (r : Req) : State → List (Nat × Nat) → List Byte → Nat → State × Nat × MoveEnd
  | s, [], _, n => (s, n, .ok)
  | s, x :: t, bs, n =>
    match writeV s r .none .write none [x] (bs.take x.2) with
    | (s, .ok _) => collWrite r s t (bs.drop x.2) (n + x.2)
    | (s, .error b) => (s, n, moveEnd b)

/-- The status of an error; a collective posts no notice, so that a page fault is FAULT (16 R405; log 35). None waits. -/
def collStatus : MoveEnd → Option (BitVec 8)
  | .ok => some stOK
  | .stop st => some st
  | .page _ => some stFault
  | .full _ => some stTagexh
  | .busy => none

/-- The members' streams (R391, R397): BADREQ for one that the enclave does not have, UE for a failed one, none while one
has stopped or the link is out. -/
def collStreams (s : State) (part eid : Nat) : List Nat → Option (BitVec 8)
  | [] => some stOK
  | k :: t =>
    let x := s.stream part k
    if 255 < k ∨ x.st = .absent ∨ x.eid ≠ eid then some stBadreq
    else match x.st with
      | .failed => some stUe
      | .halted => none
      | _ => if s.linkOut then none else collStreams s part eid t

/-- Each member's stream carries the exchange. -/
def collSend (s : State) (part : Nat) (ks : List Nat) : State :=
  ks.foldl (fun (s : State) k => s.setStream part k ((s.stream part k).sent s.clk.now)) s

/-- What the collective moved and how it ended. -/
structure CollEnd where
  s   : State
  st  : BitVec 8
  inn : Nat := 0
  out : Nat := 0
  fl  : W32 := 0

/-- The destination's elements. `own j` is element j of this member's source, and `peer r j` that of member r: free values. -/
def collOut (d : CollDesc) (own : Nat → Nat) (peer : Nat → Nat → Nat) : List CollSum :=
  let at_ := fun (r j : Nat) => if r = d.rank then own j else peer r j
  (List.range d.dstN).map (fun j =>
    match d.op with
    | 2 => { v := at_ (j / d.count) (j % d.count), fl := 0 }
    | 1 => collReduce d.ty ((List.range d.nmem).map (fun r => at_ r (d.rank * d.count + j)))
    | _ => collReduce d.ty ((List.range d.nmem).map (fun r => at_ r j)))

/-- A collective with a good descriptor; none while it must wait. -/
def collRun (s : State) (part eid : Nat) (d : CollDesc) : Option CollEnd :=
  let r := engReq part eid
  let es := esOf d.ty
  match collRead r s (linesOf d.memb (2 * d.nmem)) [] with
  | (s, mb, .ok) =>
    let ks := ((List.range d.nmem).filter (fun k => k != d.rank)).map (fun k => bfld mb (2 * k) 2)
    match collStreams s part eid ks with
    | none => none
    | some st =>
      if st ≠ stOK then some { s := s, st := st }
      else if (Config.freeWord s.free).getLsbD 0 then some { s := { s with free := s.free + 1 }, st := stBadreq }
      else
        match collRead r s (linesOf d.src (es * d.srcN)) [] with
        | (s, bs, .ok) =>
          let base := s.free + 1
          let outs := collOut d (fun j => leNat ((bs.drop (es * j)).take es))
            (fun m j => leNat ((List.range es).map (fun i => Config.freeByte (base + m) (es * j + i))))
          let s := collSend { s with free := base + d.nmem } part ks
          let (s, n, e) := collWrite r s (linesOf d.dst (es * d.dstN)) (outs.flatMap (fun x => leBytes es x.v)) 0
          (collStatus e).map (fun st =>
            { s := s, st := st, inn := bs.length, out := n, fl := outs.foldl (fun f x => f ||| x.fl) 0 })
        | (s, bs, e) => (collStatus e).map (fun st => { s := s, st := st, inn := bs.length })
  | (s, _, e) => (collStatus e).map (fun st => { s := s, st := st })

namespace State

/-- The oldest operation of a ring, when no earlier collective of its owner is outstanding. A descriptor that no team has
posted, since something else has raised the doorbell counter, has an owner that is nobody's. -/
def collHead (s : State) (ring : Nat) : Option CollOp :=
  match s.eng.collOps.find? (fun o => o.ring == ring) with
  | none => some { id := s.eng.nextOp, owner := slotKey (s.ringAt ring).eid 0xFFFF, ring := ring, seq := 0 }
  | some o => if s.eng.collOps.any (fun x => x.owner == o.owner && decide (x.id < o.id)) then none else some o

/-- Its owner has been terminated, or its enclave is dying (R398, 12 R313). -/
def collCancelled (s : State) (o : CollOp) : Bool :=
  (s.enc (s.ringAt o.ring).eid).st == .dying ||
  (!isThread o.owner && decide (o.owner < 2 ^ 64) && (s.crew (crewNo o.owner)).done)

/-- The head of a ring retires: its completion word is written when its descriptor was read, the ring has consumed one
descriptor, and the owner's counter falls (R397, R398, 12 R320). -/
def collRetire (s : State) (o : CollOp) (desc : Option (List Byte)) (e : CollEnd) : State :=
  let ring := s.ringAt o.ring
  let part := o.ring / 4096
  let s := e.s
  let s := match desc with
    | none => s
    | some b =>
      let r := { engReq part ring.eid with dep := (s.enc ring.eid).st == EncState.dying }
      let va := bfld b 0x20 8
      let word := copyWord { st := e.st, inn := e.inn, out := e.out, fl := 0, dfl := 0 }
      let bad := s.log 0x09 0 r.world 0 ring.eid (BitVec.ofNat 64 va)
      if va % 32 ≠ 0 then bad
      else match writeBlock s r va word with
        | (s, true) => s
        | (s, false) => s.log 0x09 0 r.world 0 ring.eid (BitVec.ofNat 64 va)
  let s := s.setRing o.ring { s.ringAt o.ring with consumed := ring.consumed + 1 }
  let s : State := { s with eng := { s.eng with collOps := s.eng.collOps.filter (fun x => x.id != o.id) } }
  s.modOwn o.owner (fun t => (t.cntDown .coll s.clk.now (s.mcyc o.owner)).raise e.fl 0)

/-- The descriptor that a ring's next collective has, or the error of its read; one that stops with CANCEL is read in an
enclave that is dying too, since its completion word is still written (16 R425). -/
def collRead_ (s : State) (o : CollOp) : State × Except MoveEnd (List Byte) :=
  let ring := s.ringAt o.ring
  match collRead { engReq (o.ring / 4096) ring.eid with dep := (s.enc ring.eid).st == .dying } s (linesOf (ring.base + 128 * (ring.consumed % 64)) 128) [] with
  | (s, bs, .ok) => (s, .ok bs)
  | (s, _, e) => (s, .error e)

/-- The head of a ring stops with CANCEL. -/
def collCancel (s : State) (o : CollOp) : State :=
  match s.collRead_ o with
  | (s', .ok b) => s'.collRetire o (some b) { s := s', st := stCancel }
  | (s', .error _) => s'.collRetire o none { s := s', st := stCancel }

end State

/-- COLLECTIVE_RETIRE (R396-R398): the head of a ring retires when its doorbell counter is above what the ring has consumed.
COLMAX 0 answers BADREQ, and otherwise a bound engine runs it (05 R123). A dying enclave's ring with nothing posted makes no
access (16 R425). -/
def execCollectiveRetire (ring : Nat) (s : State) : Host.Outcome State Fault Refusal :=
  .next (match s.collHead ring with
    | none => s
    | some o =>
      let part := ring / 4096
      let x := s.ringAt ring
      if !s.powered || x.eid == 0 || ((s.enc x.eid).st == .dying && !s.eng.collOps.any (fun y => y.ring == ring)) then s
      else if s.collCancelled o then s.collCancel o
      else if (s.event part x.doorb).toNat ≤ x.consumed then s
      else
        let none_ := ((s.part part).cfg.map (fun c => c.colMax)).getD 0 == 0
        if !none_ && s.boundTo true part == 0 then s
        else match s.collRead_ o with
          | (s', .error e) =>
            match collStatus e with
            | none => s
            | some st => s'.collRetire o none { s := s', st := st }
          | (s', .ok b) =>
            match (if none_ then none else collDesc b) with
            | none => s'.collRetire o (some b) { s := s', st := stBadreq }
            | some d =>
              let r := engReq part x.eid
              if !s.engineOpen r then s'.collRetire o (some b) { s := s'.fwBlock r .write d.src, st := stFirewall }
              else match collRun s' part x.eid d with
              | none => s
              | some e => s'.collRetire o (some b) e)

end Sys2Proof.Machine
end

