-- ==== Sys2Proof/Machine/Health.lean ====
section
/-! DEFINITION. The firewall's registers (02 R37, R38), corrected errors, unit tests and score halving (18 R458, R459), the
time base (05 R113), and the power manager's limits and clocks (22 R480, R481, R485). -/
namespace Sys2Proof.Machine

/-! ## The firewall's registers (02 R37, R38) -/

namespace State

/-- A world may write the matrix and its lock: the monitor (R38), and any world that the matrix admits to targets of
world 1. -/
def mayWriteFw (s : State) (world : Nat) : Bool := world == 1 || s.fwAdmits world 1 .write

/-- A write that the lock or the firewall keeps from the registers is recorded. -/
def fwRefused (s : State) (world index : Nat) : State := s.log 0x01 0 world 0 0 (BitVec.ofNat 64 index)

end State

/-- FWM_WRITE (02 R38). -/
def execFwmWrite (world index : Nat) (value : W32) (s : State) : Host.Outcome State Fault Refusal :=
  .next (if !s.powered || decide (15 < index) then s
    else if s.fw.lock || !s.mayWriteFw world then s.fwRefused world index
    else { s with fw := { s.fw with fwm := tset 0 s.fw.fwm index value } })

/-- FWLOCK_WRITE (02 R37): bit 0 set locks until module reset. -/
def execFwlockWrite (world : Nat) (value : W32) (s : State) : Host.Outcome State Fault Refusal :=
  .next (if !s.powered then s
    else if s.fw.lock || !s.mayWriteFw world then s.fwRefused world 16
    else { s with fw := { s.fw with lock := value.getLsbD 0 } })

/-! ## Scores and tests (18 R458, R459) -/

/-- A unit that the module has. -/
def unitExists : UnitName → Bool
  | .core n => decide (n < 768)
  | .slice n => decide (n < 384)
  | .channel n => decide (n < 384)
  | .laneGroup n => decide (n < 8)

/-- CORRECTED_ERROR (R458). -/
def execCorrectedError (u : UnitName) (s : State) : Host.Outcome State Fault Refusal :=
  .next (if s.powered && unitExists u then
      (s.log 0x08 (State.unitCode u).1 0xFF (State.unitCode u).2 0 0).charge u 1
    else s)

/-- SCORE_HALVING (R458): every 24 h of the time base. -/
def execScoreHalving (s : State) : Host.Outcome State Fault Refusal :=
  .next (if s.powered && decide (s.clk.halved + 86400 * 10 ^ 9 ≤ s.clk.ptp) then
      { s with
        health := { s.health with score := tmap 0 (fun n => n / 2) s.health.score }
        clk := { s.clk with halved := s.clk.halved + 86400 * 10 ^ 9 } }
    else s)

namespace State

/-- The units of an entry's reservation: the cores of each squad, or each core. -/
def chunks (n : Nat) : Nat → List Nat → List (List Nat)
  | 0, _ => []
  | _, [] => []
  | f + 1, l => l.take n :: chunks n f (l.drop n)

/-- Each unit that named the core gives its place to the next of the new ones. -/
def refill (n core : Nat) : List (List Nat) → List Nat → List Nat
  | [], _ => []
  | u :: us, new => if u.contains core then new.take n ++ refill n core us (new.drop n) else u ++ refill n core us new

/-- A calendar entry's reservation leaves a core: its units there are placed elsewhere, or the entry is disarmed (R459). -/
def moveEntry (s : State) (p k core : Nat) : State :=
  let e := tget CalEntry.idle (s.part p).cal k
  if !e.armed || !e.cores.contains core then s
  else
    let n := max e.rsquad 1
    let us := chunks n e.cores.length e.cores
    let keep := us.filter (fun u => !u.contains core)
    let put := fun (s : State) (cs : List Nat) => s.modPart p (fun x => { x with cal := tset CalEntry.idle x.cal k { e with cores := cs } })
    let s1 := put s keep.flatten
    let avail := ((s1.coresIn p).filter (fun c => c != core)).map (fun c => (c, (s1.cap p c).sub (s1.calResv p c)))
    match planUnits e.claim e.rsquad (us.length - keep.length) avail with
    | none => s.disarm p k
    | some new => put s (refill n core us new)

/-- A core is drained: its crews are evicted and its reservations move (R459, 16 R413). -/
def drainCore (s : State) (core : Nat) : State :=
  let s := ((s.crews.filter (fun x => x.2.core == some core && !x.2.done)).map (·.1)).foldl evict s
  s.parts.foldl (fun (s : State) (x : Nat × Part) =>
    (x.2.cal.map (·.1)).foldl (fun (s : State) k => s.moveEntry x.1 k core) s) s

/-- A retired core leaves every CORES mask. -/
def retireCore (s : State) (core : Nat) : State :=
  { s with parts := tmap Part.none (fun p => { p with cfg := p.cfg.map (fun c =>
      { c with cores := c.cores &&& ~~~ (1#768 <<< core) }) }) s.parts }

/-- A frame number after frame `f` has moved to frame `g`. -/
def movedTo (f g n : Nat) : Nat := if n = f then g else n

/-- The links of a chain after frame `f` has moved to frame `g`. -/
def Link.moved (f g : Nat) (l : Link) : Link := { l with pfn := movedTo f g l.pfn }

/-- The links of a mapping slot after a move. -/
def MapSlot.moved (f g : Nat) (m : MapSlot) : MapSlot := { m with next := m.next.map (Link.moved f g) }

/-- The links of an entry after a move. -/
def Ipt.moved (f g : Nat) (i : Ipt) : Ipt :=
  { i with m0 := MapSlot.moved f g i.m0, m1 := MapSlot.moved f g i.m1, m2 := MapSlot.moved f g i.m2, m3 := MapSlot.moved f g i.m3 }

/-- The lines among `ks` of frame `f`, at frame `g`. -/
def movedLines (f g : Nat) (ks : List Nat) : List Nat := (ks.filter (fun k => k / 1024 == f)).map (fun k => k % 1024 + g * 1024)

/-- The monitor moves a frame, after every translation of it is invalidated and its lines have left the caches (03 R81): its
bytes with their errors, its counters, which the write of an ATTR 2 frame raises with their ancestors (03 R76), its entry, and
every place that names it. -/
def moveFrame (s : State) (f g : Nat) : State :=
  let s := ((s.purgeMaps f).purgeMaps g).dropLinesAt (f * 65536) 65536
  let i := s.iptOf f
  let bad := movedLines f g s.mem.badLine
  let macs := movedLines f g s.mem.badMac
  let ver := (s.mem.ver.filter (fun x => x.1 / 256 == f)).map (fun x => (x.1 % 256 + g * 256, x.2))
  let s := (((s.copyRange (f * 65536) (g * 65536) 65536).zeroRange (f * 65536) 65536).freshVer f).freshVer g
  let s := (s.setIpt f (Ipt.home f)).setIpt g i
  let s := (fun (s : State) => if i.attr = 2 then s.bump (g * 65536) 65536 else s)
    { s with mem := { s.mem with ver := tsets 0 s.mem.ver ver } }
  { s with
    mem := { s.mem with
      ipt := iptMap (Ipt.moved f g) s.mem.ipt
      anchor := tmap none (fun x => x.map (Link.moved f g)) s.mem.anchor
      cells := s.mem.cells.map (fun c => { c with frame := movedTo f g c.frame,
                                                  slot := movedTo f g (c.slot / 65536) * 65536 + c.slot % 65536 })
      badLine := s.mem.badLine ++ bad
      badMac := s.mem.badMac ++ macs }
    parts := tmap Part.none (fun p => { p with pool := p.pool.map (movedTo f g) }) s.parts
    crews := tmap Crew.none (fun c => { c with frames := c.frames.map (movedTo f g) }) s.crews }

/-- The frames of a stack's highest 2 GiB below those that other retired channels of it have taken. -/
def topFrames (s : State) (stack : Nat) : List Nat :=
  let gone := (s.hold.retiredUnits.filter (fun u => match u with
    | .channel n => n / 32 == stack
    | _ => false)).length
  (List.range 32768).map (fun j => (stack + 1) * 2 ^ 20 - 32768 * (gone + 1) + j)

/-- A frame holds something. -/
def frameUsed (s : State) (f : Nat) : Bool := s.iptOf f != Ipt.home f || (cellsIn s.mem.hbm (f * 65536) 65536) != []

/-- A frame outside `top` that what `top` holds may move to. -/
def spare (s : State) (top : List Nat) (g : Nat) : Bool := !top.contains g && s.freeFrame g && !s.frameUsed g

/-- The frames of a stack. -/
def stackFrames (st : Nat) : List Nat := (List.range (2 ^ 20)).map (fun j => st * 2 ^ 20 + j)

/-- A frame that must stay in its stack: cells lie in the stack of their base frame (04 R92). -/
def keepsStack (s : State) (f : Nat) : Bool := (s.iptOf f).tagged || s.parts.any (fun x => x.2.pool.contains f)

/-- The enclave whose save area a frame is in. -/
def areaOf (s : State) (f : Nat) : Option (Nat × Enclave) :=
  s.encl.find? (fun x => decide (x.2.savepa / 65536 ≤ f) && decide (f < x.2.savepa / 65536 + x.2.savefr))

/-- A save area moves as a whole: its frames are consecutive (16 R414). -/
def moveArea (s : State) (top : List Nat) (e : Nat) : State :=
  let b := (s.enc e).savepa / 65536
  let n := (s.enc e).savefr
  match (List.range hbmFrames).find? (fun g => (List.range n).all (fun j => s.spare top (g + j))) with
  | none => s
  | some g => ((List.range n).foldl (fun (s : State) j => s.moveFrame (b + j) (g + j)) s).modEnc e (fun x => { x with savepa := g * 65536 })

/-- What a frame holds moves to the lowest unused frame of its stack, or of the module; a frame that must stay in its stack
takes the place of one that need not (log 36). -/
def emptyFrame (s : State) (top : List Nat) (f : Nat) : State :=
  match s.areaOf f with
  | some x => s.moveArea top x.1
  | none =>
    match (stackFrames (f / 2 ^ 20)).find? (s.spare top) with
    | some g => s.moveFrame f g
    | none =>
      match (List.range hbmFrames).find? (s.spare top) with
      | none => s
      | some g =>
        if !s.keepsStack f then s.moveFrame f g
        else match (stackFrames (f / 2 ^ 20)).find? (fun h =>
            !top.contains h && !monFrame h && (s.iptOf h).valid && !s.keepsStack h && (s.areaOf h).isNone) with
          | none => s
          | some h => (s.moveFrame h g).moveFrame f h

/-- One frame is withdrawn, after what it holds has moved: no frame of any world but the monitor's, and not valid (03 R69). -/
def withdraw (top : List Nat) (s : State) (f : Nat) : State :=
  let s := if s.frameUsed f then s.emptyFrame top f else s
  s.setIpt f { s.iptOf f with oworld := 1, valid := false }

/-- What the retirement of a unit takes from the module (R459). -/
def unitGone (s : State) : UnitName → State
  | .core n => s.retireCore n
  | .slice n => { s with caches := { s.caches with msc := s.caches.msc.filter (fun x => x.1 / 8192 != n) } }
  | .channel n => (s.topFrames (n / 32)).foldl (withdraw (s.topFrames (n / 32))) s
  | .laneGroup n => s.dropGroup n

/-- A unit that passed: it returns to service with score 64, a lane group with it. -/
def unitPass (s : State) (u : UnitName) : State :=
  let s := (s.setUnitState u .inService).setScore u 64
  let s := s.log 0x0B (unitCode u).1 0xFF (unitCode u).2 0 0
  match u with
  | .laneGroup g => (s.modLinks (fun l => { l with group := tset 0 l.group g 0 })).stir
  | _ => s

/-- A unit that failed is retired for the module's life. -/
def unitFail (s : State) (u : UnitName) : State :=
  let s := (s.unitGone u).setUnitState u .retired
  let s := s.log 0x0C (unitCode u).1 0xFF (unitCode u).2 0 0
  { s with hold := { s.hold with retiredUnits := s.hold.retiredUnits ++ [u] } }

/-- What leaves a unit before its test: a core's crews and reservations, a slice's lines. -/
def drain (s : State) : UnitName → State
  | .core n => s.drainCore n
  | .slice n => { s with caches := { s.caches with msc := s.caches.msc.filter (fun x => x.1 / 8192 != n) } }
  | _ => s

/-- Each unit that drains is drained, and its test begins (R459). -/
def startTests (s : State) : State :=
  if s.board.power == .on && s.health.st.any (fun x => x.2 == .draining) then
    (allUnits.filter (fun u => s.unitState u == .draining)).foldl (fun (s : State) u => (s.drain u).setUnitState u .testing) s
  else s

/-- A step of power-up fails: every rail but VSPX is off, and the event is recorded (22 R478). The table of 18 R456 has no type
for it; which of its types it has is free (log 43). -/
def railFail (s : State) : State :=
  ({ s with board := { s.board with power := .failed, bankReady := false }, free := s.free + 1 } : State).log
    ((Config.freeWord s.free).toNat % 15 + 1) 0 0 0 0 0

/-- Time passes: the tests that are due begin, and a bank that is not at 80 V 3 s after power-up fails the sequence (22
R478). -/
def passTime (s : State) (ns : Nat) : State :=
  let s := s.startTests.elapse ns
  if s.board.power == .charging && decide (3 * 10 ^ 9 < s.clk.now) then s.railFail else s

end State

/-- UNIT_TEST_COMPLETE (R459): the drain of a unit that reached score 256 is over, and its test has ended. -/
def execUnitTestComplete (u : UnitName) (passed : Bool) (s : State) : Host.Outcome State Fault Refusal :=
  .next (if !s.powered || !unitExists u || !(s.unitState u == .draining || s.unitState u == .testing) then s
    else
      let s := s.drain u
      if passed then s.unitPass u else s.unitFail u)

/-! ## Data that can no longer be corrected (16 R407, 03 R77) -/

/-- A list with one more entry. -/
def withMark (ks : List Nat) (k : Nat) : List Nat := if ks.contains k then ks else ks ++ [k]

/-- The data of a place can no longer be corrected, or a remote side will refuse an atomic (15 R395). -/
def State.upset (s : State) : Upset → State
  | .line pa => { s with mem := { s.mem with badLine := withMark s.mem.badLine (pa / 64) } }
  | .mac pa => { s with mem := { s.mem with badMac := withMark s.mem.badMac (pa / 64) } }
  | .node k => { s with mem := { s.mem with badNode := withMark s.mem.badNode k } }
  | .store die line => { s with mem := { s.mem with badWs := withMark s.mem.badWs (die * 2 ^ 21 + line) } }
  | .reg a k => s.modTeam a (fun t => { t with badV := withMark t.badV k })
  | .uni a k => s.modTeam a (fun t => { t with badU := withMark t.badU k })
  | .idx a k => s.modTeam a (fun t => { t with badX := withMark t.badX k })
  | .pred a k => s.modTeam a (fun t => { t with badP := withMark t.badP k })
  | .slot a k => s.modTeam a (fun t => { t with badR := withMark t.badR k })
  | .special a k => s.modTeam a (fun t => { t with badSr := withMark t.badSr k })
  | .word n k => s.modCrew n (fun c => { c with badSp := withMark c.badSp k })
  | .elem n k => s.modCrew n (fun c => { c with badBank := withMark c.badBank k })
  | .plane n false => s.modCrew n (fun c => { c with act := { c.act with bad := true } })
  | .plane n true => s.modCrew n (fun c => { c with shd := { c.shd with bad := true } })
  | .refuse p e => s.modLinks (fun l => { l with failNext := tset 0 l.failNext (apKey p e) 2 })
  | .item n => { s with hold := { s.hold with restorable := s.hold.restorable.map (fun i => if i.seq = n ∧ i.st = 1 then { i with bad := true } else i) } }

/-! ## The time base (05 R113) -/

/-- Discipline sets the rate of the time base: a free value of at most 100 ppm either way. -/
def State.discipline (s : State) : State :=
  { s with
    clk := { s.clk with ptpRate := ((Config.freeWord s.free).toNat % 200001 : Nat) - 100000, holdover := false }
    free := s.free + 1 }

/-- PTP_TIMESTAMP (R113): the master's time sets the rate by a law that the spec does not give. -/
def execPtpTimestamp (_master : Nat) (s : State) : Host.Outcome State Fault Refusal :=
  .next (if s.powered then s.discipline else s)

/-- PPS_PULSE (R113). -/
def execPpsPulse (s : State) : Host.Outcome State Fault Refusal :=
  .next (if s.powered then s.discipline else s)

/-- TIME_STEP (R113): at once, or when no calendar entry is armed any more. -/
def execTimeStep (target : Nat) (s : State) : Host.Outcome State Fault Refusal :=
  .next (if s.powered then ({ s with clk := { s.clk with step := some target } } : State).tryStep else s)

/-- SYNC_LOSS (R113): the time base runs on from the module oscillator. -/
def execSyncLoss (s : State) : Host.Outcome State Fault Refusal :=
  .next (if s.powered then { s with clk := { s.clk with holdover := true, ptpRate := 0 } } else s)

/-! ## The power manager (22 R480, R481, R485) -/

/-- A cluster's clock in MHz, kept between 1,650 and 3,300. -/
def State.setMhz (s : State) (cl n : Nat) : State :=
  { s with clk := { s.clk with mhz := tset 3300 s.clk.mhz cl (max 1650 (min 3300 n)) } }

/-- What the power manager measures from time `now` on: package power in watts and the hottest die in degrees. The power is
above PLIM from the first of the measurements on that show it so, and both conditions are clear from the first that shows
neither (R481, log 43). -/
def Board.measured (b : Board) (now power temp : Nat) : Board :=
  { b with
    pkgPower := power, dieTemp := temp
    overAt := if b.plim < power then some (b.overAt.getD now) else none
    calmAt := if b.plim < power ∨ 105 < temp then none else some (b.calmAt.getD now) }

/-- A measurement now. -/
def State.measured (s : State) (power temp : Nat) : State := { s with board := s.board.measured s.clk.now power temp }

/-- A throttle condition holds: the power has been above PLIM for 100 µs, or a die is above 105 °C (R481). -/
def State.tooHot (s : State) : Bool := s.board.overAt.any (fun t => decide (t + 100000 ≤ s.clk.now)) || decide (105 < s.board.dieTemp)

/-- Both conditions have been clear for 1 ms (R481). -/
def State.coolLong (s : State) : Bool := s.board.calmAt.any (fun t => decide (t + 1000000 ≤ s.clk.now))

/-- THROTTLE_DOWN (R481). -/
def execThrottleDown (cluster power temp : Nat) (s : State) : Host.Outcome State Fault Refusal :=
  .next (if !s.powered || decide (3 < cluster) then s
    else
      let s := s.measured power temp
      if s.tooHot then s.setMhz cluster (s.mhzOf cluster - 100) else s)

/-- THROTTLE_UP (R481). -/
def execThrottleUp (cluster power temp : Nat) (s : State) : Host.Outcome State Fault Refusal :=
  .next (if !s.powered || decide (3 < cluster) then s
    else
      let s := s.measured power temp
      if s.coolLong then s.setMhz cluster (s.mhzOf cluster + 100) else s)

/-- BANK_LOW (R480): the bank is no longer at 80 V, and the alert bit is set. A cell may fail in the hold-up sequence too
(20 R470). -/
def execBankLow (s : State) : Host.Outcome State Fault Refusal :=
  .next (if s.board.power == .on || s.board.power == .quiesce || s.board.power == .saving then { s with board := { s.board with bankReady := false, bankLow := true, bankDown := true } } else s)

/-- MODSTAT_WRITE (R485): a 1 clears THERMTRIP and BANKLOW; every other bit is ignored. -/
def execModstatWrite (value : W32) (s : State) : Host.Outcome State Fault Refusal :=
  .next (if s.board.power == .off then s
    else { s with board := { s.board with
      thermTrip := s.board.thermTrip && !value.getLsbD 4, bankLow := s.board.bankLow && !value.getLsbD 5 } })

/-- PLIM_WRITE (R481): a limit outside 1,500 W to 4,000 W is ignored (log 43). The last measurement is held to the new one. -/
def execPlimWrite (watts : Nat) (s : State) : Host.Outcome State Fault Refusal :=
  .next (if s.board.power == .off || decide (watts < 1500) || decide (4000 < watts) then s
    else { s with board := ({ s.board with plim := watts } : Board).measured s.clk.now s.board.pkgPower s.board.dieTemp })

/-- MODSTAT as SMBus reads it (R485); an unpowered module does not answer (R486). -/
def State.modstat (s : State) : Option W32 :=
  let on := s.board.power == .on || s.board.power == .quiesce || s.board.power == .saving
  if s.board.power == .off then none
  else some <| BitVec.ofNat 32 (bit on + 2 * bit s.board.bankReady + 4 * bit (s.board.power == .quiesce || s.board.power == .saving) +
    8 * bit ((List.range 4).any (fun k => decide (s.mhzOf k < 3300))) + 16 * bit s.board.thermTrip + 32 * bit s.board.bankLow +
    256 * s.board.reserve.toNat)

/-- ALERT_N is low (22 R484). -/
def State.alert (s : State) : Bool := s.board.thermTrip || s.board.bankLow

end Sys2Proof.Machine
end

