-- ==== Sys2Proof/Machine/Lanes.lean ====
section
/-! DEFINITION. The cross-lane instructions (09 R256-R260): contributors, segments, and the values that receivers get. -/
namespace Sys2Proof.Machine

/-- Lanes of a segment (R256). -/
def segSize (seg : Nat) : Nat := if seg = 0 then 1024 else 2 ^ seg

/-- The first lane of lane `l`'s segment. -/
def segBase (seg l : Nat) : Nat := l / segSize seg * segSize seg

/-- The contributors with their values of A: the lanes of T whose source reads raise no trap (R256). -/
def Ctx.contributors (c : Ctx) (wide : Bool) (srcs : List (Operand × Bool)) (a : Operand) : List (Nat × W64) :=
  c.ls.filterMap (fun l =>
    if srcs.all (fun o => (c.t.rdData l o.2 o.1).isOk) then ((c.t.rdData l wide a).toOption).map (fun v => (l, v))
    else none)

/-- The value that a contributor supplies. -/
def lookupLane (cs : List (Nat × W64)) (l : Nat) : Option W64 := (cs.find? (fun x => x.1 == l)).map (·.2)

/-- The source lane of SHFL, or none outside the segment (R257). -/
def shflSource (mode seg l : Nat) (b : W32) : Option Nat :=
  let z := segSize seg
  let i := l % z
  let k : Int := match mode with
    | 0 => b.toNat
    | 1 => ((i + b.toNat) % z : Nat)
    | 2 => i + b.toInt
    | _ => ((i ^^^ b.toNat) : Nat)
  if 0 ≤ k ∧ k < z then some (segBase seg l + k.toNat) else none

/-- SHFL (R257). -/
def execShfl (a : RArgs) (s : State) : Host.Outcome State Fault Refusal :=
  issues (.shfl a) (ruleR a (nReg a.ty) 1 1) s (fun c =>
    let cs := c.contributors a.ty.wide [(a.b, false)] a.a
    c.perLane s a.d a.ty.wide (fun l => do
      let _ ← c.t.rdData l a.ty.wide a.a
      let b ← c.t.rd32 l a.b
      let v := (shflSource (fnBits a.fn 0 2) (fnBits a.fn 2 4) l b).bind (lookupLane cs)
      .ok { val := v.getD 0, pw := [(fnBits a.fn 6 4, v.isSome)] }))

/-- The combination of exact values by OP, before the final step (R258). -/
def combine (op : Nat) (ty : Ty) (xs : List Int) : Int :=
  match op with
  | 0 => xs.sum
  | 1 => xs.foldl min (Ty.maxI ty)
  | 2 => xs.foldl max (Ty.minI ty)
  | 3 => ((xs.foldl (fun (r : Nat) x => r &&& wrapI x ty.bits) (2 ^ ty.bits - 1) : Nat) : Int)
  | 4 => ((xs.foldl (fun (r : Nat) x => r ||| wrapI x ty.bits) 0 : Nat) : Int)
  | 5 => ((xs.foldl (fun (r : Nat) x => r ^^^ wrapI x ty.bits) 0 : Nat) : Int)
  | _ => xs.prod

/-- The combination as a lane's result. -/
def combineRes (a : RArgs) (xs : List (Nat × W64)) : LaneRes :=
  intRes a.ty a.sat (combine (fnBits a.fn 0 3) a.ty (xs.map (fun x => Ty.intVal a.ty x.2.toNat)))

/-- REDUX with a uniform destination: one result over every contributor; a lane whose read traps is recorded for
itself, and an enabled flag traps every other lane of T (R236, R258). -/
def reduxUni (c : Ctx) (s : State) (a : RArgs) (cs : List (Nat × W64)) : Res :=
  let bad : Traps := c.ls.filterMap (fun l => match c.t.rdData l a.ty.wide a.a with | .error x => some (l, x) | .ok _ => none)
  let o := combineRes a cs
  let t := c.t.raise o.fl o.dfl
  if o.fl &&& c.t.ten ≠ 0 then c.done s (t, bad ++ cs.map (fun x => (x.1, Cause.fpx)))
  else c.done s (t.putUni a.ty.wide a.d o.val, bad)

/-- REDUX (R258): a uniform D is written when a lane of T is enabled, with the identity when none contributes. -/
def execRedux (a : RArgs) (s : State) : Host.Outcome State Fault Refusal :=
  issues (.redux a) (ruleR a (nReg a.ty) 1 1) s (fun c =>
    let cs := c.contributors a.ty.wide [] a.a
    let seg := fnBits a.fn 3 4
    if a.d.isUni then (if c.all = 0 then c.done s (c.t, []) else reduxUni c s a cs)
    else c.perLane s a.d a.ty.wide (fun l => do
      let _ ← c.t.rdData l a.ty.wide a.a
      .ok (combineRes a (cs.filter (fun x => segBase seg x.1 == segBase seg l)))))

/-- SCAN (R259). -/
def execScan (a : RArgs) (s : State) : Host.Outcome State Fault Refusal :=
  issues (.scan a) (ruleR a (nReg a.ty) 1 1) s (fun c =>
    let cs := c.contributors a.ty.wide [] a.a
    let seg := fnBits a.fn 3 4
    let excl := fnBits a.fn 7 1 == 1
    c.perLane s a.d a.ty.wide (fun l => do
      let _ ← c.t.rdData l a.ty.wide a.a
      .ok (combineRes a (cs.filter (fun x => segBase seg x.1 == segBase seg l && (decide (x.1 < l) || (!excl && x.1 == l)))))))

/-- What MATCH writes for the lanes `q` of Q(l) (R260). -/
def matchVal (mode wsel l : Nat) (q : List Nat) : Nat :=
  match mode with
  | 0 => (maskWord (maskOf q) (l / 32)).toNat
  | 1 => (maskWord (maskOf q) wsel).toNat
  | 2 => q.length
  | _ => q.headD 0

/-- MATCH (R260). Its result is one 32-bit register whatever TYPE is, w64 included (DESIGN CHOICE, log 79). -/
def execMatch (a : RArgs) (s : State) : Host.Outcome State Fault Refusal :=
  issues (.matchLanes a) (ruleR a (nReg a.ty) 1 1) s (fun c =>
    let cs := c.contributors a.ty.wide [] a.a
    let seg := fnBits a.fn 11 4
    c.perLane s a.d false (fun l => do
      let v ← c.t.rdData l a.ty.wide a.a
      let q := (cs.filter (fun x => segBase seg x.1 == segBase seg l && x.2 == v)).map (·.1)
      .ok { val := BitVec.ofNat 64 (matchVal (fnBits a.fn 0 2) (fnBits a.fn 2 5) l q),
            pw := [(fnBits a.fn 7 4, q.headD l == l)] }))

end Sys2Proof.Machine
end

