-- ==== Sys2Proof/Machine/Protect.lean ====
section
/-! DEFINITION. The protected form of what leaves the chip or outlives the power: the lines of an HBM frame with their MACs and
counter nodes (03 R75, R76), the flits of the Burra link (15 R392), and the records of the hold store (17 R435, R436). `Mem` and
`Hold` keep the plaintext, which is what every agent of the module sees; log 8 lists what the spec leaves open here. -/
namespace Sys2Proof.Machine

/-- AES-256-GMAC of a text. -/
def gmac (key : BitVec 256) (iv bs : List Byte) : List Byte := gcmTag key iv bs []

/-! ## HBM (03 R75, R76) -/

/-- K1 and K2 of a memory key. -/
def keyOne (k : BitVec 512) : BitVec 256 := k.extractLsb' 256 256
def keyTwo (k : BitVec 512) : BitVec 256 := k.extractLsb' 0 256

/-- PA[51:6]. -/
def lineNo (pa : Nat) : Nat := pa / 64 % 2 ^ 46

/-- The keystream of a line of an ATTR 2 frame. -/
def lineStream (k : BitVec 512) (pa : Nat) (v : BitVec 56) : List Byte :=
  (List.range 4).flatMap (fun j => aesBytes (keyOne k) (leBytes 16 (lineNo pa * 2 ^ 58 + v.toNat * 4 + j)))

/-- The 64 bytes that the HBM holds of a line. -/
def lineStored (k : BitVec 512) (attr : BitVec 2) (pa : Nat) (v : BitVec 56) (data : List Byte) : List Byte :=
  if attr = 1 then xtsEncrypt (keyOne k) (keyTwo k) (lineNo pa) data
  else if attr = 2 then xorBytes data (lineStream k pa v)
  else data

/-- The MAC of a line of an ATTR 2 frame: the high 64 bits of the GMAC. Its IV is V as 12 bytes (DESIGN CHOICE: 03 R75 gives
none; log 74). -/
def lineMac (k : BitVec 512) (pa : Nat) (v : BitVec 56) (ct : List Byte) : List Byte :=
  (gmac (keyTwo k) (leBytes 12 v.toNat) (leBytes 77 (leNat ct + v.toNat * 2 ^ 512 + lineNo pa * 2 ^ 568))).take 8

/-- The MAC of a counter node, bound to its parent counter: a GMAC whose IV is the parent counter, over it and the eight
counters, lowest byte first (DESIGN CHOICE: 03 R76 gives neither algorithm nor IV nor byte order; log 74). -/
def nodeMac (k : BitVec 512) (parent : BitVec 56) (cs : List (BitVec 56)) : List Byte :=
  (gmac (keyTwo k) (leBytes 12 parent.toNat) (leBytes 7 parent.toNat ++ cs.flatMap (fun c => leBytes 7 c.toNat))).take 8

namespace State

/-- The entry that protects a physical address: that of the base frame for a cell slot (04 R98). -/
def lineIpt (s : State) (pa : Nat) : Ipt :=
  match s.mem.cells.find? (fun c => c.slot == pa / 4096 * 4096) with
  | some c => s.iptOf c.frame
  | none => s.iptOf (pa / 65536)

/-- The version counter of a line. -/
def lineVer (s : State) (pa : Nat) : BitVec 56 := tget 0 s.mem.ver (pa / 256)

/-- The line of a physical address as the HBM holds it. -/
def dramLine (s : State) (pa : Nat) : List Byte :=
  let i := s.lineIpt pa
  lineStored (s.enc i.owner).memKey i.attr pa (s.lineVer pa) (s.bytes (pa / 64 * 64) 64)

/-- Its sideband MAC; none outside ATTR 2. -/
def dramMac (s : State) (pa : Nat) : List Byte :=
  let i := s.lineIpt pa
  if i.attr = 2 then lineMac (s.enc i.owner).memKey pa (s.lineVer pa) (s.dramLine pa) else []

/-- The counters of node `i` of level `k` of a channel's tree; level 0 holds those of eight groups. -/
def nodeCounters (s : State) (ch k i : Nat) : List (BitVec 56) :=
  (List.range 8).map (fun j =>
    if k = 0 then tget 0 s.mem.ver (ch / 32 * 2 ^ 28 + (8 * i + j) * 32 + ch % 32)
    else tget 0 s.mem.anc (nodeKey ch k (8 * i + j)))

/-- A counter node of 64 bytes under an enclave's memory key. -/
def nodeStored (s : State) (key : BitVec 512) (ch k i : Nat) : List Byte :=
  let cs := s.nodeCounters ch k i
  cs.flatMap (fun c => leBytes 7 c.toNat) ++ nodeMac key (tget 0 s.mem.anc (nodeKey ch (k + 1) i)) cs

end State

/-! ## The Burra link (15 R392) -/

/-- The payload of a request as it is sent, with its tag: AES-256-GCM with IV cat(SID, CTR). -/
def OutWrite.flit (o : OutWrite) : List Byte :=
  let iv := leBytes 12 (o.sid * 2 ^ 48 + o.ctr)
  let ct := gcmCrypt o.key iv (o.bytes.map (·.2))
  ct ++ gcmTag o.key iv [] ct

/-! ## The hold store (17 R435, R436) -/

/-- Bytes of Sphinx's region and of each area. -/
def sphinxBytes : Nat := 64 * 2 ^ 20
def areaBytes : Nat := 8160 * 2 ^ 20

/-- Where an area begins. -/
def areaBase (k : Nat) : Nat := sphinxBytes + areaBytes * k

/-- The IV of an item: cat(GEN, SEQ). -/
def itemIv (gen : W64) (seq : Nat) : List Byte := leBytes 12 (gen.toNat * 2 ^ 32 + seq)

/-- The header of an item record. -/
def SavedItem.header (i : SavedItem) (gen : W64) : List Byte :=
  leBytes 4 4 ++ leBytes 4 i.key.toNat ++ leBytes 8 i.len ++ leBytes 8 gen.toNat ++ leBytes 4 i.seq ++ leBytes 1 (bit i.openProf) ++
    leBytes 3 0 ++ leBytes 48 i.meas.toNat ++ leBytes 48 0

/-- The plaintext of an item. -/
def SavedItem.plain (i : SavedItem) : List Byte := (List.range i.len).map (tget 0 i.bytes)

/-- The ciphertext of an item, under the sealing key of its measurement and profile (02 R46), and its tag. -/
def SavedItem.sealed (i : SavedItem) (gen : W64) : List Byte × List Byte :=
  let k := sealKeyOf i.openProf i.meas
  let ct := gcmCrypt k (itemIv gen i.seq) i.plain
  (ct, gcmTag k (itemIv gen i.seq) (i.header gen) ct)

/-- The commit record of an item with tag `gtag`. -/
def SavedItem.commit (i : SavedItem) (gen : W64) (gtag : List Byte) : List Byte :=
  let b := leBytes 4 5 ++ leBytes 4 i.key.toNat ++ leBytes 8 gen.toNat ++ leBytes 4 i.seq ++ leBytes 4 0 ++ leBytes 8 i.len ++ gtag
  b ++ gmac Config.holdKey (itemIv gen i.seq) b

/-- The record of an item: LEN + 208 bytes. -/
def SavedItem.record (i : SavedItem) (gen : W64) : List Byte :=
  let (ct, tag) := i.sealed gen
  i.header gen ++ ct ++ tag ++ i.commit gen tag

/-- A record of an item of `len` bytes is whole (17 R437): its commit record's MAC verifies, GTAG is the stored tag, and the tag
verifies over the ciphertext. -/
def recordWhole (key : BitVec 256) (gen : W64) (seq len : Nat) (b : List Byte) : Bool :=
  let c := slice b (144 + len) 64
  gmac Config.holdKey (itemIv gen seq) (slice c 0 0x30) == slice c 0x30 16 && slice c 0x20 16 == slice b (128 + len) 16 &&
    gcmTag key (itemIv gen seq) (slice b 0 128) (slice b 128 len) == slice b (128 + len) 16

/-- An enclave's keys, sealed to the device identity and its measurement. -/
def sealedKeys (gen : W64) (eid : Nat) (e : Enclave) : List Byte :=
  let k := BitVec.ofNat 256 (leNat (hkdf384 Config.deviceSecret (asciiBytes "TLT-KEYS" ++ leBytes 48 e.meas.toNat) 32))
  sealObj k (gen.toNat * 2 ^ 32 + eid) [] (leBytes 64 e.memKey.toNat ++ leBytes 32 e.saveKey.toNat ++ leBytes 32 e.sealKey.toNat)

/-- The commit record of an enclave's part of the metadata. -/
def MetaPart.commitOf (m : MetaPart) (gen : W64) : List Byte :=
  gmac Config.holdKey (itemIv gen m.eid) (leBytes 2 m.eid ++ leBytes 48 m.meas.toNat ++ leBytes 1 (bit m.openProf) ++
    m.items.flatMap (fun i => leBytes 8 i.va ++ leBytes 8 i.len ++ leBytes 4 i.key.toNat ++ leBytes 2 i.tag.toNat) ++
    m.fixtures.flatMap (fun f => leBytes 4 f.toNat) ++ m.keys)

/-- The generation commit: GEN, the number of items written, and the MAC. -/
def genCommit (gen : W64) (count : Nat) : List Byte :=
  let b := leBytes 8 gen.toNat ++ leBytes 4 count
  b ++ gmac Config.holdKey (itemIv gen (2 ^ 32 - 1)) b

end Sys2Proof.Machine
end

