-- ==== Sys2Proof/Machine/Power.lean ====
section
/-! DEFINITION. Power-up and the report source, module reset, the hold-up sequence, its handlers and its save (17 R428-R439,
22 R478-R484). -/
namespace Sys2Proof.Machine

namespace State

/-! ## Power off and power-up (17 R437, R438, 22 R478-R480) -/

/-- Every rail is off: only the hold store is left, and THERMTRIP stands until the next power-up (22 R483). -/
def powerOff (s : State) : State :=
  { State.reset with
    board := { State.reset.board with thermTrip := s.board.thermTrip }
    hold := s.hold, links := { State.reset.links with attached := s.links.attached }
    agenda := s.agenda, cur := s.cur, free := s.free }

/-- capacity(E) of R480, with E in millijoules, in bytes. -/
def capacityOf (mj : Nat) : Nat :=
  if 60000 ≤ mj then 6 * 2 ^ 30 else if mj ≤ 30000 then 0 else 96 * (mj - 30000) / 30000 * 2 ^ 26

/-- The report source: the generation with the highest GEN whose header and metadata are whole (R437). -/
def reportSource (h : Hold) : Option Gen :=
  match h.cur, h.newest with
  | none, g => g
  | g, none => g
  | some a, some b => if b.gen < a.gen then some a else some b

/-- Sphinx reads the report source. What was reloaded or discarded of the same source before stays gone (R438). -/
def readHold (h : Hold) : Hold :=
  match reportSource h with
  | none => h
  | some g =>
    if g.gen = h.srcGen then h
    else { h with restorable := g.items, srcGen := g.gen, srcCommitted := g.committed, lost := g.lost }

/-- Sphinx starts: the saved ring can be read and the live ring goes on behind it (18 R456); the units that are retired for
life are so (18 R459). -/
def sphinxStart (s : State) : State :=
  let src := reportSource s.hold
  withRetired { s.powerOff with
    board := State.reset.board, hold := readHold s.hold
    health := { State.reset.health with
      bb := s.health.bb, bbSeq := max s.health.bbSeq ((src.map (fun g => g.bbSeq)).getD 0), saved := (src.map (fun g => g.bb)).getD [] } }

end State

/-- POWER_UP (R478) with the bank's energy in millijoules: an image that does not verify (02 R59) or a rail out of limits
stops the sequence with the event recorded, and VSPX alone is up. -/
def execPowerUp (energy : Nat) (imagesOk railsOk : Bool) (s : State) : Host.Outcome State Fault Refusal :=
  .next (if s.board.power != .off then s
    else
      let s := s.sphinxStart
      if !imagesOk then ({ s with board := { s.board with power := .failed } } : State).log 0x02 0 0 0 0 0
      else if !railsOk then s.railFail
      else { s with board := { s.board with
        power := .charging, capacity := State.capacityOf energy, reserve := BitVec.ofNat 8 (min 255 (energy / 1000)) } })

/-- BANK_CHARGED (R478, R480): PWRGD is asserted and the monitor starts, which writes the firewall's policy and locks it
before any world from 2 to 15 issues (02 R38). A bank that is not charged 3 s after power-up fails the sequence, and one that
had dropped is at 80 V again (log 43). -/
def execBankCharged (s : State) : Host.Outcome State Fault Refusal :=
  .next (match s.board.power with
    | .charging =>
      if s.clk.now ≤ 3 * 10 ^ 9 then
        { s with board := { s.board with power := .on, bankReady := true }, fw := Firewall.policy }
      else s.railFail
    | .on => { s with board := { s.board with bankReady := true } }
    | _ => s)

/-- RESET_N (R484): module reset without hold-up. -/
def execResetN (s : State) : Host.Outcome State Fault Refusal :=
  .next (if s.powered then s.moduleReset else s)

/-! ## t0 (17 R431, R439) -/

namespace State

/-- Every copy-class operation stops with CANCEL (R431). -/
def cancelCopies (s : State) : State :=
  s.eng.copyOps.foldl (fun (s : State) o =>
    let e : CopyEnd := match o.fin with
      | some e => { e with st := stCancel }
      | none => o.endAt stCancel
    let s := copyFinish (wsldClear s o stCancel) { o with cancel := true, token := none } e
    if s.eng.copyOps.any (fun x => x.id == o.id) then s.dropCopy o e else s) s

/-- A tile-class operation stops with CANCEL: a fill's tile is EMPTY, a drain's READY, and the multicast tiles that are
FILLING are EMPTY (R431, 12 R316, R317). -/
def cancelTile (s : State) (o : TileOp) : State :=
  let n := crewNo o.agent
  let s := match o.kind with
    | .fill => s.endTile n o.tile .empty stCancel
    | .drain => s.endTile n o.tile .ready stCancel
    | .mcast => s.mcastFail o stCancel
  s.dropTileOp o

/-- Every collective that has been posted stops with CANCEL. -/
def cancelColls (s : State) : State := s.eng.collOps.foldl collCancel s

/-- Outstanding and pending matrix operations are discarded without effect (13 R346). -/
def dropMatrix (s : State) : State :=
  let s : State := { s with crews := tmap Crew.none (fun c => { c with mops := [] }) s.crews }
  { s with teams := tmap Team.idle (fun t => { t with cnt := { t.cnt with matrix := 0 } }) s.teams }

/-- The engines at t0. -/
def stopEngines (s : State) : State := ((s.eng.tileOps.foldl cancelTile s.cancelCopies).cancelColls).dropMatrix

/-- A control thread stops at its boundary; one inside an enclave leaves it first (R431). -/
def stopThreadPf (s : State) (a : Nat) : State :=
  let s := if (s.thread a).eid ≠ 0 then s.stepOut a else s.pauseTeam a
  s.modTeam a (fun t => if t.run == .stopped then t else { t with run := .pfStopped, waiting := none })

/-- A team of a fixture with a power-fail handler that has not ended. -/
def pfTeam (s : State) (a : Nat) : Bool :=
  !isThread a && (s.crew (crewNo a)).core.isSome && !(s.crew (crewNo a)).done &&
  (s.fixture (s.fxOf a)).desc.pfHnd && !Team.over (s.team a)

/-- A resident team stops at its boundary; without a handler it issues nothing more (R431, R432). -/
def stopTeamPf (s : State) (a : Nat) : State :=
  let s := s.pauseTeam a
  if s.pfTeam a || Team.over (s.team a) then s else s.pfStop a

/-- The agents of a crew. -/
def crewAgents (s : State) (n : Nat) : List Nat := (List.range (s.crew n).nteams).map (agentOf n)

/-- Every agent stops. -/
def stopAgents (s : State) : State :=
  let s := (List.range 128).foldl stopThreadPf s
  ((s.crews.filter (fun x => !x.2.done && x.2.core.isSome)).flatMap (fun x => s.crewAgents x.1)).foldl stopTeamPf s

/-- The indices of the crews that have neither retired nor failed. -/
def openCrews (s : State) (fx : Nat) : List Nat :=
  let f := s.fixture fx
  ((s.crews.filter (fun x => x.2.fx == fx && !x.2.done)).map (fun x => x.2.index)) ++
    (List.range (f.ncrews - f.next)).map (fun j => f.next + j)

/-- A fixture as R439 reports it: its open crews fail with POWER; EXSUM merges the teams that have ended, those of terminated
crews that have not retired among them (08 R233), and the dead lanes of every team count. -/
def lostFixture (s : State) (fx : Nat) : Fixture :=
  let f := s.fixture fx
  let ts := (s.crews.filter (fun x => x.2.fx == fx)).flatMap (fun x =>
    (List.range x.2.nteams).map (fun k => (x.2.index, k, s.team (agentOf x.1 k))))
  { f with
    fails := (s.openCrews fx).foldl (fun t i => tset { reason := 0, detail := 0 } t i { reason := 0x07, detail := 0 }) f.fails
    doneCount := f.ncrews, next := f.ncrews
    sum := (ts.filter (fun x => x.2.2.run == .ended)).foldl (fun m x => Summary.merge m x.2.2.sum) f.sum
    deadLanes := ts.foldl (fun d x => addDead d x.1 x.2.1 x.2.2) f.deadLanes }

/-- The records of the fixtures in flight: those of enclaves that are not dying (18 R455). -/
def lostAt (s : State) : List Lost :=
  ((s.fixtures.filter (fun x => !x.2.retired && (s.enc x.2.eid).st == .sealed)).map (·.1)).map (fun fx =>
    let f := s.lostFixture fx
    { meas := (s.enc f.eid).meas, openProf := (s.enc f.eid).openProf, compl := f.desc.compl, fx := f, tend := s.clk.ptp })

/-- t0: the records are taken, the clock drops, the bank feeds the module and is no longer at 80 V (R428, 22 R485), the engines and every agent stop, and the generation number rises. -/
def holdUp (s : State) : State :=
  let lost := s.lostAt
  let s := (List.range 4).foldl (fun (s : State) k => s.setMhz k 1650) s
  let s := s.stopEngines.stopAgents
  { s with
    board := { s.board with power := .quiesce, bankReady := false, t0 := s.clk.now, t0ptp := s.clk.ptp, lost := lost }
    hold := { s.hold with gen := s.hold.gen + 1 } }

/-- An event that starts the hold-up sequence; before PWRGD it switches every rail off, VSPX too (22 R479). A running sequence goes on
to power-off (R429). -/
def powerFail (s : State) : State :=
  match s.board.power with
  | .on => s.holdUp
  | .off | .failed | .charging => s.powerOff
  | _ => s

end State

/-- POWER_FAIL (R429, 22 R479). -/
def execPowerFail (s : State) : Host.Outcome State Fault Refusal := .next s.powerFail

/-- THERMAL_TRIP (22 R483): a trip during the sequence, or with every rail off, has no further effect. -/
def execThermalTrip (_die : Nat) (s : State) : Host.Outcome State Fault Refusal :=
  .next (match s.board.power with
    | .quiesce | .saving | .off => s
    | _ => ({ s with board := { s.board with thermTrip := true } } : State).powerFail)

/-! ## Power-fail handlers (R432-R434) -/

/-- enter_pfhandler(pc) (R432). A team in which no lane is left issues nothing. -/
def State.enterPf (s : State) (a : Nat) : State :=
  let t := s.team a
  let pfh := (s.fixture (s.fxOf a)).desc.pfh
  let t := { ((t.setTrap 0 t.pc 0x40).goto (BitVec.ofNat 64 pfh)) with
    active := t.live &&& ~~~ t.exited &&& laneMask t.width, stack := [], frame := { t.frame with inh := true, rpm := 0 }
    run := .pfHandler, pfAt := s.clk.now }
  let s := s.setTeam a t
  if t.active = 0 then s.pfStop a else s

/-- The team has not yet entered its handler. -/
def State.pfDue (s : State) (a : Nat) : Bool :=
  s.pfTeam a && (s.team a).run != .pfHandler && (s.team a).run != .pfStopped

/-- PF_HANDLER_ENTRY (R432). -/
def execPfHandlerEntry (agent : Nat) (s : State) : Host.Outcome State Fault Refusal :=
  .next (if s.board.power == .quiesce && s.pfDue agent && decide (s.clk.now < s.board.t0 + 100000) then s.enterPf agent else s)

/-- PF_HANDLER_BUDGET (R433, R434). -/
def execPfHandlerBudget (agent : Nat) (s : State) : Host.Outcome State Fault Refusal :=
  .next (if (s.team agent).run == .pfHandler && s.pfOver agent then s.pfStop agent else s)

/-! ## Quiesce, save and power-off (R430, R435-R437) -/

namespace State

/-- No handler runs or is still to be entered. -/
def handlersOver (s : State) : Bool :=
  s.teams.all (fun x => (x.2.run != .pfHandler || s.pfOver x.1) && !(s.pfDue x.1 && decide (s.clk.now < s.board.t0 + 100000)))

/-- The 128-byte lines of 4 KiB at a physical address that cannot be read (03 R77, 16 R407). -/
def lostLines (s : State) (pa : Nat) (i : Ipt) : List Nat := (List.range 32).filter (fun j => !s.goodLines (pa + 128 * j) 128 i)

/-- The bytes of 4 KiB at a physical address that are not 0, by offset. A line that cannot be read has free bytes (log 37). -/
def granuleAt (s : State) (eid va pa : Nat) (i : Ipt) : List (Nat × Byte) :=
  let good := (cellsIn s.mem.hbm pa 4096).map (fun c => (c.1 - pa, c.2))
  let lost := s.lostLines pa i
  if lost = [] then good
  else (List.range 4096).filterMap (fun o =>
    let b := if lost.contains (o / 128) then Config.freeByte (s.free + eid) (va + o) else tget 0 good o
    if b = 0 then none else some (o, b))

/-- Where an item's 4 KiB granule lies at the save, under the tag recorded at its declaration; a tag that is no longer LIVE
reads as an unmaterialised cell (R436, 04 R94). None where it reads 0. -/
def itemPlace (s : State) (e va : Nat) (tag : BitVec 16) : Option (Nat × Ipt) :=
  let part := (s.enc e).part
  match s.findMap e (va / 65536) with
  | none => none
  | some l =>
    let i := s.iptOf l.pfn
    let plain := some (l.pfn * 65536 + va % 65536, i)
    if !i.tagged || tag = 0 then plain
    else
      let slot := if (tget .free (s.part part).tags tag.toNat).liveIn = some e then s.cellOf part l.pfn (va / 4096 % 16) tag
        else none
      match slot with
      | some p => some (p, i)
      | none => if i.zeroFb then none else plain

/-- The bytes of an item's granule at the save. -/
def itemGranule (s : State) (e va : Nat) (tag : BitVec 16) : List (Nat × Byte) :=
  match s.itemPlace e va tag with
  | none => []
  | some (pa, i) => s.granuleAt e va pa i

/-- The contents of an item: its bytes that are not 0, by offset. -/
def itemBytes (s : State) (e : Nat) (it : Item) : List (Nat × Byte) :=
  (List.range (it.len / 4096)).flatMap (fun k =>
    (s.itemGranule e (it.va + 4096 * k) it.tag).map (fun x => (4096 * k + x.1, x.2)))

/-- The items to save in their order (R435), each with its enclave. -/
def toSave (s : State) : List (Nat × Item) :=
  s.encl.flatMap (fun x => if x.2.st == .sealed then x.2.items.map (fun it => (x.1, it)) else [])

/-- The lines that the save cannot read are recorded as any reader's (03 R77, 18 R458). -/
def saveErrors (s : State) : State :=
  s.toSave.foldl (fun (s : State) (x : Nat × Item) => (List.range (x.2.len / 4096)).foldl (fun (s : State) k =>
    match s.itemPlace x.1 (x.2.va + 4096 * k) x.2.tag with
    | none => s
    | some (pa, i) => (s.lostLines pa i).foldl (fun (s : State) j => s.ueAt (pa + 128 * j) 128 i) s) s) s

/-- The items of the save, each whole. -/
def saveItems (s : State) : List SavedItem :=
  s.toSave.zipIdx.map (fun y =>
    { meas := (s.enc y.1.1).meas, openProf := (s.enc y.1.1).openProf, key := y.1.2.key, len := y.1.2.len, seq := y.2, st := 1
      bad := false, bytes := s.itemBytes y.1.1 y.1.2 })

/-- Bytes of an item's record (R436). -/
def itemSize (i : SavedItem) : Nat := i.len + 208

/-- Bytes that the save has written after its metadata: 64 a nanosecond (R435; log 37). -/
def written (s : State) : Nat := 64 * (s.clk.now - s.board.saveAt)

/-- The items with their restart states when `n` bytes have been written (R437). -/
def itemStates : Nat → List SavedItem → List SavedItem
  | _, [] => []
  | n, i :: t =>
    (if itemSize i ≤ n then i else if 128 ≤ n then { i with st := 2, bytes := [] } else { i with st := 3, bytes := [] }) ::
      itemStates (if itemSize i ≤ n then n - itemSize i else 0) t

/-- The metadata of an enclave (R435). -/
def metaPart (s : State) (gen : W64) (eid : Nat) (e : Enclave) : MetaPart :=
  let m : MetaPart := { eid := eid, meas := e.meas, openProf := e.openProf, items := e.items, keys := sealedKeys gen eid e, commit := []
                        fixtures := (s.board.lost.filter (fun x => x.fx.eid == eid)).map (fun x => x.fx.fid) }
  { m with commit := m.commitOf gen }

/-- The generation before its first item: its header, the black box, and the metadata of every enclave that is not departing
(R435, 18 R455). -/
def genStart (s : State) : Gen :=
  { gen := s.hold.gen, t0 := s.board.t0ptp, committed := false, items := itemStates 0 s.board.toWrite, lost := s.board.lost
    bb := s.health.bb, bbSeq := s.health.bbSeq, commit := []
    parts := (s.encl.filter (fun x => x.2.st == .sealed || x.2.st == .building)).map (fun x => s.metaPart s.hold.gen x.1 x.2) }

/-- The generation when `n` bytes of its items have been written. -/
def genAt (s : State) (n : Nat) : Option Gen := s.hold.cur.map (fun g => { g with items := itemStates n s.board.toWrite })

/-- The generation with its commit. -/
def genDone (s : State) : Option Gen :=
  (s.genAt ((s.board.toWrite.map itemSize).sum)).map (fun g =>
    { g with committed := true, commit := genCommit g.gen g.items.length })

/-- The bank runs down before the sequence is over only when it has dropped below 80 V or was measured below the rating (R428,
22 R480). -/
def bankWeak (s : State) : Bool := s.board.bankDown || decide (s.board.reserve < 60)

end State

/-- QUIESCE_COMPLETE (R430): every write is performed, since none is pending (log 2), and the header, the black box and the
metadata of the generation are written. Lines of the items that cannot be read are found here (log 37). -/
def execQuiesceComplete (s : State) : Host.Outcome State Fault Refusal :=
  .next (if s.board.power == .quiesce && s.handlersOver then
      let s : State := { s with board := { s.board with power := .saving, toWrite := s.saveItems, saveAt := s.clk.now }
                                free := s.free + 4096 }
      let s := s.saveErrors
      { s with hold := { s.hold with cur := some s.genStart } }
    else s)

/-- SAVE_COMPLETE (R435, R438): the generation is committed in its area, what was restorable is no more, and every rail is off. -/
def execSaveComplete (s : State) : Host.Outcome State Fault Refusal :=
  let total := (s.board.toWrite.map State.itemSize).sum
  .next (if s.board.power == .saving && decide (total ≤ s.written) then
      ({ s with hold := { s.hold with
        newest := s.genDone, area := 1 - s.hold.area, cur := none, restorable := [], lost := [] } } : State).powerOff
    else s)

/-- BANK_EXHAUSTED (R480, R437): the save is cut where it is, and every rail is off. -/
def execBankExhausted (s : State) : Host.Outcome State Fault Refusal :=
  .next (if !s.bankWeak then s
    else match s.board.power with
    | .quiesce => s.powerOff
    | .saving => ({ s with hold := { s.hold with cur := s.genAt s.written } } : State).powerOff
    | _ => s)

end Sys2Proof.Machine
end

