-- ==== Sys2Proof/Machine/Dispatch.lean ====
section
/-! DEFINITION. The dispatch of every instruction and event to its meaning. -/
namespace Sys2Proof.Machine

def exec (i : Instr) (s : State) : Host.Outcome State Fault Refusal :=
  match i with
  | .nop a => Sys2Proof.Machine.execNop a s
  | .bra a => Sys2Proof.Machine.execBra a s
  | .brx a => Sys2Proof.Machine.execBrx a s
  | .call a => Sys2Proof.Machine.execCall a s
  | .callx a => Sys2Proof.Machine.execCallx a s
  | .ret a => Sys2Proof.Machine.execRet a s
  | .split a => Sys2Proof.Machine.execSplit a s
  | .join a => Sys2Proof.Machine.execJoin a s
  | .exit a => Sys2Proof.Machine.execExit a s
  | .yield a => Sys2Proof.Machine.execYield a s
  | .pcmpi a => Sys2Proof.Machine.execPcmpi a s
  | .pcmpf a => Sys2Proof.Machine.execPcmpf a s
  | .plog a => Sys2Proof.Machine.execPlog a s
  | .pmovPack a => Sys2Proof.Machine.execPmovPack a s
  | .pmovUnpack a => Sys2Proof.Machine.execPmovUnpack a s
  | .pmovSet a => Sys2Proof.Machine.execPmovSet a s
  | .voteAll a => Sys2Proof.Machine.execVoteAll a s
  | .voteAny a => Sys2Proof.Machine.execVoteAny a s
  | .voteUni a => Sys2Proof.Machine.execVoteUni a s
  | .voteBallot a => Sys2Proof.Machine.execVoteBallot a s
  | .voteCount a => Sys2Proof.Machine.execVoteCount a s
  | .rdsr a => Sys2Proof.Machine.execRdsr a s
  | .wrsr a => Sys2Proof.Machine.execWrsr a s
  | .grow a => Sys2Proof.Machine.execGrow a s
  | .growGrant agent => Sys2Proof.Machine.execGrowGrant agent s
  | .shrink a => Sys2Proof.Machine.execShrink a s
  | .clock a => Sys2Proof.Machine.execClock a s
  | .bpt a => Sys2Proof.Machine.execBpt a s
  | .mov a => Sys2Proof.Machine.execMov a s
  | .movi a => Sys2Proof.Machine.execMovi a s
  | .moviHi a => Sys2Proof.Machine.execMoviHi a s
  | .sel a => Sys2Proof.Machine.execSel a s
  | .iadd a => Sys2Proof.Machine.execIadd a s
  | .isub a => Sys2Proof.Machine.execIsub a s
  | .imul a => Sys2Proof.Machine.execImul a s
  | .imulh a => Sys2Proof.Machine.execImulh a s
  | .imad a => Sys2Proof.Machine.execImad a s
  | .imin a => Sys2Proof.Machine.execImin a s
  | .imax a => Sys2Proof.Machine.execImax a s
  | .iabs a => Sys2Proof.Machine.execIabs a s
  | .idiv a => Sys2Proof.Machine.execIdiv a s
  | .irem a => Sys2Proof.Machine.execIrem a s
  | .lop3 a => Sys2Proof.Machine.execLop3 a s
  | .and a => Sys2Proof.Machine.execAnd a s
  | .or a => Sys2Proof.Machine.execOr a s
  | .xor a => Sys2Proof.Machine.execXor a s
  | .not a => Sys2Proof.Machine.execNot a s
  | .shl a => Sys2Proof.Machine.execShl a s
  | .shr a => Sys2Proof.Machine.execShr a s
  | .sar a => Sys2Proof.Machine.execSar a s
  | .rotl a => Sys2Proof.Machine.execRotl a s
  | .funsh a => Sys2Proof.Machine.execFunsh a s
  | .bfx a => Sys2Proof.Machine.execBfx a s
  | .bfi a => Sys2Proof.Machine.execBfi a s
  | .popc a => Sys2Proof.Machine.execPopc a s
  | .clz a => Sys2Proof.Machine.execClz a s
  | .brev a => Sys2Proof.Machine.execBrev a s
  | .idot4 a => Sys2Proof.Machine.execIdot4 a s
  | .prmt a => Sys2Proof.Machine.execPrmt a s
  | .xset a => Sys2Proof.Machine.execXset a s
  | .xadd a => Sys2Proof.Machine.execXadd a s
  | .xget a => Sys2Proof.Machine.execXget a s
  | .shfl a => Sys2Proof.Machine.execShfl a s
  | .redux a => Sys2Proof.Machine.execRedux a s
  | .scan a => Sys2Proof.Machine.execScan a s
  | .matchLanes a => Sys2Proof.Machine.execMatch a s
  | .fadd a => Sys2Proof.Machine.execFadd a s
  | .fsub a => Sys2Proof.Machine.execFsub a s
  | .fmul a => Sys2Proof.Machine.execFmul a s
  | .ffma a => Sys2Proof.Machine.execFfma a s
  | .fmin a => Sys2Proof.Machine.execFmin a s
  | .fmax a => Sys2Proof.Machine.execFmax a s
  | .fclass a => Sys2Proof.Machine.execFclass a s
  | .frcp a => Sys2Proof.Machine.execFrcp a s
  | .frsq a => Sys2Proof.Machine.execFrsq a s
  | .fsqrt a => Sys2Proof.Machine.execFsqrt a s
  | .fdiv a => Sys2Proof.Machine.execFdiv a s
  | .fexp2 a => Sys2Proof.Machine.execFexp2 a s
  | .flog2 a => Sys2Proof.Machine.execFlog2 a s
  | .fsin a => Sys2Proof.Machine.execFsin a s
  | .fcos a => Sys2Proof.Machine.execFcos a s
  | .ftanh a => Sys2Proof.Machine.execFtanh a s
  | .hadd2 a => Sys2Proof.Machine.execHadd2 a s
  | .hmul2 a => Sys2Proof.Machine.execHmul2 a s
  | .hfma2 a => Sys2Proof.Machine.execHfma2 a s
  | .hmin2 a => Sys2Proof.Machine.execHmin2 a s
  | .hmax2 a => Sys2Proof.Machine.execHmax2 a s
  | .dadd a => Sys2Proof.Machine.execDadd a s
  | .dmul a => Sys2Proof.Machine.execDmul a s
  | .dfma a => Sys2Proof.Machine.execDfma a s
  | .cvt a => Sys2Proof.Machine.execCvt a s
  | .cvtpk a => Sys2Proof.Machine.execCvtpk a s
  | .frnd a => Sys2Proof.Machine.execFrnd a s
  | .fscl a => Sys2Proof.Machine.execFscl a s
  | .fdot2 a => Sys2Proof.Machine.execFdot2 a s
  | .brset a => Sys2Proof.Machine.execBrset a s
  | .brget a => Sys2Proof.Machine.execBrget a s
  | .ld a => Sys2Proof.Machine.execLd a s
  | .st a => Sys2Proof.Machine.execSt a s
  | .ldx a => Sys2Proof.Machine.execLdx a s
  | .atom a => Sys2Proof.Machine.execAtom a s
  | .atomc a => Sys2Proof.Machine.execAtomc a s
  | .red a => Sys2Proof.Machine.execRed a s
  | .cellSlotGrant agent => Sys2Proof.Machine.execCellSlotGrant agent s
  | .tagexhTimeout agent => Sys2Proof.Machine.execTagexhTimeout agent s
  | .lds a => Sys2Proof.Machine.execLds a s
  | .sts a => Sys2Proof.Machine.execSts a s
  | .atoms a => Sys2Proof.Machine.execAtoms a s
  | .ldq a => Sys2Proof.Machine.execLdq a s
  | .stq a => Sys2Proof.Machine.execStq a s
  | .pref a => Sys2Proof.Machine.execPref a s
  | .pin a => Sys2Proof.Machine.execPin a s
  | .unpin a => Sys2Proof.Machine.execUnpin a s
  | .cinv a => Sys2Proof.Machine.execCinv a s
  | .cflush a => Sys2Proof.Machine.execCflush a s
  | .icinv a => Sys2Proof.Machine.execIcinv a s
  | .tdecl a => Sys2Proof.Machine.execTdecl a s
  | .tfree a => Sys2Proof.Machine.execTfree a s
  | .tfill a => Sys2Proof.Machine.execTfill a s
  | .tmcast a => Sys2Proof.Machine.execTmcast a s
  | .tdrain a => Sys2Proof.Machine.execTdrain a s
  | .tstat a => Sys2Proof.Machine.execTstat a s
  | .tileStateWaitEnd agent => Sys2Proof.Machine.execTileStateWaitEnd agent s
  | .tfillComplete op => Sys2Proof.Machine.execTfillComplete op s
  | .tdrainComplete op => Sys2Proof.Machine.execTdrainComplete op s
  | .tmcastDelivery op dest => Sys2Proof.Machine.execTmcastDelivery op dest s
  | .tmcastRetire op => Sys2Proof.Machine.execTmcastRetire op s
  | .cpyt a => Sys2Proof.Machine.execCpyt a s
  | .cpyz a => Sys2Proof.Machine.execCpyz a s
  | .copyOpRetire op => Sys2Proof.Machine.execCopyOpRetire op s
  | .wsld a => Sys2Proof.Machine.execWsld a s
  | .wswin a => Sys2Proof.Machine.execWswin a s
  | .weightStoreRefresh die => Sys2Proof.Machine.execWeightStoreRefresh die s
  | .ldw a => Sys2Proof.Machine.execLdw a s
  | .ldwWs a => Sys2Proof.Machine.execLdwWs a s
  | .swpw a => Sys2Proof.Machine.execSwpw a s
  | .mma a => Sys2Proof.Machine.execMma a s
  | .mmas a => Sys2Proof.Machine.execMmas a s
  | .aclr a => Sys2Proof.Machine.execAclr a s
  | .ald a => Sys2Proof.Machine.execAld a s
  | .amov a => Sys2Proof.Machine.execAmov a s
  | .amovTile a => Sys2Proof.Machine.execAmovTile a s
  | .scacc a => Sys2Proof.Machine.execScacc a s
  | .wstat a => Sys2Proof.Machine.execWstat a s
  | .matrixOpRetire op => Sys2Proof.Machine.execMatrixOpRetire op s
  | .fence a => Sys2Proof.Machine.execFence a s
  | .bar a => Sys2Proof.Machine.execBar a s
  | .barq a => Sys2Proof.Machine.execBarq a s
  | .arrive a => Sys2Proof.Machine.execArrive a s
  | .await a => Sys2Proof.Machine.execAwait a s
  | .awaitWake agent => Sys2Proof.Machine.execAwaitWake agent s
  | .stgrel a => Sys2Proof.Machine.execStgrel a s
  | .stgacq a => Sys2Proof.Machine.execStgacq a s
  | .stgacqWake agent => Sys2Proof.Machine.execStgacqWake agent s
  | .wait a => Sys2Proof.Machine.execWait a s
  | .waitWake agent => Sys2Proof.Machine.execWaitWake agent s
  | .cntrd a => Sys2Proof.Machine.execCntrd a s
  | .sleep a => Sys2Proof.Machine.execSleep a s
  | .sleepEnd agent => Sys2Proof.Machine.execSleepEnd agent s
  | .tagnew a => Sys2Proof.Machine.execTagnew a s
  | .tagnewGrant agent => Sys2Proof.Machine.execTagnewGrant agent s
  | .tagnewTimeout agent => Sys2Proof.Machine.execTagnewTimeout agent s
  | .tagset a => Sys2Proof.Machine.execTagset a s
  | .tagget a => Sys2Proof.Machine.execTagget a s
  | .tagret a => Sys2Proof.Machine.execTagret a s
  | .tagCellFree part tag => Sys2Proof.Machine.execTagCellFree part tag s
  | .tagqryFree a => Sys2Proof.Machine.execTagqryFree a s
  | .tagqryTag a => Sys2Proof.Machine.execTagqryTag a s
  | .tagqryPool a => Sys2Proof.Machine.execTagqryPool a s
  | .msdecl a => Sys2Proof.Machine.execMsdecl a s
  | .msdeclRec a => Sys2Proof.Machine.execMsdeclRec a s
  | .msdrop a => Sys2Proof.Machine.execMsdrop a s
  | .msqryCap a => Sys2Proof.Machine.execMsqryCap a s
  | .msqryItem a => Sys2Proof.Machine.execMsqryItem a s
  | .msqryRst a => Sys2Proof.Machine.execMsqryRst a s
  | .msqryLost a => Sys2Proof.Machine.execMsqryLost a s
  | .pfret a => Sys2Proof.Machine.execPfret a s
  | .syscall a => Sys2Proof.Machine.execSyscall a s
  | .queueTailPoll part => Sys2Proof.Machine.execQueueTailPoll part s
  | .trap a => Sys2Proof.Machine.execTrap a s
  | .eretRetry a => Sys2Proof.Machine.execEretRetry a s
  | .eretSkip a => Sys2Proof.Machine.execEretSkip a s
  | .eretKill a => Sys2Proof.Machine.execEretKill a s
  | .eretResume a => Sys2Proof.Machine.execEretResume a s
  | .eretDecline a => Sys2Proof.Machine.execEretDecline a s
  | .eretAbort a => Sys2Proof.Machine.execEretAbort a s
  | .launch a => Sys2Proof.Machine.execLaunch a s
  | .evsig a => Sys2Proof.Machine.execEvsig a s
  | .evsigClr a => Sys2Proof.Machine.execEvsigClr a s
  | .evwait a => Sys2Proof.Machine.execEvwait a s
  | .evwaitTry a => Sys2Proof.Machine.execEvwaitTry a s
  | .evwaitWake agent => Sys2Proof.Machine.execEvwaitWake agent s
  | .lease a => Sys2Proof.Machine.execLease a s
  | .unlease a => Sys2Proof.Machine.execUnlease a s
  | .tlbinv a => Sys2Proof.Machine.execTlbinv a s
  | .tlbinvAll a => Sys2Proof.Machine.execTlbinvAll a s
  | .tlbinvAp a => Sys2Proof.Machine.execTlbinvAp a s
  | .encreate a => Sys2Proof.Machine.execEncreate a s
  | .enadd a => Sys2Proof.Machine.execEnadd a s
  | .enseal a => Sys2Proof.Machine.execEnseal a s
  | .enenter a => Sys2Proof.Machine.execEnenter a s
  | .enexit a => Sys2Proof.Machine.execEnexit a s
  | .enpgout a => Sys2Proof.Machine.execEnpgout a s
  | .enpgin a => Sys2Proof.Machine.execEnpgin a s
  | .enkill a => Sys2Proof.Machine.execEnkill a s
  | .enclaveDeparture eid => Sys2Proof.Machine.execEnclaveDeparture eid s
  | .tsavePart a => Sys2Proof.Machine.execTsavePart a s
  | .tsaveExport a => Sys2Proof.Machine.execTsaveExport a s
  | .trestPart a => Sys2Proof.Machine.execTrestPart a s
  | .trestImport a => Sys2Proof.Machine.execTrestImport a s
  | .crewPlacement part => Sys2Proof.Machine.execCrewPlacement part s
  | .placementAged fx => Sys2Proof.Machine.execPlacementAged fx s
  | .teamAged agent => Sys2Proof.Machine.execTeamAged agent s
  | .teamRetire agent => Sys2Proof.Machine.execTeamRetire agent s
  | .fixtureRetire fx => Sys2Proof.Machine.execFixtureRetire fx s
  | .deadlineExpiry fx => Sys2Proof.Machine.execDeadlineExpiry fx s
  | .calendarSlotStart part entry => Sys2Proof.Machine.execCalendarSlotStart part entry s
  | .leasePeriodBoundary => Sys2Proof.Machine.execLeasePeriodBoundary s
  | .walkBatchAged batch => Sys2Proof.Machine.execWalkBatchAged batch s
  | .collectiveRetire ring => Sys2Proof.Machine.execCollectiveRetire ring s
  | .uwcAck agent => Sys2Proof.Machine.execUwcAck agent s
  | .apertureRequestFail part entry => Sys2Proof.Machine.execApertureRequestFail part entry s
  | .controlThreadNotice agent => Sys2Proof.Machine.execControlThreadNotice agent s
  | .correctedError u => Sys2Proof.Machine.execCorrectedError u s
  | .unitTestComplete u passed => Sys2Proof.Machine.execUnitTestComplete u passed s
  | .scoreHalving => Sys2Proof.Machine.execScoreHalving s
  | .pcfg arg => Sys2Proof.Machine.execPcfg arg s
  | .prel arg => Sys2Proof.Machine.execPrel arg s
  | .pqry arg => Sys2Proof.Machine.execPqry arg s
  | .spdmx arg => Sys2Proof.Machine.execSpdmx arg s
  | .pmapMap arg => Sys2Proof.Machine.execPmapMap arg s
  | .pmapUnmap arg => Sys2Proof.Machine.execPmapUnmap arg s
  | .pmapAddAlias arg => Sys2Proof.Machine.execPmapAddAlias arg s
  | .pmapRemoveAlias arg => Sys2Proof.Machine.execPmapRemoveAlias arg s
  | .apset arg => Sys2Proof.Machine.execApset arg s
  | .cpoolAdd arg => Sys2Proof.Machine.execCpoolAdd arg s
  | .cpoolRemove arg => Sys2Proof.Machine.execCpoolRemove arg s
  | .calsetArm arg => Sys2Proof.Machine.execCalsetArm arg s
  | .calsetDisarm arg => Sys2Proof.Machine.execCalsetDisarm arg s
  | .lpset arg => Sys2Proof.Machine.execLpset arg s
  | .cqset arg => Sys2Proof.Machine.execCqset arg s
  | .pdbindBind arg => Sys2Proof.Machine.execPdbindBind arg s
  | .pdbindUnbind arg => Sys2Proof.Machine.execPdbindUnbind arg s
  | .bssetCreate arg => Sys2Proof.Machine.execBssetCreate arg s
  | .bssetDestroy arg => Sys2Proof.Machine.execBssetDestroy arg s
  | .crset arg => Sys2Proof.Machine.execCrset arg s
  | .fqset arg => Sys2Proof.Machine.execFqset arg s
  | .ctset arg => Sys2Proof.Machine.execCtset arg s
  | .osfatal arg => Sys2Proof.Machine.execOsfatal arg s
  | .bbrd arg => Sys2Proof.Machine.execBbrd arg s
  | .hqry arg => Sys2Proof.Machine.execHqry arg s
  | .monitorRequestUnknown code arg => Sys2Proof.Machine.execMonitorRequestUnknown code arg s
  | .getVersion who => Sys2Proof.Machine.execGetVersion who s
  | .getCapabilities who => Sys2Proof.Machine.execGetCapabilities who s
  | .negotiateAlgorithms who => Sys2Proof.Machine.execNegotiateAlgorithms who s
  | .getDigests who => Sys2Proof.Machine.execGetDigests who s
  | .getCertificate who slot off len => Sys2Proof.Machine.execGetCertificate who slot off len s
  | .challenge who slot nonce => Sys2Proof.Machine.execChallenge who slot nonce s
  | .getMeasurements who index signed nonce => Sys2Proof.Machine.execGetMeasurements who index signed nonce s
  | .keyExchange who share => Sys2Proof.Machine.execKeyExchange who share s
  | .finish who session => Sys2Proof.Machine.execFinish who session s
  | .endSession who session => Sys2Proof.Machine.execEndSession who session s
  | .chunkSend who handle seq last data => Sys2Proof.Machine.execChunkSend who handle seq last data s
  | .chunkGet who handle seq => Sys2Proof.Machine.execChunkGet who handle seq s
  | .encreport who eid nonce => Sys2Proof.Machine.execEncreport who eid nonce s
  | .spdmUnsupported who code => Sys2Proof.Machine.execSpdmUnsupported who code s
  | .fwmWrite world index value => Sys2Proof.Machine.execFwmWrite world index value s
  | .fwlockWrite world value => Sys2Proof.Machine.execFwlockWrite world value s
  | .pcieInboundRead port rid va len => Sys2Proof.Machine.execPcieInboundRead port rid va len s
  | .pcieInboundWrite port rid va data => Sys2Proof.Machine.execPcieInboundWrite port rid va data s
  | .pcieInboundAtomic port rid va op => Sys2Proof.Machine.execPcieInboundAtomic port rid va op s
  | .portUHotReset => Sys2Proof.Machine.execPortUHotReset s
  | .vfFlr vf => Sys2Proof.Machine.execVfFlr vf s
  | .tdiLeaveRun port rid => Sys2Proof.Machine.execTdiLeaveRun port rid s
  | .burraFlitReceive group crcOk => Sys2Proof.Machine.execBurraFlitReceive group crcOk s
  | .burraInboundRequest part stream ctr req => Sys2Proof.Machine.execBurraInboundRequest part stream ctr req s
  | .burraLaneGroupFail group => Sys2Proof.Machine.execBurraLaneGroupFail group s
  | .burraRekeyRequest part stream => Sys2Proof.Machine.execBurraRekeyRequest part stream s
  | .burraSendStop part stream => Sys2Proof.Machine.execBurraSendStop part stream s
  | .burraKeyInstalled part stream => Sys2Proof.Machine.execBurraKeyInstalled part stream s
  | .burraStreamFail part stream => Sys2Proof.Machine.execBurraStreamFail part stream s
  | .ptpTimestamp master => Sys2Proof.Machine.execPtpTimestamp master s
  | .ppsPulse => Sys2Proof.Machine.execPpsPulse s
  | .timeStep target => Sys2Proof.Machine.execTimeStep target s
  | .syncLoss => Sys2Proof.Machine.execSyncLoss s
  | .powerUp energy imagesOk railsOk => Sys2Proof.Machine.execPowerUp energy imagesOk railsOk s
  | .bankCharged => Sys2Proof.Machine.execBankCharged s
  | .resetN => Sys2Proof.Machine.execResetN s
  | .powerFail => Sys2Proof.Machine.execPowerFail s
  | .pfHandlerEntry agent => Sys2Proof.Machine.execPfHandlerEntry agent s
  | .pfHandlerBudget agent => Sys2Proof.Machine.execPfHandlerBudget agent s
  | .quiesceComplete => Sys2Proof.Machine.execQuiesceComplete s
  | .saveComplete => Sys2Proof.Machine.execSaveComplete s
  | .bankExhausted => Sys2Proof.Machine.execBankExhausted s
  | .thermalTrip die => Sys2Proof.Machine.execThermalTrip die s
  | .throttleDown cluster power temp => Sys2Proof.Machine.execThrottleDown cluster power temp s
  | .throttleUp cluster power temp => Sys2Proof.Machine.execThrottleUp cluster power temp s
  | .bankLow => Sys2Proof.Machine.execBankLow s
  | .modstatWrite value => Sys2Proof.Machine.execModstatWrite value s
  | .plimWrite watts => Sys2Proof.Machine.execPlimWrite watts s
  | .yieldEnd agent => Sys2Proof.Machine.execYieldEnd agent s
  | .portULinkDown => Sys2Proof.Machine.execPortULinkDown s
  | .tdispRequest port rid req => Sys2Proof.Machine.execTdispRequest port rid req s
  | .ideKmRequest port stream enable => Sys2Proof.Machine.execIdeKmRequest port stream enable s
  | .controlThreadRestart agent pc => Sys2Proof.Machine.execControlThreadRestart agent pc s

end Sys2Proof.Machine
end

