-- ==== Sys2Proof/Machine/Step.lean ====
section
/-! DEFINITION. One step of the module: what the agenda says, or the next instruction of the current agent (log 3). -/
namespace Sys2Proof.Machine

/-- The next instruction of agent `a`, or nothing when it may not issue or the scheduler would choose another (05 R135). -/
def issueOf (s : State) (a : Nat) (idle : State) : Host.Outcome State Fault Refusal :=
  if s.ready a && s.chosen a then
    match s.nextInstr a with
    | (s, none) => .next s
    | (s, some i) => exec i s
  else .next idle

/-- One step. -/
def step (s : State) : Host.Outcome State Fault Refusal :=
  match s.agenda with
  | [] => issueOf s s.cur (s.passTime 1)
  | .issue a :: rest => issueOf { s with agenda := rest, cur := a } a { s with agenda := rest, cur := a }
  | .event i :: rest =>
    match opcode i with
    | none => exec i { s with agenda := rest }
    | some _ => .next { s with agenda := rest }
  | .elapse ns :: rest => .next ({ s with agenda := rest }.passTime ns)
  | .hold cl :: rest => .next ({ s with agenda := rest }.holdWalkers cl)
  | .serve cl n :: rest => .next ({ s with agenda := rest }.serveWalk cl n)
  | .upset u :: rest => .next ({ s with agenda := rest }.upset u)

/-- The machine with one instruction word where the next step fetches. An instruction is one 96-bit word. -/
def State.withFetchWord (s : State) (nbits w : Nat) : State := s.placeWord (BitVec.ofNat 96 (w % 2 ^ nbits))

end Sys2Proof.Machine
end

