-- ==== Sys2Proof/Safety.lean ====
section
/-! DEFINITION. The terms in which the statements speak: a memory in canonical form, an instruction that issues and
meets no trap of the issue stage, the place after it, and what a result written per lane, or once for the team, leaves
in the registers. -/
namespace Sys2Proof.Machine

/-- HBM is in its canonical form (log 1): addresses rise strictly and no listed byte is the one that an unlisted address
reads as. -/
def Memory.wf (s : State) : Bool := twf 0 s.mem.hbm

/-- The team or thread that issues. -/
abbrev State.me (s : State) : Team := s.team s.cur

/-- T of an instruction of the current agent with guard `g` (00 R12). -/
abbrev State.mask (s : State) (g : Guard) : Mask := s.me.en g

/-- Instruction `i` issues normally: the issue checks of 06 R165 find nothing, no lane of T consumes uncorrectable data
(09 R239, 16 R407), and it is not one that the power-fail handler the team runs may not issue (17 R433). -/
structure Issues (i : Instr) (r : Rule) (s : State) : Prop where
  check : issueCheck s s.cur i r = none
  clean : s.me.ueLanes (s.mask r.guard) i r = []
  allowed : r.banned = false ∨ s.me.run ≠ .pfHandler

/-- `s'` when the current agent then leaves the slot of its instruction (06 R139, 07 R184-R188). -/
abbrev State.after (s s' : State) : State := s'.leave s.cur s.me.pc .seq

/-- The body's answer without a trap or a stop, at the next slot. -/
def Res.plain (s : State) : Res := { s := s }

/-- What `issue` hands to a body when no lane consumes uncorrectable data. -/
abbrev State.ctx (s : State) (r : Rule) : Ctx := { a := s.cur, pc := s.me.pc, t := s.me, m := s.mask r.guard, all := s.mask r.guard }

/-- The wait that the current agent begins in `i`: nothing has woken it, and it is the youngest of all waits. -/
abbrev State.wait0 (s : State) (i : Instr) (until_ : Nat) (stack : Option Nat) (lives : Option (List (Nat × Nat))) : Waiting :=
  { instr := i, cycles := s.mcyc s.cur, until_ := until_, woken := false, stack := stack, lives := lives, seq := s.nextWait,
    walked := false, ue := 0 }

/-- `s` when the current agent has begun to wait in `i`: it stays where it is, and nothing else changes. -/
abbrev State.waits (s : State) (i : Instr) (until_ : Nat := 0) (stack : Option Nat := none)
    (lives : Option (List (Nat × Nat)) := none) : State :=
  { s.setTeam s.cur { s.me with waiting := some (s.wait0 i until_ stack lives) } with nextWait := s.nextWait + 1 }

/-- `s` when the wait `w` of agent `g` is over: its instruction may issue again, and from here on the team waits for its slot
(05 R135). -/
abbrev State.awake (s : State) (g : Nat) (w : Waiting) : State :=
  s.setTeam g (if w.woken then s.team g
    else { s.team g with waiting := some { w with woken := true }, since := s.mcyc g, aged := false })

/-! ## Results written to registers -/

/-- The lanes of T. -/
abbrev Team.lanesOf (t : Team) (m : Mask) : List Nat := lanes t.width m

/-- The lane whose result lane `l` receives: the lowest lane of T for a uniform destination, which is computed once
(09 R236). -/
def Team.giver (t : Team) (m : Mask) (d : Operand) (l : Nat) : Nat := if d.isUni then (t.lanesOf m).headD 0 else l

/-- The first register of lane `l`'s destination; none when the result is discarded. -/
def Team.destReg (t : Team) (d : Operand) (wide : Bool) (l : Nat) : Option Nat :=
  (t.regOf l (if wide then 2 else 1) (if wide then 2 else 1) d).toOption.join

/-- Every lane of `m` can write its destination (09 R240). -/
def Team.DestOk (t : Team) (m : Mask) (d : Operand) (wide : Bool) : Prop :=
  ∀ l ∈ t.lanesOf m, (t.regOf l (if wide then 2 else 1) (if wide then 2 else 1) d).isOk = true

/-- No lane of `m` raises a flag whose FPX is enabled (08 R228, R230). -/
def Team.NoFpx (t : Team) (m : Mask) (res : Nat → LaneRes) : Prop := ∀ l ∈ t.lanesOf m, (res l).fl &&& t.ten = 0

/-- A lane result's value for predicate `k`: the last of its writes. -/
def LaneRes.predOf (o : LaneRes) (k : Nat) (old : Bool) : Bool := o.pw.foldl (fun b w => if w.1 = k then w.2 else b) old

/-- A lane result's value for index register `k`. -/
def LaneRes.xOf (o : LaneRes) (k : Nat) (old : BitVec 16) : BitVec 16 :=
  match o.xw with
  | some (k', v) => if k' = k then v else old
  | none => old

/-- The flags that the lanes raise. -/
def orAll (ls : List Nat) (f : Nat → W32) : W32 := ls.foldl (fun x l => x ||| f l) 0

/-- A per-lane register after the results `res` of the lanes of `m`. -/
def Team.vregAfter (t : Team) (m : Mask) (d : Operand) (wide : Bool) (res : Nat → LaneRes) (l r : Nat) : W32 :=
  if l ∈ t.lanesOf m then
    match t.destReg d wide l with
    | none => t.vreg l r
    | some q =>
      if r = q then (res l).val.setWidth 32
      else if wide ∧ r = q + 1 then ((res l).val >>> 32).setWidth 32
      else t.vreg l r
  else t.vreg l r

/-- A uniform register after the result `v` of an instruction of which some lane is enabled: a 32-bit result is
zero-extended (06 R157). -/
def Team.uregAfter (t : Team) (m : Mask) (d : Operand) (wide : Bool) (v : W64) (r : Nat) : W64 :=
  match d with
  | .s q => if r = q.toNat ∧ t.lanesOf m ≠ [] then (if wide then v else (v.setWidth 32).setWidth 64) else t.ureg r
  | _ => t.ureg r

/-- `t'` is `t` with the results `res` of the lanes of `m` written to destination `d`, their predicate and index-register
writes made and their flags raised; every other register of every lane, and everything else of the team, is as it was. -/
structure Wrote (t t' : Team) (m : Mask) (d : Operand) (wide : Bool) (res : Nat → LaneRes) : Prop where
  /-- per-lane registers -/
  lane : ∀ l, ∀ r < 256, t'.vreg l r = t.vregAfter m d wide res l r
  /-- uniform registers -/
  uni : ∀ r, t'.ureg r = t.uregAfter m d wide (res (t.giver m d 0)).val r
  /-- predicates; p0 stays true (06 R159) -/
  pred : ∀ k l, l < 1024 → t'.predLane k l =
    if k ≠ 0 ∧ l ∈ t.lanesOf m then (res (t.giver m d l)).predOf k (t.predLane k l) else t.predLane k l
  /-- index registers -/
  index : ∀ l, ∀ k < 8, t'.xreg l k =
    if l ∈ t.lanesOf m then (res (t.giver m d l)).xOf k (t.xreg l k) else t.xreg l k
  /-- flags and the exception summary (08 R229, R233) -/
  fpflags : t'.fpflags = t.fpflags ||| orAll (t.lanesOf m) (fun l => (res (t.giver m d l)).fl)
  devflags : t'.devflags = t.devflags ||| orAll (t.lanesOf m) (fun l => (res (t.giver m d l)).dfl)
  sum : t'.sum = { t.sum with fpf := t.sum.fpf ||| orAll (t.lanesOf m) (fun l => (res (t.giver m d l)).fl),
                              dvf := t.sum.dvf ||| orAll (t.lanesOf m) (fun l => (res (t.giver m d l)).dfl) }
  /-- everything else -/
  rest : t' = { t with v := t'.v, badV := t'.badV, u := t'.u, badU := t'.badU, p := t'.p, badP := t'.badP, x := t'.x, badX := t'.badX,
                       fpflags := t'.fpflags, devflags := t'.devflags, sum := t'.sum }

/-! ## What the lanes of T read -/

/-- The lanes of `m` read the integers `x` of type `ty` from an operand (09 R235). -/
def Team.ReadsI (t : Team) (m : Mask) (ty : Ty) (o : Operand) (x : Nat → Int) : Prop :=
  ∀ l ∈ t.lanesOf m, t.opI l ty o = .ok (x l)

/-- The lanes of `m` read the patterns `x` of type `ty`. -/
def Team.ReadsP (t : Team) (m : Mask) (ty : Ty) (o : Operand) (x : Nat → Nat) : Prop :=
  ∀ l ∈ t.lanesOf m, t.opP l ty o = .ok (x l)

/-- The lanes of `m` read the 32-bit words `x`. -/
def Team.Reads32 (t : Team) (m : Mask) (o : Operand) (x : Nat → W32) : Prop :=
  ∀ l ∈ t.lanesOf m, t.rd32 l o = .ok (x l)

/-- The lanes of `m` read the data `x` of 32 or 64 bits. -/
def Team.ReadsD (t : Team) (m : Mask) (wide : Bool) (o : Operand) (x : Nat → W64) : Prop :=
  ∀ l ∈ t.lanesOf m, t.rdData l wide o = .ok (x l)

/-! ## A register-only instruction that runs -/

/-- `i` issues normally, every lane of T can write the destination, and no lane raises a flag whose trap is enabled. -/
structure Ready (i : Instr) (r : Rule) (s : State) (d : Operand) (wide : Bool) (res : Nat → LaneRes) : Prop
    extends Issues i r s where
  dest : s.me.DestOk (s.mask r.guard) d wide
  nofpx : s.me.NoFpx (s.mask r.guard) res

/-- `i` answers a next state: the results `res` of the lanes of T are written as `Wrote` says, everything else of the
module is as it was, and the agent leaves the slot. -/
def Completes (i : Instr) (r : Rule) (s : State) (d : Operand) (wide : Bool) (res : Nat → LaneRes) : Prop :=
  ∃ t', exec i s = .next (s.after (s.setTeam s.cur t')) ∧ Wrote s.me t' (s.mask r.guard) d wide res

/-- Lane `l` names a register that the team does not have, as destination or as source A or B (09 R240). -/
def Team.badLane (t : Team) (a : RArgs) (l : Nat) : Bool :=
  !(t.regOf l (nReg a.ty) (nReg a.ty) a.d).isOk || !(t.rdData l a.ty.wide a.a).isOk || !(t.rdData l a.ty.wide a.b).isOk

/-- The lanes of `m` that raise a flag whose trap is enabled, and those that complete. -/
def Team.fpxLanes (t : Team) (m : Mask) (a : RArgs) (res : Nat → LaneRes) : List Nat :=
  (t.lanesOf m).filter (fun l => !t.badLane a l && decide ((res l).fl &&& t.ten ≠ 0))

def Team.goodLanes (t : Team) (m : Mask) (a : RArgs) (res : Nat → LaneRes) : List Nat :=
  (t.lanesOf m).filter (fun l => !t.badLane a l && decide ((res l).fl &&& t.ten = 0))

/-- Each lane of T that traps, in lane order, with its cause: REGIDX, or FPX of an enabled flag (08 R230, 09 R240). -/
def Team.laneTraps (t : Team) (m : Mask) (a : RArgs) (res : Nat → LaneRes) : Traps :=
  (t.lanesOf m).filterMap (fun l =>
    if t.badLane a l then some (l, .regidx) else if (res l).fl &&& t.ten ≠ 0 then some (l, .fpx) else none)

/-- `i` with a per-lane destination: each lane of T completes or traps on its own. A lane that raises an enabled flag leaves
only its flags; the generator holds `seed`. -/
def Splits (i : Instr) (s : State) (a : RArgs) (res : Nat → LaneRes) (seed : W32) : Prop :=
  let t := s.me
  let m := s.mask a.g
  let fpx := t.fpxLanes m a res
  ∃ t', exec i s = .next (State.complete s.cur t.pc
      { s := s.setTeam s.cur { t' with srseed := seed }, k := t.laneTraps m a res }) ∧
    Wrote (t.raise (orAll fpx (fun l => (res l).fl)) (orAll fpx (fun l => (res l).dfl))) t'
      (maskOf (t.goodLanes m a res)) a.d a.ty.wide res

/-- `i` with a uniform destination, whose one result raises an enabled flag: every lane of T is recorded and nothing but the
flags is written (09 R236). -/
def SplitsUni (i : Instr) (s : State) (a : RArgs) (res : LaneRes) (seed : W32) : Prop :=
  exec i s = .next (State.complete s.cur s.me.pc
    { s := s.setTeam s.cur { s.me.raise res.fl res.dfl with srseed := seed }, k := trapAll s.me.width (s.mask a.g) .fpx })

/-- The effective controls and the random word of lane `l` (06 R163, 08 R222). -/
def Team.envOf (t : Team) (a : RArgs) (l : Nat) : FEnv :=
  { controls t a.rnd a.ftzi a.ftzo a.sat with w := laneWord t.srseed (passList t (scalarWord a)) (scalarWord a) l }

/-- sr.srseed after a floating instruction (08 R222). -/
def Team.seedAfter (t : Team) (a : RArgs) : W32 :=
  if (controls t a.rnd a.ftzi a.ftzo a.sat).md = .sr then advN (passList t (scalarWord a)).length t.srseed else t.srseed

/-- `Completes` of a floating instruction: the stochastic generator has also advanced once per pass when the effective
mode is SR (08 R222). -/
def CompletesF (i : Instr) (r : Rule) (s : State) (a : RArgs) (d : Operand) (wide : Bool) (res : Nat → LaneRes) : Prop :=
  ∃ t', exec i s = .next (s.after (s.setTeam s.cur { t' with srseed := s.me.seedAfter a })) ∧
    Wrote s.me t' (s.mask r.guard) d wide res

/-! ## Results of the control instructions -/

/-- The result word `st`·2^16 + `id` in D of agent `a`, and PD in the lanes `m`, true exactly when `st` is 0 (02 R50). -/
def State.withResult (s : State) (g : Nat) (a : SArgs) (m : Mask) (id st : Nat) : State :=
  s.modTeam g (fun t => (t.setdU a.d (State.resWord id st)).setPredMask a.pd.toNat m (st = 0))

/-! ## Per-lane memory instructions -/

/-- The lanes of a list are served in turn: each lane's access is performed (12 R303). -/
def served (f : State → Nat → Ans Unit) : State → List Nat → Option State
  | s, [] => some s
  | s, l :: ls =>
    match f s l with
    | (s', .ok _) => served f s' ls
    | _ => none

/-- Every pass is served; the lanes of one pass share the requests of their lines (03 R68). -/
def servedAll (f : State → Nat → Ans Unit) : State → List (List Nat) → Option State
  | s, [] => some s
  | s, ls :: ps =>
    match served f s ls with
    | some t => servedAll f { t with pass := [] } ps
    | none => none

/-- The lanes of each pass; of the lowest lane alone when one access stands for all (12 R303). -/
def Team.passLanes (t : Team) (m : Mask) (uni : Bool) : List (List Nat) :=
  (passWords m).map (fun w => (if uni then (t.lanesOf m).take 1 else t.lanesOf m).filter (fun l => l / 32 == w))

/-- `s` when the walk that page `va / 65536` needs, if any, has filled the TLB (03 R80). -/
abbrev State.walked (s : State) (k : Kind) (va : Nat) : State :=
  s.walkAll (s.req s.cur) k (s.missing (s.req s.cur) [va / 65536])

/-- The current agent's instruction need not wait for a walker for the pages `vpns` (03 R80). -/
def State.Walks (s : State) (vpns : List Nat) : Prop :=
  s.missing (s.req s.cur) vpns = [] ∨ s.eng.held.contains (s.clusterOf s.cur) = false ∨
    s.me.waiting.any (fun w => w.walked) = true

/-- T holds lane `l` alone, and its access of `n` bytes in elements of `es` bytes is `ad`, in bounds and in one line, whose
page needs no walker that is not free. -/
structure OneAccess (s : State) (a : MArgs) (l n es : Nat) (ad : Addr) : Prop where
  lane : s.me.lanesOf (s.mask a.g) = [l]
  addr : s.me.address (s.me.rslot a.br.toNat) l a.a a.disp n es = .ok ad
  whole : ad.lo = 0 ∧ ad.hi = n
  line : 0 < n ∧ ad.va % 128 + n ≤ 128
  walks : s.Walks [ad.va / 65536]

/-- The little-endian number in `n` bytes from physical address `pa`. -/
def State.num (s : State) (pa n : Nat) : Nat := leNat (s.bytes pa n)

/-- Every byte of HBM outside [pa, pa + n) is as it was. -/
def State.SameBytes (s t : State) (pa n : Nat) : Prop := ∀ q, q < pa ∨ pa + n ≤ q → t.byte q = s.byte q

/-- `t` is `s` but for agent `g`'s per-lane registers from `r` up to `r + n` of lane `l`. -/
structure OnlyRegs (s t : State) (g l r n : Nat) : Prop where
  regs : ∀ l' q, q < 256 → (l' ≠ l ∨ q < r ∨ r + n ≤ q) → (t.team g).vreg l' q = (s.team g).vreg l' q
  team : t.team g = { s.team g with v := (t.team g).v, badV := (t.team g).badV }
  others : ∀ h, h ≠ g → t.team h = s.team h
  rest : t = { s with teams := t.teams }

/-- `s` when the walks of the accesses of `n` bytes that the lanes `ls` make have filled the TLB (03 R80), with the device flag
of an access that the ZERO policy cuts short when `cut` says so (03 R66). -/
def State.begun (s : State) (r : Rule) (a : MArgs) (k : Kind) (n es : Nat) (ls : List Nat) (cut : Bool) : State :=
  let s1 := s.walkAll (s.req s.cur) k (s.missing (s.req s.cur) ((s.ctx r).pages a n es ls))
  if cut then s1.setTeam s.cur (s.me.raise 0 dOOB) else s1

/-- `t'` is `t` with the elements that the bytes `bs` hold, extended by their type, in the destination of a load of lane `l`:
its registers from `base`, or a uniform register. -/
structure Loaded (t t' : Team) (l : Nat) (a : MArgs) (base : Option Nat) (bs : List Byte) : Prop where
  lane : ∀ d, base = some d → ∀ j < a.vec.n,
    let v := Ty.extend a.ty (leNat ((bs.drop (a.ty.bits / 8 * j)).take (a.ty.bits / 8)))
    if a.ty.wide then t'.vreg l (d + 2 * j) = v.setWidth 32 ∧ t'.vreg l (d + 2 * j + 1) = (v >>> 32).setWidth 32
    else t'.vreg l (d + j) = v.setWidth 32
  uni : ∀ q, a.d = .s q → a.vec = .one →
    let v := Ty.extend a.ty (leNat (bs.take (a.ty.bits / 8)))
    t'.ureg q.toNat = if a.ty.wide then v else (v.setWidth 32).setWidth 64
  regs : ∀ l' q, q < 256 → (l' ≠ l ∨ ∀ d, base = some d → q < d ∨ d + argRegs a ≤ q) → t'.vreg l' q = t.vreg l' q
  uregs : ∀ q, (∀ r, a.d = .s r → r.toNat ≠ q) → t'.ureg q = t.ureg q
  rest : t' = { t with v := t'.v, badV := t'.badV, u := t'.u, badU := t'.badU }

/-- The lanes of a scratchpad instruction served in turn (12 R303, R308): the crew's and the team's contents after them,
and each lane with its address. -/
def spServed (t0 : Team) (known : Bool) (a : MArgs) (f : SpLane) :
    Crew → Team → List Nat → Option (Crew × Team × List (Nat × Nat))
  | cr, t, [] => some (cr, t, [])
  | cr, t, l :: ls =>
    match spAddr t0 (if known then some cr else none) a l (a.vec.n * esOf a.ty) with
    | .error _ => none
    | .ok k =>
      match f cr t l k with
      | .error _ => none
      | .ok (cr', t') => (spServed t0 known a f cr' t' ls).map (fun x => (x.1, x.2.1, (l, k) :: x.2.2))

/-- The bank passes of the requests of an instruction of `n` bytes (11 R284). -/
def passCost (m : Mask) (n : Nat) (atom : Bool) (rq : List (Nat × Nat)) : Nat :=
  ((passWords m).map (fun w => passCycles n atom ((rq.filter (fun x => x.1 / 32 == w)).map (fun x => (x.1 % 32, x.2))))).sum

end Sys2Proof.Machine
end

