-- ==== Sys2Proof/Certificates/Slice0/Obligations.lean ====
section
/-! DEFINITION. The obligations: what the provers are to show of the model, family by family. -/
open Sys2Proof Sys2Proof.Machine

/-- 09 R243: IADD and ISUB, every type, SAT, carry-in and carry-out. -/
def Obligations.IntegerAddAndSubtract : Prop :=
  ∀ (s : State) (a : RArgs) (x y : Nat → Int) (i : Instr) (sub : Bool),
    (i, sub) ∈ [(Instr.iadd a, false), (Instr.isub a, true)] →
    let r := ruleR a (nReg a.ty) (nReg a.ty) 1
    let n := a.ty.bits
    let ci : Nat → Int := fun l => if fnBits a.fn 8 1 = 1 ∧ s.me.predLane (fnBits a.fn 4 4) l = true then 1 else 0
    let res : Nat → LaneRes := fun l =>
      { intRes a.ty a.sat (if sub then x l - y l - ci l else x l + y l + ci l) with
        pw := [(fnBits a.fn 0 4, if sub then decide (x l % 2 ^ n < y l % 2 ^ n + ci l)
                                 else decide (2 ^ n ≤ x l % 2 ^ n + y l % 2 ^ n + ci l))] }
    s.me.ReadsI (s.mask a.g) a.ty a.a x → s.me.ReadsI (s.mask a.g) a.ty a.b y →
    Ready i r s a.d a.ty.wide res → Completes i r s a.d a.ty.wide res

/-- 09 R244, R245. -/
def Obligations.IntegerMultiplyAndCompare : Prop :=
  (∀ (s : State) (a : RArgs) (x y : Nat → Int) (i : Instr) (sat : Bool) (e : Int → Int → Int),
    (i, sat, e) ∈ [(Instr.imul a, a.sat, fun x y => x * y), (Instr.imulh a, false, fun x y => x * y / 2 ^ a.ty.bits),
                   (Instr.imin a, false, fun x y => if x ≤ y then x else y),
                   (Instr.imax a, false, fun x y => if x ≤ y then y else x)] →
    let r := ruleR a (nReg a.ty) (nReg a.ty) 1
    let res := fun l => intRes a.ty sat (e (x l) (y l))
    s.me.ReadsI (s.mask a.g) a.ty a.a x → s.me.ReadsI (s.mask a.g) a.ty a.b y →
    Ready i r s a.d a.ty.wide res → Completes i r s a.d a.ty.wide res) ∧
  (∀ (s : State) (a : RArgs) (x y z : Nat → Int),
    let cty := if fnBits a.fn 0 1 = 1 then (if a.ty.isI then Ty.i64 else Ty.w64) else a.ty
    let r := ruleR a (nReg a.ty) (nReg a.ty) (nReg cty)
    let res := fun l => intRes cty a.sat (x l * y l + z l)
    s.me.ReadsI (s.mask a.g) a.ty a.a x → s.me.ReadsI (s.mask a.g) a.ty a.b y → s.me.ReadsI (s.mask a.g) cty a.c z →
    Ready (.imad a) r s a.d cty.wide res → Completes (.imad a) r s a.d cty.wide res) ∧
  (∀ (s : State) (a : RArgs) (x : Nat → Int),
    let r := ruleR a (nReg a.ty) 1 1
    let res := fun l => intRes a.ty a.sat (|x l|)
    s.me.ReadsI (s.mask a.g) a.ty a.a x →
    Ready (.iabs a) r s a.d a.ty.wide res → Completes (.iabs a) r s a.d a.ty.wide res)

/-- 09 R246. -/
def Obligations.IntegerDivision : Prop :=
  ∀ (s : State) (a : RArgs) (x y : Nat → Int) (i : Instr) (isRem : Bool),
    (i, isRem) ∈ [(Instr.idiv a, false), (Instr.irem a, true)] →
    let r := ruleR a (nReg a.ty) (nReg a.ty) 1
    let res : Nat → LaneRes := fun l =>
      if y l = 0 then { val := Ty.extend a.ty (2 ^ a.ty.bits - 1), dfl := dDIV0 }
      else if isRem then intRes a.ty false (x l - y l * (x l).tdiv (y l)) else intRes a.ty a.sat ((x l).tdiv (y l))
    s.me.ReadsI (s.mask a.g) a.ty a.a x → s.me.ReadsI (s.mask a.g) a.ty a.b y →
    ((∀ l ∈ s.me.lanesOf (s.mask a.g), y l = 0 → s.me.fpmode.getLsbD 15 = false) →
      Ready i r s a.d a.ty.wide res → Completes i r s a.d a.ty.wide res) ∧
    (s.me.fpmode.getLsbD 15 = true → Issues i r s → s.me.DestOk (s.mask a.g) a.d a.ty.wide →
      (a.d.isUni = true → y (s.me.giver (s.mask a.g) a.d 0) = 0 →
        exec i s = .next (State.complete s.cur s.me.pc
          { s := s.setTeam s.cur s.me, k := trapAll s.me.width (s.mask a.g) .idiv0 })) ∧
      (a.d.isUni = false →
        let zero := maskOf ((s.me.lanesOf (s.mask a.g)).filter (fun l => y l == 0))
        s.me.NoFpx (s.mask a.g &&& ~~~ zero) res →
        ∃ t', exec i s = .next (State.complete s.cur s.me.pc
            { s := s.setTeam s.cur t', k := trapAll s.me.width zero .idiv0 }) ∧
          Wrote s.me t' (s.mask a.g &&& ~~~ zero) a.d a.ty.wide res))

/-- 09 R249, by the bit-vector operations of Lean's library. -/
def Obligations.ShiftsAndRotates : Prop :=
  ∀ (s : State) (a : RArgs) (x : Nat → Nat) (y : Nat → W32) (i : Instr) (f : (n : Nat) → BitVec n → Nat → BitVec n),
    (i, f) ∈ ([(Instr.shl a, fun _ v k => v <<< k), (Instr.shr a, fun _ v k => v >>> k),
               (Instr.sar a, fun _ v k => v.sshiftRight k), (Instr.rotl a, fun _ v k => v.rotateLeft k)]
              : List (Instr × ((n : Nat) → BitVec n → Nat → BitVec n))) →
    let r := ruleR a (nReg a.ty) 1 1
    let n := a.ty.bits
    let amt := fun l => if fnBits a.fn 0 1 = 1 then (y l).toNat % n else (y l).toNat
    let res := fun l => patRes a.ty (f n (BitVec.ofNat n (x l)) (amt l)).toNat
    s.me.ReadsP (s.mask a.g) a.ty a.a x → s.me.Reads32 (s.mask a.g) a.b y →
    Ready i r s a.d a.ty.wide res → Completes i r s a.d a.ty.wide res

/-- 09 R248, R252-R254. 09 R250, R251. -/
def Obligations.BitwiseLogic : Prop :=
 ((∀ (s : State) (a : RArgs) (x y : Nat → Nat) (i : Instr) (f : BitVec a.ty.bits → BitVec a.ty.bits → BitVec a.ty.bits),
    (i, f) ∈ ([(Instr.and a, fun u v => u &&& v), (Instr.or a, fun u v => u ||| v), (Instr.xor a, fun u v => u ^^^ v)]
              : List (Instr × (BitVec a.ty.bits → BitVec a.ty.bits → BitVec a.ty.bits))) →
    let r := ruleR a (nReg a.ty) (nReg a.ty) 1
    let res := fun l => patRes a.ty (f (BitVec.ofNat _ (x l)) (BitVec.ofNat _ (y l))).toNat
    s.me.ReadsP (s.mask a.g) a.ty a.a x → s.me.ReadsP (s.mask a.g) a.ty a.b y →
    Ready i r s a.d a.ty.wide res → Completes i r s a.d a.ty.wide res) ∧
  (∀ (s : State) (a : RArgs) (x : Nat → Nat) (i : Instr) (wide : Bool) (f : BitVec a.ty.bits → LaneRes),
    (i, wide, f) ∈ ([(Instr.not a, a.ty.wide, fun u => patRes a.ty (~~~ u).toNat),
                     (Instr.brev a, a.ty.wide, fun u => patRes a.ty u.reverse.toNat),
                     (Instr.popc a, false, fun u => { val := BitVec.ofNat 64 u.cpop.toNat }),
                     (Instr.clz a, false, fun u => { val := BitVec.ofNat 64 u.clz.toNat })]
                    : List (Instr × Bool × (BitVec a.ty.bits → LaneRes))) →
    let r := ruleR a (nReg a.ty) 1 1
    let res := fun l => f (BitVec.ofNat _ (x l))
    s.me.ReadsP (s.mask a.g) a.ty a.a x →
    Ready i r s a.d wide res → Completes i r s a.d wide res) ∧
  (∀ (s : State) (a : RArgs) (x y z q : Nat → Nat),
    let r := ruleR a (nReg a.ty) (nReg a.ty) (nReg a.ty)
    let res := fun l => patRes a.ty (q l)
    (∀ l k, (q l).testBit k = (decide (k < a.ty.bits) && (fnBits a.fn 0 8).testBit
      ((if (x l).testBit k then 1 else 0) + (if (y l).testBit k then 2 else 0) + (if (z l).testBit k then 4 else 0)))) →
    s.me.ReadsP (s.mask a.g) a.ty a.a x → s.me.ReadsP (s.mask a.g) a.ty a.b y → s.me.ReadsP (s.mask a.g) a.ty a.c z →
    Ready (.lop3 a) r s a.d a.ty.wide res → Completes (.lop3 a) r s a.d a.ty.wide res) ∧
  (∀ (s : State) (a : RArgs) (x y : Nat → Nat) (z : Nat → W32),
    let r := ruleR a 1 1 1
    let res := fun l => patRes .b32 (prmtByte (x l) (y l) (z l).toNat 0 + prmtByte (x l) (y l) (z l).toNat 1 * 2 ^ 8 +
      prmtByte (x l) (y l) (z l).toNat 2 * 2 ^ 16 + prmtByte (x l) (y l) (z l).toNat 3 * 2 ^ 24)
    s.me.ReadsP (s.mask a.g) .b32 a.a x → s.me.ReadsP (s.mask a.g) .b32 a.b y → s.me.Reads32 (s.mask a.g) a.c z →
    Ready (.prmt a) r s a.d false res → Completes (.prmt a) r s a.d false res) ∧
  (∀ (s : State) (a : RArgs) (x y : Nat → Nat) (z : Nat → Int),
    let r := ruleR a 1 1 1
    let res := fun l => intRes a.ty a.sat
      (z l + idot (fnBits a.fn 0 1 == 1) (fnBits a.fn 1 1 == 1) (fnBits a.fn 2 1 == 1) (x l) (y l))
    s.me.ReadsP (s.mask a.g) .b32 a.a x → s.me.ReadsP (s.mask a.g) .b32 a.b y → s.me.ReadsI (s.mask a.g) a.ty a.c z →
    Ready (.idot4 a) r s a.d false res → Completes (.idot4 a) r s a.d false res)) ∧
 ((∀ (s : State) (a : RArgs) (x y z : Nat → W32),
    let r := ruleR a 1 1 1
    let k : Nat → Int := fun l => if fnBits a.fn 1 1 = 1 then max (-64) (min 64 (z l).toInt) else ((z l).setWidth 7).toInt
    let v : Nat → W64 := fun l => if 0 ≤ k l then (y l ++ x l) >>> (k l).toNat else (y l ++ x l) <<< (-(k l)).toNat
    let res : Nat → LaneRes := fun l =>
      { val := ((if fnBits a.fn 0 1 = 1 then (v l).extractLsb' 32 32 else (v l).setWidth 32) : W32).setWidth 64 }
    s.me.Reads32 (s.mask a.g) a.a x → s.me.Reads32 (s.mask a.g) a.b y → s.me.Reads32 (s.mask a.g) a.c z →
    Ready (.funsh a) r s a.d false res → Completes (.funsh a) r s a.d false res) ∧
  (∀ (s : State) (a : RArgs) (x : Nat → Nat) (y : Nat → W32) (q : Nat → Nat),
    let r := ruleR a (nReg a.ty) 1 1
    let p := fun l => (y l).toNat % 256
    let w := fun l => min ((y l).toNat / 256 % 256) a.ty.bits
    let top := fun l => (x l).testBit (if p l + w l ≤ a.ty.bits then p l + w l - 1 else a.ty.bits - 1)
    let res := fun l => patRes a.ty (q l)
    (∀ l k, (q l).testBit k = (decide (k < a.ty.bits ∧ 0 < w l) &&
      (if k < w l then (if p l + k < a.ty.bits then (x l).testBit (p l + k) else a.ty.isI && (x l).testBit (a.ty.bits - 1))
       else a.ty.isI && top l))) →
    s.me.ReadsP (s.mask a.g) a.ty a.a x → s.me.Reads32 (s.mask a.g) a.b y →
    Ready (.bfx a) r s a.d a.ty.wide res → Completes (.bfx a) r s a.d a.ty.wide res) ∧
  (∀ (s : State) (a : RArgs) (x y : Nat → Nat) (z : Nat → W32) (q : Nat → Nat),
    let r := ruleR a (nReg a.ty) (nReg a.ty) 1
    let p := fun l => (z l).toNat % 256
    let w := fun l => min ((z l).toNat / 256 % 256) a.ty.bits
    let res := fun l => patRes a.ty (q l)
    (∀ l k, (q l).testBit k = (decide (k < a.ty.bits) &&
      (if p l ≤ k ∧ k < p l + w l then (x l).testBit (k - p l) else (y l).testBit k))) →
    s.me.ReadsP (s.mask a.g) a.ty a.a x → s.me.ReadsP (s.mask a.g) a.ty a.b y → s.me.Reads32 (s.mask a.g) a.c z →
    Ready (.bfi a) r s a.d a.ty.wide res → Completes (.bfi a) r s a.d a.ty.wide res))

/-- 09 R241, R255. -/
def Obligations.MoveSelectAndIndex : Prop :=
  (∀ (s : State) (a : RArgs) (x : Nat → W64),
    let r : Rule := { ruleR a (nReg a.ty) 1 1 with first := a.d.isUni && !a.a.isScalar }
    let res : Nat → LaneRes := fun l => { val := x l }
    s.me.ReadsD (s.mask a.g) a.ty.wide a.a x → Ready (.mov a) r s a.d a.ty.wide res →
    Completes (.mov a) r s a.d a.ty.wide res) ∧
  (∀ (s : State) (a : IArgs),
    let r : Rule := { guard := a.g, scalar := a.d.isScalar }
    let res : Nat → LaneRes := fun _ => { val := if a.ty = .i64 then a.imm.signExtend 64 else a.imm.setWidth 64 }
    Ready (.movi a) r s a.d a.ty.wide res → Completes (.movi a) r s a.d a.ty.wide res) ∧
  (∀ (s : State) (a : IArgs) (x : Nat → W64),
    let r : Rule := { guard := a.g, scalar := a.d.isScalar }
    let res : Nat → LaneRes := fun l => { val := a.imm ++ (x l).setWidth 32 }
    s.me.ReadsD (s.mask a.g) true a.d x → Ready (.moviHi a) r s a.d true res → Completes (.moviHi a) r s a.d true res) ∧
  (∀ (s : State) (a : RArgs) (x y : Nat → W64),
    let r := ruleR a (nReg a.ty) (nReg a.ty) 1
    let res : Nat → LaneRes := fun l =>
      { val := if s.me.predLane (fnBits a.fn 0 4) l = (fnBits a.fn 4 1 == 1) then y l else x l }
    s.me.ReadsD (s.mask a.g) a.ty.wide a.a x → s.me.ReadsD (s.mask a.g) a.ty.wide a.b y →
    Ready (.sel a) r s a.d a.ty.wide res → Completes (.sel a) r s a.d a.ty.wide res) ∧
  (∀ (s : State) (a : RArgs) (x : Nat → W32) (i : Instr) (add : Bool),
    (i, add) ∈ [(Instr.xset a, false), (Instr.xadd a, true)] →
    let r := ruleR a 1 1 1
    let k := fnBits a.fn 0 3
    let e : Nat → Int := fun l => (if add then (s.me.xreg l k).toInt else 0) + (x l).toInt
    let res : Nat → LaneRes := fun l =>
      { xw := some (k, BitVec.ofInt 16 (if a.sat then max (-32768) (min 32767 (e l)) else e l)),
        fl := if a.sat ∧ (e l < -32768 ∨ 32767 < e l) then fSAT else 0 }
    s.me.Reads32 (s.mask a.g) a.a x → Ready i r s .vz false res → Completes i r s .vz false res) ∧
  (∀ (s : State) (a : RArgs),
    let r := ruleR a 1 1 1
    let res : Nat → LaneRes := fun l => { val := ((s.me.xreg l (fnBits a.fn 0 3)).signExtend 32).setWidth 64 }
    Ready (.xget a) r s a.d false res → Completes (.xget a) r s a.d false res)

/-- 10 R262, R263, R267-R269, R273, R274. 08 R217: a value of the format is exact, so no mode moves it. -/
def Obligations.FloatArithmetic : Prop :=
  (∀ (s : State) (a : RArgs) (x y : Nat → Nat) (i : Instr) (f : FEnv → FOut → FOut → FOut),
    let v : FOut → FV := fun o => Ty.val a.ty o.pat
    (i, f) ∈ ([(Instr.fadd a, fun e p q => rnd a.ty e (sumX e.md [some (v p), some (v q)])),
               (Instr.dadd a, fun e p q => rnd a.ty e (sumX e.md [some (v p), some (v q)])),
               (Instr.fsub a, fun e p q => rnd a.ty e (sumX e.md [some (v p), some (v q).neg])),
               (Instr.fmul a, fun e p q => rnd a.ty e (mulX (v p) (v q))),
               (Instr.dmul a, fun e p q => rnd a.ty e (mulX (v p) (v q))),
               (Instr.fdiv a, fun e p q => { pat := (rnd a.ty e (divX (v p) (v q)).1).pat,
                                             fl := (rnd a.ty e (divX (v p) (v q)).1).fl ||| flagIf (divX (v p) (v q)).2 fDZ }),
               (Instr.fmin a, fun _ p q => minmaxF a.ty false p.pat q.pat),
               (Instr.fmax a, fun _ p q => minmaxF a.ty true p.pat q.pat)]
              : List (Instr × (FEnv → FOut → FOut → FOut))) →
    let r := ruleR a (nReg a.ty) (nReg a.ty) 1
    let p := fun l => fsrc a.ty (s.me.envOf a l).fi a.na a.aa (x l)
    let q := fun l => fsrc a.ty (s.me.envOf a l).fi a.nb a.ab (y l)
    let o := fun l => f (s.me.envOf a l) (p l) (q l)
    let res : Nat → LaneRes := fun l => { val := BitVec.ofNat 64 (o l).pat, fl := (o l).fl ||| (p l).fl ||| (q l).fl }
    s.me.ReadsP (s.mask a.g) a.ty a.a x → s.me.ReadsP (s.mask a.g) a.ty a.b y →
    Ready i r s a.d a.ty.wide res → CompletesF i r s a a.d a.ty.wide res) ∧
  (∀ (s : State) (a : RArgs) (x y z : Nat → Nat) (i : Instr), i ∈ [Instr.ffma a, Instr.dfma a] →
    let v : FOut → FV := fun o => Ty.val a.ty o.pat
    let r := ruleR a (nReg a.ty) (nReg a.ty) (nReg a.ty)
    let p := fun l => fsrc a.ty (s.me.envOf a l).fi a.na a.aa (x l)
    let q := fun l => fsrc a.ty (s.me.envOf a l).fi a.nb a.ab (y l)
    let w := fun l => fsrc a.ty (s.me.envOf a l).fi a.nc a.ac (z l)
    let o := fun l => rnd a.ty (s.me.envOf a l)
      (sumX (s.me.envOf a l).md [(v (p l)).mul (v (q l)), some (v (w l))])
    let res : Nat → LaneRes := fun l =>
      { val := BitVec.ofNat 64 (o l).pat, fl := (o l).fl ||| (p l).fl ||| (q l).fl ||| (w l).fl }
    s.me.ReadsP (s.mask a.g) a.ty a.a x → s.me.ReadsP (s.mask a.g) a.ty a.b y → s.me.ReadsP (s.mask a.g) a.ty a.c z →
    Ready i r s a.d a.ty.wide res → CompletesF i r s a a.d a.ty.wide res) ∧
  (∀ (s : State) (a : RArgs) (x : Nat → Nat) (b : Nat → W32) (i : Instr) (f : FEnv → Nat → W32 → FOut),
    (i, f) ∈ ([(Instr.fsqrt a, fun e p _ => rnd a.ty e (sqrtX (Ty.val a.ty p))),
               (Instr.frnd a, fun e p _ => frndX a.ty e p),
               (Instr.fscl a, fun e p b => fsclX a.ty e p (fsclExp (fnBits a.fn 0 1 == 1) b))]
              : List (Instr × (FEnv → Nat → W32 → FOut))) →
    let r := ruleR a (nReg a.ty) 1 1
    let p := fun l => fsrc a.ty (s.me.envOf a l).fi a.na a.aa (x l)
    let o := fun l => f (s.me.envOf a l) (p l).pat (b l)
    let res : Nat → LaneRes := fun l => { val := BitVec.ofNat 64 (o l).pat, fl := (o l).fl ||| (p l).fl }
    s.me.ReadsP (s.mask a.g) a.ty a.a x → s.me.Reads32 (s.mask a.g) a.b b →
    Ready i r s a.d a.ty.wide res → CompletesF i r s a a.d a.ty.wide res) ∧
  (∀ (t : Ty) (v : FEnv) (p : Nat), t ∈ [Ty.f16, Ty.bf16, Ty.f32, Ty.f64] → v.fo = false → p < 2 ^ t.bits →
    Ty.magP t p < Ty.infMag t → rnd t v (Ty.val t p).toX = { pat := p, fl := 0 })

/-- 10 R270-R272, R275; the candidates of the approximate functions are free (log 9). -/
def Obligations.PackedAndApproximate : Prop :=
  (∀ (s : State) (a : RArgs) (x y z : Nat → W32) (i : Instr) (f : FEnv → FV → FV → FV → XR) (cmp : Option Bool),
    let t := elemTy a.ty
    (i, f, cmp) ∈ ([(Instr.hadd2 a, fun e p q _ => sumX e.md [some p, some q], none),
                    (Instr.hmul2 a, fun _ p q _ => mulX p q, none),
                    (Instr.hfma2 a, fun e p q w => sumX e.md [p.mul q, some w], none),
                    (Instr.hmin2 a, fun _ p _ _ => p.toX, some false),
                    (Instr.hmax2 a, fun _ p _ _ => p.toX, some true)]
                   : List (Instr × (FEnv → FV → FV → FV → XR) × Option Bool)) →
    let r := ruleR a 1 1 1
    let el : Nat → Nat → FOut := fun l j =>
      let e := { s.me.envOf a l with w := rotl (s.me.envOf a l).w (4 * j) }
      let p := fsrc t e.fi a.na a.aa (half (x l).toNat j)
      let q := fsrc t e.fi a.nb a.ab (half (y l).toNat (bswElem (fnBits a.fn 0 2) j))
      let w := fsrc t e.fi a.nc a.ac (half (z l).toNat j)
      let o := match cmp with
        | some m => minmaxF t m p.pat q.pat
        | none => rnd t e (f e (Ty.val t p.pat) (Ty.val t q.pat) (Ty.val t w.pat))
      { pat := o.pat, fl := o.fl ||| p.fl ||| q.fl ||| w.fl }
    let res : Nat → LaneRes := fun l =>
      { val := BitVec.ofNat 64 ((el l 0).pat + (el l 1).pat * 2 ^ 16), fl := (el l 0).fl ||| (el l 1).fl }
    s.me.Reads32 (s.mask a.g) a.a x → s.me.Reads32 (s.mask a.g) a.b y → s.me.Reads32 (s.mask a.g) a.c z →
    Ready i r s a.d false res → CompletesF i r s a a.d false res) ∧
  (∀ (s : State) (a : RArgs) (x y z : Nat → W32),
    let t := elemTy a.ty
    let r := ruleR a 1 1 1
    let p := fun l j => fsrc t (s.me.envOf a l).fi a.na a.aa (half (x l).toNat j)
    let q := fun l j => fsrc t (s.me.envOf a l).fi a.nb a.ab (half (y l).toNat j)
    let w := fun l => fsrc .f32 (s.me.envOf a l).fi a.nc a.ac (z l).toNat
    let o := fun l => rnd .f32 (s.me.envOf a l) (sumX (s.me.envOf a l).md
      [(Ty.val t (p l 0).pat).mul (Ty.val t (q l 0).pat), (Ty.val t (p l 1).pat).mul (Ty.val t (q l 1).pat),
       some (Ty.val .f32 (w l).pat)])
    let res : Nat → LaneRes := fun l =>
      { val := BitVec.ofNat 64 (o l).pat,
        fl := (o l).fl ||| (p l 0).fl ||| (p l 1).fl ||| (q l 0).fl ||| (q l 1).fl ||| (w l).fl }
    s.me.Reads32 (s.mask a.g) a.a x → s.me.Reads32 (s.mask a.g) a.b y → s.me.Reads32 (s.mask a.g) a.c z →
    Ready (.fdot2 a) r s a.d false res → CompletesF (.fdot2 a) r s a a.d false res) ∧
  (∀ (s : State) (a : RArgs) (x : Nat → Nat) (i : Instr) (fn : ApproxFn),
    (i, fn) ∈ [(Instr.frcp a, ApproxFn.rcp), (Instr.frsq a, .rsq), (Instr.fexp2 a, .exp2), (Instr.flog2 a, .log2),
               (Instr.fsin a, .sin), (Instr.fcos a, .cos), (Instr.ftanh a, .tanh)] →
    let r := ruleR a 1 1 1
    let p := fun l => fsrc .f32 (s.me.envOf a l).fi a.na a.aa (x l)
    let o := fun l => approxX fn (s.me.envOf a l) (BitVec.ofNat 32 (p l).pat) (p l).pat
    let res : Nat → LaneRes := fun l => { val := BitVec.ofNat 64 (o l).pat, fl := (o l).fl ||| (p l).fl }
    s.me.ReadsP (s.mask a.g) .f32 a.a x → Ready i r s a.d false res → CompletesF i r s a a.d false res) ∧
  (∀ (s : State) (a : RArgs) (x : Nat → Nat),
    let r := ruleR a (nReg a.ty) 1 1
    let res : Nat → LaneRes := fun l =>
      { val := (fclassX a.ty (x l)).setWidth 64,
        pw := [(fnBits a.fn 10 4, decide ((fclassX a.ty (x l)).toNat &&& fnBits a.fn 0 10 ≠ 0))] }
    s.me.ReadsP (s.mask a.g) a.ty a.a x → Ready (.fclass a) r s a.d false res → Completes (.fclass a) r s a.d false res)

/-- 10 R277-R281. -/
def Obligations.Conversions : Prop :=
  (∀ (s : State) (a : RArgs) (x : Nat → W64),
    let st := styOf a.fn
    let r := ruleR a (nReg st) 1 1
    let o := fun l => convert st a.ty (s.me.envOf a l) a.na a.aa ((x l).toNat / 2 ^ (st.bits * fnBits a.fn 8 4) % 2 ^ st.bits)
    let res : Nat → LaneRes := fun l =>
      { val := Ty.extend a.ty (o l).1.pat, fl := (o l).1.fl, dfl := if (o l).2 then dBADT else 0 }
    s.me.ReadsD (s.mask a.g) st.wide a.a x → Ready (.cvt a) r s a.d a.ty.wide res →
    CompletesF (.cvt a) r s a a.d a.ty.wide res) ∧
  (∀ (s : State) (a : RArgs) (x y : Nat → W64) (z : Nat → W32) (q : Nat → Nat),
    let st := styOf a.fn
    let n := a.ty.bits
    let pos := fnBits a.fn 8 3
    let r := ruleR a (nReg st) (nReg st) 1
    let u := fun l => convert st a.ty (s.me.envOf a l) a.na a.aa ((x l).toNat % 2 ^ st.bits)
    let w := fun l => convert st a.ty { s.me.envOf a l with w := rotl (s.me.envOf a l).w 4 } a.nb a.ab
      ((y l).toNat % 2 ^ st.bits)
    let res : Nat → LaneRes := fun l =>
      { val := BitVec.ofNat 64 (q l), fl := (u l).1.fl ||| (w l).1.fl, dfl := if (u l).2 || (w l).2 then dBADT else 0 }
    (∀ l k, (q l).testBit k = if n * pos ≤ k ∧ k < n * pos + n then (u l).1.pat.testBit (k - n * pos)
      else if n * pos + n ≤ k ∧ k < n * pos + 2 * n then (w l).1.pat.testBit (k - (n * pos + n)) else (z l).toNat.testBit k) →
    s.me.ReadsD (s.mask a.g) st.wide a.a x → s.me.ReadsD (s.mask a.g) st.wide a.b y → s.me.Reads32 (s.mask a.g) a.c z →
    Ready (.cvtpk a) r s a.d false res → CompletesF (.cvtpk a) r s a a.d false res)

/-- 07 R204-R208. -/
def Obligations.ComparisonsAndPredicateMoves : Prop :=
  (∀ (s : State) (a : RArgs) (x y : Nat → W64) (i : Instr) (rel : W64 → W64 → Bool) (fl : W64 → W64 → W32),
    let u : W64 → FOut := fun w => fsrc a.ty a.ftzi a.na a.aa (w.toNat % 2 ^ a.ty.bits)
    let v : W64 → FOut := fun w => fsrc a.ty a.ftzi a.nb a.ab (w.toNat % 2 ^ a.ty.bits)
    (i, rel, fl) ∈ ([(Instr.pcmpi a, fun p q => match fnBits a.fn 0 4 with
                        | 0 => decide (Ty.intVal a.ty p.toNat = Ty.intVal a.ty q.toNat)
                        | 1 => decide (Ty.intVal a.ty p.toNat ≠ Ty.intVal a.ty q.toNat)
                        | 2 => decide (Ty.intVal a.ty p.toNat < Ty.intVal a.ty q.toNat)
                        | 3 => decide (Ty.intVal a.ty p.toNat ≤ Ty.intVal a.ty q.toNat)
                        | 4 => decide (Ty.intVal a.ty q.toNat < Ty.intVal a.ty p.toNat)
                        | _ => decide (Ty.intVal a.ty q.toNat ≤ Ty.intVal a.ty p.toNat), fun _ _ => 0),
                     (Instr.pcmpf a, fun p q => relFlt (fnBits a.fn 0 4) (Ty.val a.ty (u p).pat) (Ty.val a.ty (v q).pat),
                      fun p q => (u p).fl ||| (v q).fl ||| (if ((Ty.val a.ty (u p).pat).isNan ∨ (Ty.val a.ty (v q).pat).isNan) ∧
                        2 ≤ fnBits a.fn 0 4 ∧ fnBits a.fn 0 4 ≤ 5 then fIV else 0))]
                    : List (Instr × (W64 → W64 → Bool) × (W64 → W64 → W32))) →
    let r := ruleR a (nReg a.ty) (nReg a.ty) 1
    let bop := fnBits a.fn 16 2
    let comb : Nat → Bool → Bool := fun l b =>
      let q := s.me.predLane (fnBits a.fn 12 4) l ^^ (fnBits a.fn 18 1 == 1)
      if bop = 0 then b else if bop = 1 then b && q else if bop = 2 then b || q else b ^^ q
    let res : Nat → LaneRes := fun l =>
      { pw := [(fnBits a.fn 4 4, comb l (rel (x l) (y l))), (fnBits a.fn 8 4, comb l (!(rel (x l) (y l))))],
        fl := fl (x l) (y l) }
    s.me.ReadsD (s.mask a.g) a.ty.wide a.a x → s.me.ReadsD (s.mask a.g) a.ty.wide a.b y →
    Ready i r s .vz false res → Completes i r s .vz false res) ∧
  (∀ (s : State) (a : RArgs),
    let r := ruleR a 1 1 1
    let b : Nat → Bool := fun l => (fnBits a.fn 16 4).testBit
      (2 * (s.me.predLane (fnBits a.fn 4 4) l).toNat + (s.me.predLane (fnBits a.fn 8 4) l).toNat)
    let res : Nat → LaneRes := fun l => { pw := [(fnBits a.fn 0 4, b l), (fnBits a.fn 12 4, !(b l))] }
    Ready (.plog a) r s .vz false res → Completes (.plog a) r s .vz false res) ∧
  (∀ (s : State) (a : RArgs) (q : Nat → W32),
    let r := ruleR a 1 1 1
    let res : Nat → LaneRes := fun l => { val := (q l).setWidth 64 }
    (∀ l k, (q l).getLsbD k = (decide (k < 16) && s.me.predLane k l)) →
    Ready (.pmovPack a) r s a.d false res → Completes (.pmovPack a) r s a.d false res) ∧
  (∀ (s : State) (a : RArgs) (x : Nat → W32) (i : Instr) (f : Nat → Nat → Bool),
    (i, f) ∈ ([(Instr.pmovUnpack a, fun l k => (x l).getLsbD k), (Instr.pmovSet a, fun _ _ => fnBits a.fn 2 1 == 1)]
              : List (Instr × (Nat → Nat → Bool))) →
    let r := ruleR a 1 1 1
    let sel := (List.range 16).filter (fun k => decide (1 ≤ k) && a.fn.getLsbD (2 + k))
    let res : Nat → LaneRes := fun l => { pw := sel.map (fun k => (k, f l k)) }
    s.me.Reads32 (s.mask a.g) a.a x → Ready i r s .vz false res → Completes i r s .vz false res)

/-- 07 R209; 09 R256-R260. That MATCH with TYPE w64 writes one 32-bit register is the model's choice (log 79). -/
def Obligations.VotesAndCrossLaneExchange : Prop :=
 (∀ (s : State) (a : RArgs),
    let r := ruleR a 1 1 1
    let T := s.mask a.g
    let ps := s.me.pred (fnBits a.fn 3 4)
    let V := T &&& (if fnBits a.fn 7 1 = 1 then ~~~ ps else ps)
    (∀ (i : Instr) (b : Bool),
      (i, b) ∈ [(Instr.voteAll a, decide (V = T)), (Instr.voteAny a, decide (V ≠ 0)),
                (Instr.voteUni a, decide (V = T ∨ V = 0))] →
      let res : Nat → LaneRes := fun _ => { pw := [(fnBits a.fn 8 4, b)] }
      Ready i r s .vz false res → Completes i r s .vz false res) ∧
    (
      let res : Nat → LaneRes := fun l =>
        { val := (V.extractLsb' (32 * (if fnBits a.fn 17 1 = 1 then l / 32 else fnBits a.fn 12 5)) 32).setWidth 64 }
      Ready (.voteBallot a) r s a.d false res → Completes (.voteBallot a) r s a.d false res) ∧
    (
      let res : Nat → LaneRes := fun _ =>
        { val := BitVec.ofNat 64 ((List.range s.me.width).countP (fun l => V.getLsbD l)) }
      Ready (.voteCount a) r s a.d false res → Completes (.voteCount a) r s a.d false res)) ∧
 ((∀ (s : State) (a : RArgs) (x : Nat → W64) (y : Nat → W32),
    let r := ruleR a (nReg a.ty) 1 1
    let T := s.mask a.g
    let z := segSize (fnBits a.fn 2 4)
    let src : Nat → Int := fun l => match fnBits a.fn 0 2 with
      | 0 => ((y l).toNat : Int)
      | 1 => (((l % z + (y l).toNat) % z : Nat) : Int)
      | 2 => ((l % z : Nat) : Int) + (y l).toInt
      | _ => ((l % z ^^^ (y l).toNat : Nat) : Int)
    let ok : Nat → Bool := fun l =>
      decide (0 ≤ src l ∧ src l < z ∧ l / z * z + (src l).toNat ∈ s.me.lanesOf T)
    let res : Nat → LaneRes := fun l =>
      { val := if ok l then x (l / z * z + (src l).toNat) else 0, pw := [(fnBits a.fn 6 4, ok l)] }
    s.me.ReadsD T a.ty.wide a.a x → s.me.Reads32 T a.b y →
    Ready (.shfl a) r s a.d a.ty.wide res → Completes (.shfl a) r s a.d a.ty.wide res) ∧
  (∀ (s : State) (a : RArgs) (x : Nat → W64) (i : Instr) (pick : Nat → Nat → Bool),
    (i, pick) ∈ ([(Instr.redux a, fun _ _ => true),
                  (Instr.scan a, fun l j => decide (j < l) || (decide (fnBits a.fn 7 1 ≠ 1) && decide (j = l)))]
                 : List (Instr × (Nat → Nat → Bool))) →
    let r := ruleR a (nReg a.ty) 1 1
    let T := s.mask a.g
    let z := segSize (fnBits a.fn 3 4)
    let cs : Nat → List Nat := fun l => (s.me.lanesOf T).filter (fun j =>
      (a.d.isUni || decide (j / z * z = l / z * z)) && pick l j)
    let res : Nat → LaneRes := fun l =>
      intRes a.ty a.sat (combine (fnBits a.fn 0 3) a.ty ((cs l).map (fun j => Ty.intVal a.ty (x j).toNat)))
    s.me.ReadsD T a.ty.wide a.a x →
    Ready i r s a.d a.ty.wide res → Completes i r s a.d a.ty.wide res) ∧
  (∀ (s : State) (a : RArgs) (x : Nat → W64),
    let r := ruleR a (nReg a.ty) 1 1
    let T := s.mask a.g
    let z := segSize (fnBits a.fn 11 4)
    let q : Nat → List Nat := fun l => (s.me.lanesOf T).filter (fun j => decide (j / z * z = l / z * z ∧ x j = x l))
    let word : Nat → Nat → W32 := fun l w => (maskOf (q l)).extractLsb' (32 * w) 32
    let res : Nat → LaneRes := fun l =>
      { val := match fnBits a.fn 0 2 with
          | 0 => (word l (l / 32)).setWidth 64
          | 1 => (word l (fnBits a.fn 2 5)).setWidth 64
          | 2 => BitVec.ofNat 64 (q l).length
          | _ => BitVec.ofNat 64 ((q l).headD 0),
        pw := [(fnBits a.fn 7 4, decide ((q l).headD l = l))] }
    s.me.ReadsD T a.ty.wide a.a x →
    Ready (.matchLanes a) r s a.d false res → Completes (.matchLanes a) r s a.d false res))

/-- 08 R230, 09 R236, R237, R240, 16 R400. In mode SR a uniform destination takes the word of the lowest lane of T: the
model's choice (log 80). -/
def Obligations.LanesTrapOnTheirOwn : Prop :=
  (∀ (s : State) (a : RArgs) (i : Instr) (f : (Nat → Int) → (Nat → Int) → Nat → LaneRes),
    let n := a.ty.bits
    let ci : Nat → Int := fun l => if fnBits a.fn 8 1 = 1 ∧ s.me.predLane (fnBits a.fn 4 4) l = true then 1 else 0
    (i, f) ∈ ([(Instr.iadd a, fun x y l => { intRes a.ty a.sat (x l + y l + ci l) with
                  pw := [(fnBits a.fn 0 4, decide (2 ^ n ≤ x l % 2 ^ n + y l % 2 ^ n + ci l))] }),
               (Instr.isub a, fun x y l => { intRes a.ty a.sat (x l - y l - ci l) with
                  pw := [(fnBits a.fn 0 4, decide (x l % 2 ^ n < y l % 2 ^ n + ci l))] }),
               (Instr.imul a, fun x y l => intRes a.ty a.sat (x l * y l)),
               (Instr.imulh a, fun x y l => intRes a.ty false (x l * y l / 2 ^ n)),
               (Instr.imin a, fun x y l => intRes a.ty false (if x l ≤ y l then x l else y l)),
               (Instr.imax a, fun x y l => intRes a.ty false (if x l ≤ y l then y l else x l))]
              : List (Instr × ((Nat → Int) → (Nat → Int) → Nat → LaneRes))) →
    let res := f (fun l => (s.me.opI l a.ty a.a).toOption.getD 0) (fun l => (s.me.opI l a.ty a.b).toOption.getD 0)
    let l0 := s.me.giver (s.mask a.g) a.d 0
    Issues i (ruleR a (nReg a.ty) (nReg a.ty) 1) s →
    (a.d.isUni = false → Splits i s a res s.me.srseed) ∧
    (a.d.isUni = true → s.me.lanesOf (s.mask a.g) ≠ [] → s.me.badLane a l0 = false → (res l0).fl &&& s.me.ten ≠ 0 →
      SplitsUni i s a (res l0) s.me.srseed)) ∧
  (∀ (s : State) (a : RArgs) (i : Instr) (f : FEnv → FOut → FOut → FOut),
    let v : FOut → FV := fun o => Ty.val a.ty o.pat
    (i, f) ∈ ([(Instr.fadd a, fun e p q => rnd a.ty e (sumX e.md [some (v p), some (v q)])),
               (Instr.dadd a, fun e p q => rnd a.ty e (sumX e.md [some (v p), some (v q)])),
               (Instr.fsub a, fun e p q => rnd a.ty e (sumX e.md [some (v p), some (v q).neg])),
               (Instr.fmul a, fun e p q => rnd a.ty e (mulX (v p) (v q))),
               (Instr.dmul a, fun e p q => rnd a.ty e (mulX (v p) (v q))),
               (Instr.fdiv a, fun e p q => { pat := (rnd a.ty e (divX (v p) (v q)).1).pat,
                                             fl := (rnd a.ty e (divX (v p) (v q)).1).fl ||| flagIf (divX (v p) (v q)).2 fDZ }),
               (Instr.fmin a, fun _ p q => minmaxF a.ty false p.pat q.pat),
               (Instr.fmax a, fun _ p q => minmaxF a.ty true p.pat q.pat)]
              : List (Instr × (FEnv → FOut → FOut → FOut))) →
    let p := fun l => fsrc a.ty (s.me.envOf a l).fi a.na a.aa ((s.me.opP l a.ty a.a).toOption.getD 0)
    let q := fun l => fsrc a.ty (s.me.envOf a l).fi a.nb a.ab ((s.me.opP l a.ty a.b).toOption.getD 0)
    let o := fun l => f (s.me.envOf a l) (p l) (q l)
    let res : Nat → LaneRes := fun l => { val := BitVec.ofNat 64 (o l).pat, fl := (o l).fl ||| (p l).fl ||| (q l).fl }
    let l0 := s.me.giver (s.mask a.g) a.d 0
    Issues i (ruleR a (nReg a.ty) (nReg a.ty) 1) s →
    (a.d.isUni = false → Splits i s a res (s.me.seedAfter a)) ∧
    (a.d.isUni = true → s.me.lanesOf (s.mask a.g) ≠ [] → s.me.badLane a l0 = false → (res l0).fl &&& s.me.ten ≠ 0 →
      SplitsUni i s a (res l0) (s.me.seedAfter a)))

/-- 07 R182, R192. -/
def Obligations.BranchesTakeOnePathAtATime : Prop :=
  ∀ (s : State) (a : BArgs) (i : Instr) (r : Rule) (target : W64),
    (i, r, target) ∈ ([(Instr.bra a, { guard := a.g }, blockOf s.me.pc + a.disp.signExtend 64 * 64),
                       (Instr.brx a, { guard := a.g, srcs := [(a.a, 1)] }, s.me.opndU a.a + a.disp.signExtend 64 * 64)]
                      : List (Instr × Rule × W64)) →
    Issues i r s →
    let T := s.mask a.g
    let F := s.me.cur &&& ~~~ T
    let pends := fun (e : DivEntry) => e.st = .opened ∨ (e.st = .pend ∧ e.pp = target)
    (T = 0 → exec i s = .next (s.after s)) ∧
    (T ≠ 0 → target.toNat % 64 ≠ 0 →
      exec i s = .next (State.complete s.cur s.me.pc { s := s, k := trapAll s.me.width T .alignb })) ∧
    (T ≠ 0 → target.toNat % 64 = 0 → F = 0 → exec i s = .next (s.leave s.cur s.me.pc (.jump target))) ∧
    (T ≠ 0 → target.toNat % 64 = 0 → F ≠ 0 → ∀ e st, s.me.stack = e :: st → pends e →
      exec i s = .next (s.after (s.setTeam s.cur
        { s.me with active := F, stack := { e with pm := e.pm ||| T, pp := target, st := .pend } :: st }))) ∧
    (T ≠ 0 → target.toNat % 64 = 0 → F ≠ 0 → (∀ e st, s.me.stack = e :: st → ¬ pends e) →
      exec i s = .next (State.complete s.cur s.me.pc { s := s, k := trapAll s.me.width s.me.cur .divstk }))

/-- 07 R193. -/
def Obligations.CallsAndReturnsMoveTheWholePath : Prop :=
  ∀ (s : State) (a : BArgs) (i : Instr) (r : Rule) (target : W64) (link : Operand),
    (i, r, target, link) ∈
      ([(Instr.call a, { guard := a.g, ends := true }, blockOf s.me.pc + a.disp.signExtend 64 * 64, a.d),
        (Instr.callx a, { guard := a.g, ends := true, srcs := [(a.a, 1)] },
          s.me.opndU a.a + a.disp.signExtend 64 * 64, a.d),
        (Instr.ret a, { guard := a.g, srcs := [(a.a, 1)] }, s.me.opndU a.a, Operand.vz)]
       : List (Instr × Rule × W64 × Operand)) →
    Issues i r s →
    let T := s.mask a.g
    let F := s.me.cur &&& ~~~ T
    (T = 0 → exec i s = .next (s.after s)) ∧
    (T ≠ 0 → F ≠ 0 →
      exec i s = .next (State.complete s.cur s.me.pc { s := s, k := trapAll s.me.width s.me.cur .divstk })) ∧
    (T ≠ 0 → F = 0 → target.toNat % 64 ≠ 0 →
      exec i s = .next (State.complete s.cur s.me.pc { s := s, k := trapAll s.me.width T .alignb })) ∧
    (T ≠ 0 → F = 0 → target.toNat % 64 = 0 →
      exec i s = .next ((s.setTeam s.cur (s.me.putUni true link (blockOf s.me.pc + 64))).leave s.cur s.me.pc (.jump target)))

/-- 07 R183, R185, R194-R196. -/
def Obligations.SplitJoinAndExit : Prop :=
  (∀ (s : State) (a : BArgs), Issues (.split a) { guard := a.g } s →
    (s.me.stack.length < 32 → exec (.split a) s = .next (s.after (s.setTeam s.cur { s.me with
      stack := { sm := s.me.cur, j := blockOf s.me.pc + a.disp.signExtend 64 * 64, st := .opened, pm := 0, pp := 0, am := 0 }
        :: s.me.stack }))) ∧
    (32 ≤ s.me.stack.length → exec (.split a) s =
      .next (State.complete s.cur s.me.pc { s := s, k := trapAll s.me.width s.me.cur .divstk }))) ∧
  (∀ (s : State) (a : BArgs), Issues (.join a) { guard := a.g, ends := true } s →
    let expect := fun (e : DivEntry) => e.sm &&& s.me.live &&& ~~~ s.me.exited
    (s.me.stack = [] → exec (.join a) s =
      .next (State.complete s.cur s.me.pc { s := s, k := trapAll s.me.width s.me.cur .divstk })) ∧
    (∀ e st, s.me.stack = e :: st → e.st = .pend →
      exec (.join a) s = .next ((s.setTeam s.cur { s.me with
        sig := crc24 (if s.me.cur ||| e.pm = expect e then 1 else 0) 1 s.me.sig, active := e.pm,
        stack := { e with am := s.me.cur, pm := 0, st := .switched } :: st }).leave s.cur s.me.pc (.jump e.pp))) ∧
    (∀ e st, s.me.stack = e :: st → e.st ≠ .pend →
      exec (.join a) s = .next ((s.setTeam s.cur { s.me with
        sig := crc24 (if e.am ||| s.me.cur = expect e then 1 else 0) 1 s.me.sig, active := expect e,
        stack := st }).leave s.cur s.me.pc (.jump e.j)))) ∧
  (∀ (s : State) (a : BArgs), Issues (.exit a) { guard := a.g } s →
    let T := s.mask a.g
    (T = 0 → exec (.exit a) s = .next (s.after s)) ∧
    (T ≠ 0 → isThread s.cur = false → exec (.exit a) s = .next (s.after (s.setTeam s.cur { s.me with
      exited := s.me.exited ||| T, active := s.me.active &&& ~~~ T,
      stack := s.me.stack.map (fun e => { e with sm := e.sm &&& ~~~ T, pm := e.pm &&& ~~~ T, am := e.am &&& ~~~ T }) }))) ∧
    (T ≠ 0 → isThread s.cur = true → s.me.sigBad s.me.pc = false → (s.thread s.cur).eid = 0 →
      exec (.exit a) s = .next (s.stopThread s.cur)) ∧
    (T ≠ 0 → isThread s.cur = true → s.me.sigBad s.me.pc = false → (s.thread s.cur).eid ≠ 0 →
      exec (.exit a) s = .next (s.enexit s.cur)))

/-- 06 R139-R141; 07 R183-R188, R198, R199, R210; 05 R135. -/
def Obligations.LeavingASlot : Prop :=
  (∀ (s : State) (g : Nat) (pc : W64), let t := s.team g
    t.cur ≠ 0 → t.sigBad pc = false →
    ∃ u, s.leave g pc .seq = s.setTeam g u ∧
      u = { t with
        pc := u.pc, sig := u.sig, block := u.block, folded := u.folded, replay := none, counted := [], waiting := none
        frame := if t.replay = none then t.frame else { t.frame with rpm := 0 } } ∧
      u.folded = false ∧
      (t.lastSlot pc = false → u.pc = pc + 1 ∧ u.sig = t.sig ∧ u.block = t.block) ∧
      (t.lastSlot pc = true → u.pc = blockOf pc + 64 ∧ u.block = [] ∧
        u.sig = if t.header.sigx = true then 0 else t.sig)) ∧
  (∀ (t : Team) (pc : W64), t.sigBad pc = true ↔
    t.header.sigx = true ∧ t.lastSlot pc = true ∧ t.sig ≠ t.header.sig) ∧
  (∀ (s : State) (g : Nat) (pc : W64) (fl : Flow), (s.team g).sigBad pc = true → isThread g = false →
    let t := s.team g
    let u := (s.leave g pc fl).team g
    u.live = 0 ∧ u.run = .ended ∧ (s.leave g pc fl).mem = s.mem ∧ (t.live ≠ 0 → u.trapcause = Cause.code .sigmis ∧ u.trappc = pc)) ∧
  (∀ (s : State) (a : SArgs), Issues (.nop a) (ruleS a) s → exec (.nop a) s = .next (s.after s)) ∧
  (∀ (s : State) (a : SArgs), Issues (.yield a) (ruleS a) s →
    let n := a.sfn.toNat % 2 ^ 10
    (s.mask a.g = 0 ∨ n = 0 → exec (.yield a) s = .next (s.after s)) ∧
    (s.mask a.g ≠ 0 → n ≠ 0 → s.me.waiting = none → exec (.yield a) s = .next (s.waits (.yield a) (s.mcyc s.cur + 1000 * n)))) ∧
  (∀ (s : State) (g : Nat) (w : Waiting) (a : SArgs), (s.team g).waiting = some w → w.instr = .yield a →
    (w.until_ ≤ s.mcyc g → w.ue = 0 → exec (.yieldEnd g) s =
      .next ((s.setTeam g { s.team g with since := s.mcyc g }).leave g (s.team g).pc .seq)) ∧
    (w.until_ ≤ s.mcyc g → isThread g = false → w.ue ≠ 0 →
      ∃ u, exec (.yieldEnd g) s = .next u ∧ (u.team g).live &&& w.ue = 0) ∧
    (s.mcyc g < w.until_ → exec (.yieldEnd g) s = .next s))

/-- 06 R161, 07 R200-R203, 08 R224, R228, R229; a write to sr.tag is the statement TagRegister. -/
def Obligations.SpecialRegistersReadAndWrite : Prop :=
  (∀ (s : State) (a : SArgs),
    let r := ruleS a
    let num := a.sfn.toNat % 2 ^ 8
    let wide := srWide num
    let res : Nat → LaneRes := fun l => { val := s.special s.cur l num (a.sfn.toNat / 2 ^ 8 % 2 ^ 5) }
    Ready (.rdsr a) r s a.d wide res → Completes (.rdsr a) r s a.d wide res) ∧
  (∀ (s : State) (g l w : Nat),
    let t := s.team g
    (∀ x ∈ [(0x00, BitVec.ofNat 64 l), (0x07, BitVec.ofNat 64 t.width), (0x08, (t.live.extractLsb' (32 * w) 32).setWidth 64),
            (0x10, t.fpmode.setWidth 64), (0x11, t.srseed.setWidth 64), (0x12, t.fpflags.setWidth 64),
            (0x13, t.devflags.setWidth 64), (0x14, t.tag.setWidth 64), (0x19, BitVec.ofNat 64 s.clk.ptp), (0x1B, t.sppass),
            (0x20, t.trapcause.setWidth 64), (0x21, t.trappc), (0x22, (t.trapmask.extractLsb' (32 * w) 32).setWidth 64),
            (0x28, BitVec.ofNat 64 t.regs), (0x29, BitVec.ofNat 64 t.uwc.length)], s.special g l x.1 w = x.2) ∧
    (isThread g = true → ∀ n ∈ [0x02, 0x03, 0x04], s.special g l n w = 0xFFFFFFFF)) ∧
  (∀ (s : State) (a : SArgs), Issues (.wrsr a) (ruleS a) s →
    let v : W32 := (s.me.opndU a.a).setWidth 32
    (s.mask a.g = 0 → exec (.wrsr a) s = .next (s.after s)) ∧
    (s.mask a.g ≠ 0 → ∀ x ∈ [(0x10, { s.me with fpmode := v &&& 0xFF3F }), (0x12, { s.me with fpflags := v &&& 0x7F }),
        (0x13, { s.me with devflags := v &&& 0x3F }),
        (0x11, { s.me with srseed := if v = 0 then 0x2545F491 else v, amovGen := if v = 0 then 0x2545F491 else v })],
      a.sfn.toNat % 2 ^ 8 = x.1 → exec (.wrsr a) s = .next (s.after (s.setTeam s.cur x.2)))) ∧
  (∀ (s : State) (a : SArgs), Issues (.clock a) (ruleS a) s →
    (s.mask a.g = 0 → exec (.clock a) s = .next (s.after s)) ∧
    (s.mask a.g ≠ 0 → exec (.clock a) s = .next (s.after (s.setTeam s.cur (s.me.putUni true a.d
      (if a.sfn.toNat % 2 = 0 then s.cycle s.cur else BitVec.ofNat 64 s.clk.ptp)))))) ∧
  (∀ (s : State) (a : SArgs), Issues (.bpt a) (ruleS a) s →
    exec (.bpt a) s = .next (State.complete s.cur s.me.pc { s := s, k := trapAll s.me.width (s.mask a.g) .bpt }))

/-- 01 R25, R26, 06 R165, R166; the rest of `exec` is then the trap's entry. -/
def Obligations.IssueChecksTrap : Prop :=
 (∀ (i : Instr) (op : Nat) (s : State), opcode i = some op →
    let traps := fun c => exec i s =
      .next (State.complete s.cur s.me.pc { s := s, k := trapAll s.me.width s.me.cur c })
    let lacks := (isThread s.cur = true ∧ simtOnly op = true) ∨ (isThread s.cur = false ∧ threadOnly op = true)
    (lacks → traps .illop) ∧
    (¬ lacks → wellFormed i = false → traps .illenc) ∧
    let within := fun (rs : List (Nat × Nat)) => ∃ x ∈ rs, x.1 ≤ op ∧ op ≤ x.2
    let denied := (s.me.role = .vx ∧ within [(0x153, 0x157), (0x159, 0x15B), (0x1C0, 0x1C7)]) ∨
      (s.me.role = .mx ∧ within [(0x05C, 0x063), (0x0C0, 0x0DC), (0x142, 0x157), (0x159, 0x15B), (0x280, 0x280)]) ∨
      (s.me.role = .cp ∧ within [(0x05C, 0x063), (0x0C0, 0x0DC), (0x142, 0x152), (0x1C0, 0x1C7), (0x280, 0x280)])
    (¬ lacks → wellFormed i = true → denied →
      traps .role ∨ (within [(0x142, 0x152), (0x153, 0x157), (0x1C0, 0x1C7)] ∧ traps .illenc)) ∧
    (¬ lacks → wellFormed i = true → s.me.role = .solo → 0x286 ≤ op → levelOne op = true →
      s.levelOf s.cur = .l0 → traps .priv)) ∧
 (∀ (a : RArgs) (i : Instr) (s : State), i ∈ [Instr.mov a, .sel a, .iadd a, .isub a, .imul a, .imulh a, .imad a, .imin a, .imax a,
      .iabs a, .idiv a, .irem a, .lop3 a, .and a, .or a, .xor a, .not a, .shl a, .shr a, .sar a, .rotl a, .funsh a, .bfx a,
      .bfi a, .popc a, .clz a, .brev a, .prmt a] → wellFormed i = true → s.me.role = .mx ∨ s.me.role = .cp →
    (a.d.isScalar && a.a.isScalar && a.b.isScalar && a.c.isScalar) = false →
    exec i s = .next (State.complete s.cur s.me.pc { s := s, k := trapAll s.me.width s.me.cur .role }))

/-- 16 R400-R403. 01 R16, 07 R180, 16 R407. The cause listed for each dead lane is DEDUCED (log 16). -/
def Obligations.TrapsOfTeamsFollowThePolicy : Prop :=
 (∀ (s : State) (g : Nat) (pc : W64) (m : Mask) (c : Cause), isThread g = false → c ≠ .ue →
    let t := s.team g
    let K := maskOf (lanes t.width m)
    let d := (s.fixture (s.fxOf g)).desc
    let s1 := (s.recordTrap g K c pc).modTeam g (fun t => { t with causes := trapAll t.width m c })
    let counts := if c.cls ∈ t.counted then t.sum else t.sum.count c
    let out := State.complete g pc { s := s, k := trapAll t.width m c }
    K ≠ 0 →
    ((s1.team g).trapmask = K ∧ (s1.team g).trappc = pc ∧ (s1.team g).trapcause = c.code ∧
      (s1.team g).sum = counts ∧ s1.mem = s.mem) ∧
    (d.trapPol = 2 → t.frame.inh = false → t.run ≠ .pfHandler →
      out.team g = { t with
        frame := { hpc := pc, hmask := t.active, rpm := 0, inh := true, sig := t.sig, folded := t.folded, counted := t.counted }
        active := K, pc := BitVec.ofNat 64 d.traph, sig := 0, block := [], folded := false, replay := none, counted := []
        waiting := none, trapmask := K, trappc := pc, trapcause := c.code, sum := counts, causes := trapAll t.width m c } ∧
      out.mem = s.mem ∧ ∀ h, h ≠ g → out.team h = s.team h) ∧
    (d.trapPol = 1 → t.frame.inh = false → t.run ≠ .pfHandler → out = s1.terminateFixture (s.fxOf g) 0x05 c.code) ∧
    (d.trapPol = 0 ∨ t.frame.inh = true ∨ t.run = .pfHandler →
      out = (s1.killEach g (trapAll t.width m c)).leave g pc .seq)) ∧
 (∀ (t : Team) (m : Mask) (c : Cause),
    let t' := t.kill m c
    t'.live = t.live &&& ~~~ m ∧ t'.active &&& t.live &&& m = 0 ∧ t'.active ||| (t.active &&& t.live &&& m) = t.active ∧
    (∀ e ∈ t'.stack, (e.sm ||| e.pm ||| e.am) &&& t.live &&& m = 0) ∧ t'.stack.length = t.stack.length ∧
    (t'.frame.hmask ||| t'.frame.rpm) &&& t.live &&& m = 0 ∧
    t'.dead = t.dead ++ ((List.range t.width).filter (fun l => m.getLsbD l && t.live.getLsbD l)).map (fun l => (l, c)) ∧
    t' = { t with live := t'.live, active := t'.active, stack := t'.stack, frame := t'.frame, dead := t'.dead } ∧
    t'.kill m c = t')

/-- 16 R404, R406. That RPM is replaced also in a handler is DEDUCED (log 12); the token, one more than the last, and the place of
the new entry are the model's choice (log 52). -/
def Obligations.ParkingPostsANotice : Prop :=
  ∀ (s : State) (g : Nat) (pc : W64) (u : Mask) (c : Cause) (acc wher : Nat),
    let t := s.team g
    let out := s.park g pc u c acc wher
    ((out.team g).run = .parked ∧ (out.team g).replay = some u ∧ (out.team g).trapmask = u ∧ (out.team g).trappc = pc ∧
      (out.team g).trapcause = c.code ∧ (out.team g).token = s.nextToken + 1 ∧ out.nextToken = s.nextToken + 1 ∧
      (out.team g).v = t.v ∧ (out.team g).u = t.u ∧ (out.team g).p = t.p ∧ (out.team g).x = t.x ∧
      (out.team g).active = t.active ∧ (out.team g).live = t.live ∧ (out.team g).stack = t.stack ∧
      (out.team g).sig = t.sig ∧ (out.team g).pc = t.pc ∧ (out.team g).waiting = none ∧
      (out.team g).frame = { t.frame with rpm := u }) ∧
    (out.posts.map (fun p => p.token)) = s.posts.map (fun p => p.token) ++ [s.nextToken + 1] ∧
    (∃ p, p ∈ out.posts ∧ p.token = s.nextToken + 1 ∧ p.kind = .team ∧ p.agent = g ∧ p.cause = c ∧ p.access = acc ∧ p.pc = pc ∧
      p.part = (s.crew (crewNo g)).part ∧ p.eid = (s.crew (crewNo g)).eid ∧
      p.wher = if c = .pagef then wher % 2 ^ 64 / 65536 * 65536 else wher) ∧
    out.ready g = false

/-- 16 R409-R411. -/
def Obligations.ControlThreadsEnterTheirVector : Prop :=
  ∀ (s : State) (g : Nat), isThread g = true →
    let t := s.team g
    let entered := fun (s : State) (pc : W64) (c : BitVec 8) (v : W64) => s.setTeam g { t with
      frame := { hpc := pc, hmask := t.active, rpm := 0, inh := true, sig := t.sig, folded := t.folded, counted := t.counted }
      pc := v, sig := 0, block := [], folded := false, replay := none, counted := [], waiting := none
      trapmask := 1, trappc := pc, trapcause := c }
    (∀ (pc : W64) (c : Cause) (m : Mask), lanes t.width m ≠ [] → (s.thread g).eid = 0 →
      let out := State.complete g pc { s := s, k := trapAll t.width m c }
      (∀ v, t.frame.inh = false → (s.thread g).vec = some v → out = entered s pc c.code v) ∧
      (t.frame.inh = true → out = (s.stopThread g).osFatal) ∧
      (t.frame.inh = false → (s.thread g).vec = none →
        (out.team g).run = .stopped ∧ (out.team g).trapcause = c.code ∧ (out.team g).trappc = pc ∧ out.mem = s.mem)) ∧
    (let calm := fun (s : State) => s.setThread g { s.thread g with pending := false }
     (∀ v, (s.thread g).pending = true → t.run = .running → s.board.power = .on → t.frame.inh = false → t.waiting = none →
       ((s.thread g).eid = 0 → t.replay = none → (s.thread g).vec = some v → exec (.controlThreadNotice g) s = .next (calm (entered (s.dropWalks g) t.pc 0 v))) ∧
       ((s.thread g).eid ≠ 0 → exec (.controlThreadNotice g) s = .next (calm ((s.dropWalks g).aex g)))) ∧
     ((s.thread g).pending = false ∨ t.run ≠ .running ∨ t.frame.inh = true ∨ ((s.thread g).eid = 0 ∧ t.replay ≠ none) →
       exec (.controlThreadNotice g) s = .next s))

/-- 16 R422, R401, 07 R189. That a killed lane dies of the cause that trapped it is DEDUCED (log 16). -/
def Obligations.ReturnsFromHandlers : Prop :=
  ∀ (s : State) (a : SArgs) (i : Instr) (retry kill : Bool),
    (i, retry, kill) ∈ [(Instr.eretRetry a, true, false), (Instr.eretSkip a, false, false), (Instr.eretKill a, false, true)] →
    Issues i (ruleS a) s →
    let T := s.mask a.g
    let cause := fun l => ((s.me.causes.find? (fun x => x.1 == l)).map (·.2)).getD (Cause.ofCode s.me.trapcause)
    let t := if kill then (lanes s.me.width s.me.trapmask).foldl (fun t l => t.kill (oneLane l) (cause l)) s.me else s.me
    let rpm := if retry then t.frame.rpm ||| (t.trapmask &&& t.live) else t.frame.rpm
    (T = 0 → exec i s = .next (s.after s)) ∧
    (T ≠ 0 → s.me.frame.inh = false →
      exec i s = .next (State.complete s.cur s.me.pc { s := s, k := trapAll s.me.width T .perm })) ∧
    (T ≠ 0 → s.me.frame.inh = true → s.me.sigBad s.me.pc = false → (isThread s.cur && kill) = false →
      exec i s = .next (s.setTeam s.cur { t with
        frame := { t.frame with inh := false, rpm := 0 }, active := t.frame.hmask &&& t.live &&& ~~~ t.exited
        pc := t.frame.hpc, sig := t.frame.sig, folded := t.frame.folded, replay := some (rpm &&& t.live), counted := t.frame.counted
        block := [] })) ∧
    (T ≠ 0 → s.me.frame.inh = true → s.me.sigBad s.me.pc = false → isThread s.cur = true → kill = true →
      exec i s = .next ((s.setTeam s.cur { s.me with frame := { s.me.frame with inh := false } }).stopThread s.cur)) ∧
    (∀ (u : Team) (g : Guard) (q : Mask), u.replay = some q → u.en g &&& ~~~ q = 0)

/-- 16 R423. That a thread's notice is only withdrawn and that an operation of a control thread, which has no fixture, is
cancelled are DEDUCED (log 19). -/
def Obligations.ResolutionOfCallsAndNotices : Prop :=
  (∀ (s : State) (a : SArgs) (i : Instr) (r : Rule) (m : TokMode),
    (i, r, m) ∈ [(Instr.eretResume a, { ruleS a with srcs := [(a.a, 1), (a.b, 4)] }, TokMode.resume),
                 (Instr.eretDecline a, ruleS a, .decline), (Instr.eretAbort a, ruleS a, .abort)] →
    Issues i r s →
    let T := s.mask a.g
    let args := if a.b = .vz then none else some [s.me.uniAt a.b 0, s.me.uniAt a.b 1, s.me.uniAt a.b 2, s.me.uniAt a.b 3]
    let tok := (s.me.opndU a.a).toNat
    (s.levelOf s.cur = .l0 →
      exec i s = .next (State.complete s.cur s.me.pc { s := s, k := trapAll s.me.width s.me.cur .priv })) ∧
    (s.levelOf s.cur = .l1 → T = 0 → exec i s = .next (s.after s)) ∧
    (s.levelOf s.cur = .l1 → T ≠ 0 → (∀ p ∈ s.posts, p.token ≠ tok) →
      exec i s = .next (s.after (s.withResult s.cur a T 0 0x02))) ∧
    (s.levelOf s.cur = .l1 → T ≠ 0 → ∀ p, s.posts.find? (fun p => p.token == tok) = some p →
      (∀ s', s.resolve p m args = some s' → exec i s = .next (s.after (s'.withResult s.cur a T p.eid 0))) ∧
      (s.resolve p m args = none → exec i s = .next (s.after (s.withResult s.cur a T p.eid 0x02))))) ∧
  (∀ (s : State) (p : Post) (args : Option (List W64)),
    let s1 : State := { s with posts := s.posts.filter (fun q => q.token != p.token) }
    let g := p.agent
    let run := fun (t : Team) => { t with run := .running, token := 0, resolved := none, since := s.mcyc g, aged := false }
    let anew := fun (s : State) => s.modTeam g (fun t => { t with block := [] })
    let code := (s.team g).parkCause.code
    (p.kind = .call → s.resolve p .decline args = none) ∧
    (p.kind = .call → s.resident g = true → (s.team g).run = .called →
      s.resolve p .resume none = some (anew (((s1.modTeam g (fun t => t)).modTeam g run).leave g (s.team g).pc .seq)) ∧
      (∀ w0 w1 w2 w3, s.resolve p .resume (some [w0, w1, w2, w3]) =
        some (anew (((s1.modTeam g (fun t => (((t.setU 0 w0).setU 1 w1).setU 2 w2).setU 3 w3)).modTeam g run).leave
          g (s.team g).pc .seq))) ∧
      s.resolve p .abort args = some (s1.terminateFixture (s.fxOf g) 0x05 0)) ∧
    (p.kind = .team → ∀ l, s.resolve p .resume (some l) = none) ∧
    (p.kind = .team → s.resident g = true → (s.team g).run ≠ .called →
      s.resolve p .resume none = some (anew (s1.modTeam g run)) ∧
      s.resolve p .decline args = some (anew (s1.declineTeam g)) ∧
      s.resolve p .abort args = some (s1.terminateFixture (s.fxOf g) 0x05 code)) ∧
    (s.resident g = false → ∀ m r,
      (p.kind, m, r) ∈ [(PostKind.call, TokMode.resume, Resolution.resume args), (.call, .abort, .abort), (.team, .decline, .decline),
                        (.team, .abort, .abort)] ∨ (p.kind, m, r, args) = (.team, .resume, .resume none, none) →
      s.resolve p m args = some (s1.modTeam g (fun t => { t with resolved := some r }))) ∧
    (∀ op, p.kind = .engine op →
      s.resolve p .resume args = some (s1.engineGo op false) ∧ s.resolve p .decline args = some (s1.engineGo op true) ∧
      (isThread g = false → g < 2 ^ 64 → s.resolve p .abort args = some (s1.terminateFixture (s.fxOf g) 0x05 p.cause.code)) ∧
      (isThread g = true ∨ 2 ^ 64 ≤ g → s.resolve p .abort args = some (s1.engineCancel op)))) ∧
  (∀ (s : State) (n : Nat) (r : Resolution), (s.crew n).nteams = 1 → (s.crew n).done = false →
    (s.team (agentOf n 0)).resolved = some r → s.takeRes n = s.applyRes (agentOf n 0) r)

/-- 15 R380-R382, 16 R421. The token, one more than the last, is the model's choice (log 52). -/
def Obligations.SystemCallsAndTrapInstruction : Prop :=
  (∀ (s : State) (a : SArgs), Issues (.syscall a) { ruleS a with banned := true, srcs := [(.s 0, 4)] } s →
    let T := s.mask a.g
    let traps := fun c => exec (.syscall a) s = .next (State.complete s.cur s.me.pc { s := s, k := trapAll s.me.width T c })
    (T = 0 → exec (.syscall a) s = .next (s.after s)) ∧
    (T ≠ 0 → isThread s.cur = false → T = (s.me.live &&& ~~~ s.me.exited &&& laneMask s.me.width) →
      ∃ t, exec (.syscall a) s = .next t ∧ (t.team s.cur).run = .called ∧ (t.team s.cur).token = s.nextToken + 1 ∧
        t.nextToken = s.nextToken + 1 ∧ t.posts.map (fun p => p.token) = s.posts.map (fun p => p.token) ++ [s.nextToken + 1] ∧
        (∃ p ∈ t.posts, p.token = s.nextToken + 1 ∧ p.kind = .call ∧ p.agent = s.cur ∧ p.pc = s.me.pc) ∧
        (t.team s.cur).v = s.me.v ∧ (t.team s.cur).u = s.me.u) ∧
    (T ≠ 0 → isThread s.cur = false → T ≠ (s.me.live &&& ~~~ s.me.exited &&& laneMask s.me.width) → traps .sysdiv) ∧
    (T ≠ 0 → s.osThread s.cur = true → s.me.ureg 0 ≠ 0x10 →
      exec (.syscall a) s = .next (s.after
        (let r := s.request (s.me.ureg 0).toNat (s.me.ureg 1); r.1.modTeam s.cur (fun t => t.setU 0 (BitVec.ofNat 64 r.2))))) ∧
    (T ≠ 0 → s.osThread s.cur = true → s.me.ureg 0 = 0x10 → exec (.syscall a) s = .next s.osFatal) ∧
    (T ≠ 0 → isThread s.cur = true → s.osThread s.cur = false → traps .perm)) ∧
  (∀ (s : State) (a : SArgs), Issues (.trap a) (ruleS a) s →
    exec (.trap a) s = .next (State.complete s.cur s.me.pc { s := s, k := trapAll s.me.width (s.mask a.g) .trap })) ∧
  (∀ (s : State) (q : Nat),
    let waits := s.posts.filter (fun p => p.part == q && !p.posted)
    (waits = [] → exec (.queueTailPoll q) s = .next s) ∧
    (∀ p, waits = [p] → exec (.queueTailPoll q) s = .next (s.postOne p).1) ∧
    (∀ p rest t, waits = p :: rest → s.postOne p = (t, true) → t.posts.filter (fun p => p.part == q && !p.posted) = rest →
      exec (.queueTailPoll q) s = exec (.queueTailPoll q) t) ∧
    (∀ p rest t, waits = p :: rest → s.postOne p = (t, false) → (∀ x ∈ rest, (x.kind = .call ↔ p.kind = .call)) →
      exec (.queueTailPoll q) s = .next t)) ∧
  (∀ (s : State) (p : Post), (s.callEntry p).length = 64 ∧
    (s.callEntry p).drop 24 = leBytes 8 p.token ++ leBytes 8 ((s.team p.agent).ureg 0).toNat ++
      leBytes 8 ((s.team p.agent).ureg 1).toNat ++ leBytes 8 ((s.team p.agent).ureg 2).toNat ++
      leBytes 8 ((s.team p.agent).ureg 3).toNat ∧
    (s.callEntry p).take 24 = leBytes 4 p.fixid.toNat ++ leBytes 4 p.crew.toNat ++ leBytes 1 p.team ++ leBytes 1 p.part ++
      leBytes 2 p.eid ++ leBytes 4 0 ++ leBytes 8 p.pc.toNat)

/-- 03 R82, R83; 07 R196 with log 17. -/
def Obligations.ThreadRestartAndTranslations : Prop :=
  (∀ (s : State) (g : Nat) (pc : W64), isThread g = true → s.board.power = .on → pc.toNat % 64 = 0 →
    ((s.team g).run = .stopped → ∃ t, exec (.controlThreadRestart g pc) s = .next (s.setTeam g t) ∧
      t.run = .running ∧ t.pc = pc ∧ t.active = 1 ∧ t.live = 1 ∧ t.exited = 0 ∧ t.stack = [] ∧ t.frame.inh = false ∧
      t.u = (s.team g).u ∧ t.v = (s.team g).v) ∧
    ((s.team g).run ≠ .stopped → exec (.controlThreadRestart g pc) s = .next s)) ∧
  (∀ (s : State) (a : SArgs) (i : Instr) (kind : Nat),
    (i, kind) ∈ [(Instr.tlbinv a, 0), (Instr.tlbinvAll a, 1), (Instr.tlbinvAp a, 2)] →
    Issues i (ruleS a) s →
    let T := s.mask a.g
    let e := (s.me.opndU a.a).toNat % 4096
    let b := (s.me.opndU a.b).toNat
    let p := (s.enc e).part
    (T = 0 → exec i s = .next (s.after s)) ∧
    (T ≠ 0 → s.eidOf s.cur ≠ 0 →
      exec i s = .next (State.complete s.cur s.me.pc { s := s, k := trapAll s.me.width T .perm })) ∧
    (T ≠ 0 → s.eidOf s.cur = 0 → e ≠ 0 → s.encLive e = false →
      exec i s = .next (s.after (s.withResult s.cur a T e 0x08))) ∧
    (T ≠ 0 → s.eidOf s.cur = 0 → e = 0 ∨ s.encLive e = true →
      (kind = 0 → b < 2 ^ 57 → exec i s = .next (s.after
        ((s.purge e (fun v => decide (b / 65536 ≤ v) && decide (v ≤ b / 65536 + b % 65536))).withResult s.cur a T e 0))) ∧
      (kind = 1 → exec i s = .next (s.after ((s.purge e (fun _ => true)).withResult s.cur a T e 0))) ∧
      (kind = 2 → e ≠ 0 → exec i s = .next (s.after
        ((((s.encl.filter (fun x => x.2.part == p)).map (·.1)).foldl (fun (s : State) e => s.purge e (s.inAperture p)) s).withResult
          s.cur a T e 0)))))

/-- 12 R303, R304, R307; 03 R80; 04 R101; 14 R366 with log 53. -/
def Obligations.MemoryInstructionsServeEveryLane : Prop :=
  ∀ (s : State) (a : MArgs) (i : Instr) (r : Rule) (uni rel : Bool) (kd : Kind) (n : Nat)
    (f : Ctx → State → Nat → Ans Unit),
    let es := a.ty.bits / 8
    (i, r, uni, rel, kd, n, f) ∈
      ([(Instr.ld a, ruleM s.me a [], a.d.isUni, false, .read, a.vec.n * es,
          fun c => loadLane c a (fun _ => .ok (c.useOf (c.t.rslot a.br.toNat)))),
        (Instr.ldx a, ruleM s.me a [srcN a.b 1], a.d.isUni, false, .read, a.vec.n * es,
          fun c => loadLane c a (fun l => (c.t.rd32 l a.b).map (fun v =>
            { tag := v.setWidth 16, must := false, life := c.lifeOf (v.setWidth 16) }))),
        (Instr.st a, ruleM s.me a [(a.d, if a.d.isUni then a.vec.n else argRegs a)], false, true, .write, a.vec.n * es,
          fun c => storeLane c a),
        (Instr.atom a, ruleM s.me a [srcN a.b (nReg a.ty)], false, true, .atomic, es, fun c => atomLane c a true),
        (Instr.red a, ruleM s.me a [srcN a.b (nReg a.ty)], false, true, .atomic, es, fun c => atomLane c a false),
        (Instr.atomc a, ruleM s.me a [(a.d, casRegs a), (a.b, casRegs a)], false, true, .atomic,
          a.vec.n * es, fun c => casLane c a)]
       : List (Instr × Rule × Bool × Bool × Kind × Nat × (Ctx → State → Nat → Ans Unit))) →
    Issues i r s →
    let T := s.mask a.g
    let held := T ≠ 0 ∧ rel = true ∧ (a.ord = .rel ∨ a.ord = .ar) ∧ a.scope = .system ∧ s.offWrites = true
    let vpns := (s.ctx r).pages a n es (if uni then (s.me.lanesOf T).take 1 else s.me.lanesOf T)
    let s1 := s.walkAll (s.req s.cur) kd (s.missing (s.req s.cur) vpns)
    (¬ held → s.Walks vpns → ∀ s', servedAll (f (s.ctx r)) s1 (s.me.passLanes T uni) = some s' →
      exec i s = .next (s.after s')) ∧
    (held → s.me.waiting = none → exec i s = .next (s.waits i (lives := some (s.part (s.partOf s.cur)).lives)))

/-- 12 R303, R304; 03 R66, R68, R79; 04 R109, R94; 11 R292; 15 R386. What an aperture answers is free (log 14). -/
def Obligations.LoadsReadMemory : Prop :=
 (∀ (s : State) (a : MArgs) (i : Instr) (r : Rule) (g : TagUse) (l : Nat) (ad : Addr) (w : Line1) (pa : Nat) (e : Ipt) (d : Nat),
    (i, r) ∈ ([(Instr.ld a, ruleM s.me a []), (Instr.ldx a, ruleM s.me a [srcN a.b 1])] : List (Instr × Rule)) →
    (i = .ld a → g = (s.ctx r).useOf (s.me.rslot a.br.toNat)) →
    (i = .ldx a → ∃ v, s.me.rd32 l a.b = .ok v ∧
      g = { tag := v.setWidth 16, must := false, life := (s.ctx r).lifeOf (v.setWidth 16) }) →
    Issues i r s →
    let es := a.ty.bits / 8
    OneAccess s a l (a.vec.n * es) es ad → a.d.isUni = false →
    s.me.regOf l (argRegs a) (rangeAl (argRegs a)) a.d = .ok (some d) →
    let s1 := s.walked .read ad.va
    let q := (s.ctx r).accReq s a
    trLine s1 q g .read none ad.va = (s1, .ok w) →
    placeRead s1 q g ad.va w = .at pa e → s.goodLines pa (a.vec.n * es) e = true →
    ∃ t, exec i s = .next (s.after t) ∧ OnlyRegs { s with caches := t.caches, pass := [] } t s.cur l d (argRegs a) ∧
      ∀ j < a.vec.n,
        let v := Ty.extend a.ty (s.num (pa + es * j) es)
        if a.ty.wide then (t.team s.cur).vreg l (d + 2 * j) = v.setWidth 32 ∧
          (t.team s.cur).vreg l (d + 2 * j + 1) = (v >>> 32).setWidth 32
        else (t.team s.cur).vreg l (d + j) = v.setWidth 32) ∧
 (∀ (s : State) (a : MArgs) (i : Instr) (r : Rule) (g : TagUse) (l : Nat) (rest : List Nat) (ad : Addr) (base : Option Nat)
    (s2 : State) (bs : List Byte),
    (i, r) ∈ ([(Instr.ld a, ruleM s.me a []), (Instr.ldx a, ruleM s.me a [srcN a.b 1])] : List (Instr × Rule)) →
    (i = .ld a → g = (s.ctx r).useOf (s.me.rslot a.br.toNat)) →
    (i = .ldx a → ∃ v, s.me.rd32 l a.b = .ok v ∧
      g = { tag := v.setWidth 16, must := false, life := (s.ctx r).lifeOf (v.setWidth 16) }) →
    Issues i r s →
    let es := a.ty.bits / 8
    let n := a.vec.n * es
    s.me.lanesOf (s.mask a.g) = l :: rest → (a.d.isUni = false → rest = []) →
    s.me.address (s.me.rslot a.br.toNat) l a.a a.disp n es = .ok ad → s.Walks ((s.ctx r).pages a n es [l]) →
    s.me.destOf l (argRegs a) a.d = .ok base →
    readV (s.begun r a .read n es [l] (ad.oob n)) ((s.ctx r).accReq s a) g .read ad.segs = (s2, .ok bs) →
    ∃ t', exec i s = .next (s.after ({ s2 with pass := [] }.setTeam s.cur t')) ∧
      Loaded (s2.team s.cur) t' l a base (List.replicate ad.lo 0 ++ bs ++ List.replicate (n - ad.hi) 0)) ∧
 (∀ (s : State) (q : Req) (g : TagUse) (va n : Nat) (w : Line1), trLine s q g .read none va = (s, .ok w) →
    (∀ pa e, placeRead s q g va w = .at pa e → s.goodLines pa n e = true →
      ∃ c, readV s q g .read [(va, n)] = ({ s with caches := c }, .ok (s.bytes pa n))) ∧
    (∀ pa e, placeRead s q g va w = .base pa e → s.goodLines pa n e = true →
      ∃ c, readV s q g .read [(va, n)] = ({ s with caches := c }, .ok (s.bytes pa n)) ∧ (q.acq = false → c = s.caches)) ∧
    (placeRead s q g va w = .zero →
      ∃ c, readV s q g .read [(va, n)] = ({ s with caches := c }, .ok (List.replicate n 0)) ∧ (q.acq = false → c = s.caches)) ∧
    (∀ k e s1 ctr, w = .remote k e → s.asked q 0 va = none → s.sendBurra q.part e = (s1, .ok ctr) →
      let line := fun (s : State) => (List.range n).map (fun i => Config.freeByte s.free (va % 128 + i))
      (tget 0 s1.links.failNext (q.part * 1024 + k) = 0 → ∃ c, readV s q g .read [(va, n)] =
        ({ (({ s1 with free := s1.free + 1 } : State).ask q 0 va 0 s1.free) with caches := c }, .ok (line s1))) ∧
      (tget 0 s1.links.failNext (q.part * 1024 + k) = 1 → ∃ t, readV s q g .read [(va, n)] = (t, .error .ue) ∧ t.mem = s.mem)) ∧
    (∀ m w2 pa pa2 e e2, trLine s q g .read none (va + n) = (s, .ok w2) →
      placeRead s q g va w = .at pa e → placeRead s q g (va + n) w2 = .at pa2 e2 →
      s.goodLines pa n e = true → s.goodLines pa2 m e2 = true →
      ∃ c, readV s q g .read [(va, n), (va + n, m)] = ({ s with caches := c }, .ok (s.bytes pa n ++ s.bytes pa2 m)))) ∧
 (∀ (s : State) (q : Req) (g : TagUse) (va pfn : Nat) (i : Ipt), i.tagged = true → g.tag ≠ 0 →
    (∀ c ∈ s.mem.cells, ¬ (c.part = q.part ∧ c.frame = pfn ∧ c.gran = va / 4096 % 16 ∧ c.tag = g.tag)) →
    placeRead s q g va (.hbm pfn i) = if i.zeroFb then .zero else .base (pfn * 65536 + va % 65536) i)

/-- 12 R304; 03 R66, R68, R76, R79; 04 R92, R93; 15 R365. Which free slot a cell takes is the model's choice (log 15). -/
def Obligations.StoresWriteMemory : Prop :=
 (∀ (s : State) (a : MArgs) (l : Nat) (ad : Addr) (w : Line1) (pa : Nat) (e : Ipt) (bs : List Byte),
    let r := ruleM s.me a [(a.d, if a.d.isUni then a.vec.n else argRegs a)]
    let es := a.ty.bits / 8
    let n := a.vec.n * es
    let g := (s.ctx r).useOf (s.me.rslot a.br.toNat)
    let s1 := s.walked .write ad.va
    let q := (s.ctx r).accReq s a
    Issues (.st a) r s → OneAccess s a l n es ad →
    (isRel a.ord = true → s.offWrites = false) →
    s.me.storeBytes l a.ty a.vec.n a.d = .ok bs →
    trLine s1 q g .write none ad.va = (s1, .ok w) →
    placeWrite s1 q g ad.va w = (s1, .ok (.at pa e)) →
    ∃ t, exec (.st a) s = .next (s.after t) ∧ bs.length = n ∧ t.bytes pa n = bs ∧ s.SameBytes t pa n ∧
      (∀ h, t.team h = s.team h) ∧ (e.attr ≠ 2 → t.mem.ver = s.mem.ver ∧ t.mem.anc = s.mem.anc) ∧
      t = { s with teams := t.teams, mem := { s.mem with hbm := t.mem.hbm, ver := t.mem.ver, anc := t.mem.anc }
                   caches := t.caches, pass := [] }) ∧
 (∀ (s : State) (a : MArgs) (l : Nat) (ad : Addr) (bs : List Byte) (s2 : State),
    let r := ruleM s.me a [(a.d, if a.d.isUni then a.vec.n else argRegs a)]
    let es := a.ty.bits / 8
    let n := a.vec.n * es
    Issues (.st a) r s → s.me.lanesOf (s.mask a.g) = [l] →
    s.me.address (s.me.rslot a.br.toNat) l a.a a.disp n es = .ok ad → s.Walks ((s.ctx r).pages a n es [l]) →
    (isRel a.ord = true → s.offWrites = false) → s.me.storeBytes l a.ty a.vec.n a.d = .ok bs →
    writeV (s.begun r a .write n es [l] (ad.oob n)) ((s.ctx r).accReq s a) ((s.ctx r).useOf (s.me.rslot a.br.toNat)) .write none
      ad.segs ((bs.drop ad.lo).take (ad.hi - ad.lo)) = (s2, .ok ()) →
    exec (.st a) s = .next (s.after { s2 with pass := [] })) ∧
 (∀ (s : State) (q : Req) (g : TagUse) (va : Nat) (w : Line1) (x : List Byte), trLine s q g .write none va = (s, .ok w) →
    (∀ s1 pa e, placeWrite s q g va w = (s1, .ok (.at pa e)) →
      ∃ t, writeV s q g .write none [(va, x.length)] x = (t, .ok ()) ∧ t.bytes pa x.length = x ∧ s1.SameBytes t pa x.length ∧
        t = { s1 with mem := { s1.mem with hbm := t.mem.hbm, ver := t.mem.ver, anc := t.mem.anc }
                      caches := t.caches, pass := t.pass }) ∧
    (∀ pfn i slot, w = .hbm pfn i → i.tagged = true → g.tag ≠ 0 → i.attr ≠ 2 → Memory.wf s = true →
      s.cellOf q.part pfn (va / 4096 % 16) g.tag = none → s.freeSlot q.part pfn (va / 4096 % 16) = some slot →
      let base := pfn * 65536 + va / 4096 % 16 * 4096
      ∃ s1, placeWrite s q g va w = (s1, .ok (.at (slot + va % 4096) i)) ∧
        (∀ k < 4096, s1.byte (slot + k) = if i.zeroFb then 0 else s.byte (base + k)) ∧ s.SameBytes s1 slot 4096 ∧
        s1.mem.cells = s.mem.cells ++ [{ part := q.part, frame := pfn, gran := va / 4096 % 16, tag := g.tag, slot := slot }] ∧
        (∀ h, s1.team h = s.team h)) ∧
    (∀ k e s1 ctr g0, w = .remote k e → q.agent = some g0 → s.asked q 1 va = none → (s.team g0).uwc.length < 4095 →
      s.sendBurra q.part e = (s1, .ok ctr) → tget 0 s1.links.failNext (q.part * 1024 + k) = 0 →
      let addr := e.raddr + (va - e.vabase)
      ∃ t o, writeV s q g .write none [(va, x.length)] x = (t, .ok ()) ∧ t.links.out = o :: s1.links.out ∧
        o.part = q.part ∧ o.entry = k ∧ o.bytes = x.zipIdx.map (fun y => (addr + y.2, y.1)) ∧
        (t.team g0).uwc = (s.team g0).uwc ++ [(q.part * 1024 + k, addr)] ∧ t.mem = s.mem) ∧
    (∀ w2 pa pa2 e e2 y, trLine s q g .write none (va + x.length) = (s, .ok w2) →
      placeWrite s q g va w = (s, .ok (.at pa e)) → placeWrite s q g (va + x.length) w2 = (s, .ok (.at pa2 e2)) →
      (pa + x.length ≤ pa2 ∨ pa2 + y.length ≤ pa) →
      ∃ t, writeV s q g .write none [(va, x.length), (va + x.length, y.length)] (x ++ y) = (t, .ok ()) ∧
        t.bytes pa x.length = x ∧ t.bytes pa2 y.length = y ∧
        (∀ b, (b < pa ∨ pa + x.length ≤ b) → (b < pa2 ∨ pa2 + y.length ≤ b) → t.byte b = s.byte b))) ∧
 (∀ (t : Team) (l : Nat) (ty : Ty) (n : Nat),
    let es := ty.bits / 8
    (∀ r : BitVec 6, t.storeBytes l ty n (.s r) =
      .ok (((List.range n).map (fun j => leBytes es (t.ureg (r.toNat + j)).toNat)).flatten)) ∧
    (∀ c : BitVec 5, t.storeBytes l ty n (.imm c) =
      .ok (((List.range n).map (fun _ => leBytes es (BitVec.ofInt 64 ((c.toNat : Int) - 16)).toNat)).flatten)) ∧
    t.storeBytes l ty n .vz = .ok (List.replicate (es * n) 0) ∧
    (∀ (r : BitVec 8), r ≠ 255 → r.toNat + (if ty.wide then 2 * n else n) ≤ t.nregs → ty.bits ∈ [8, 16, 32, 64] →
      t.storeBytes l ty n (.v r) = .ok (((List.range n).map (fun j =>
        leBytes es (if ty.wide then (t.vreg l (r.toNat + 2 * j + 1)).toNat * 2 ^ 32 + (t.vreg l (r.toNat + 2 * j)).toNat
                    else (t.vreg l (r.toNat + j)).toNat))).flatten)))

/-- 12 R306, R307; 03 R66; 04 R93, R94; 15 R395. What an aperture answers is free (log 14). -/
def Obligations.AtomicsReadModifyWrite : Prop :=
  (∀ (s : State) (a : MArgs) (i : Instr) (ret : Bool) (l : Nat) (ad : Addr) (w : Line1) (pa : Nat) (e : Ipt) (d x : Nat),
    (i, ret) ∈ [(Instr.atom a, true), (Instr.red a, false)] →
    let r := ruleM s.me a [srcN a.b (nReg a.ty)]
    let n := a.ty.bits / 8
    let g := (s.ctx r).useOf (s.me.rslot a.br.toNat)
    let q : AtomReq := { op := atomKind a.mfn.toNat, bytes := n, system := a.scope == .system }
    let s1 := s.walked .atomic ad.va
    let rq := (s.ctx r).accReq s a
    Issues i r s → OneAccess s a l n n ad → (isRel a.ord = true → s.offWrites = false) →
    s.me.opP l a.ty a.b = .ok x → a.d.isUni = false →
    (ret = true → s.me.regOf l (argRegs a) (rangeAl (argRegs a)) a.d = .ok (some d) ∧ a.vec = .one) →
    trLine s1 rq g .atomic (some q) ad.va = (s1, .ok w) →
    placeRead s1 rq g ad.va w = .at pa e → placeWrite s1 rq g ad.va w = (s1, .ok (.at pa e)) →
    s.goodLines pa n e = true →
    let m := s.num pa n
    ∃ t, exec i s = .next (s.after t) ∧ t.bytes pa n = leBytes n (newVal a.mfn.toNat a.ty m x) ∧ s.SameBytes t pa n ∧
      (ret = true → (t.team s.cur).vreg l d = (Ty.extend a.ty m).setWidth 32 ∧
        (a.ty.wide = true → (t.team s.cur).vreg l (d + 1) = (Ty.extend a.ty m >>> 32).setWidth 32)) ∧
      (e.attr ≠ 2 → t.mem.ver = s.mem.ver ∧ t.mem.anc = s.mem.anc) ∧
      OnlyRegs { s with mem := { s.mem with hbm := t.mem.hbm, ver := t.mem.ver, anc := t.mem.anc }
                        caches := t.caches, pass := [] } t s.cur l d (if ret then argRegs a else 0)) ∧
  (∀ (s : State) (a : MArgs) (i : Instr) (ret : Bool) (l : Nat) (ad : Addr) (base : Option Nat) (x : Nat),
    (i, ret) ∈ [(Instr.atom a, true), (Instr.red a, false)] →
    let r := ruleM s.me a [srcN a.b (nReg a.ty)]
    let n := a.ty.bits / 8
    let q : AtomReq := { op := atomKind a.mfn.toNat, bytes := n, system := a.scope == .system }
    let s1 := s.begun r a .atomic n n [l] (ad.oob n)
    let f := fun old => some (leBytes n (newVal a.mfn.toNat a.ty (leNat old) x))
    Issues i r s → s.me.lanesOf (s.mask a.g) = [l] → a.vec = .one → a.d.isUni = false →
    s.me.address (s.me.rslot a.br.toNat) l a.a a.disp n n = .ok ad → s.Walks ((s.ctx r).pages a n n [l]) →
    (isRel a.ord = true → s.offWrites = false) → s.me.opP l a.ty a.b = .ok x →
    s.me.destOf l (argRegs a) (if ret then a.d else .vz) = .ok base →
    (∀ s2 old, ad.oob n = false →
      atomicV s1 ((s.ctx r).accReq s a) ((s.ctx r).useOf (s.me.rslot a.br.toNat)) q ret ad.segs f = (s2, .ok old) →
      (ret = false → exec i s = .next (s.after { s2 with pass := [] })) ∧
      (ret = true → ∃ t', exec i s = .next (s.after ({ s2 with pass := [] }.setTeam s.cur t')) ∧
        Loaded (s2.team s.cur) t' l a base old)) ∧
    (ad.oob n = true →
      (ret = false → exec i s = .next (s.after { s1 with pass := [] })) ∧
      (ret = true → ∃ t', exec i s = .next (s.after ({ s1 with pass := [] }.setTeam s.cur t')) ∧
        Loaded (s1.team s.cur) t' l a base (List.replicate n 0)))) ∧
  (∀ (s : State) (rq : Req) (g : TagUse) (q : AtomReq) (ret : Bool) (va n : Nat) (f : List Byte → Option (List Byte)) (w : Line1),
    trLine s rq g .atomic (some q) va = (s, .ok w) →
    (∀ pfn i slot, w = .hbm pfn i → i.tagged = true → g.tag ≠ 0 → i.attr ≠ 2 → Memory.wf s = true → va % 128 + n ≤ 128 →
      s.cellOf rq.part pfn (va / 4096 % 16) g.tag = none → s.freeSlot rq.part pfn (va / 4096 % 16) = some slot →
      (i.zeroFb = true ∨ s.goodLines (pfn * 65536 + va % 65536) n i = true) →
      let old := if i.zeroFb then List.replicate n 0 else s.bytes (pfn * 65536 + va % 65536) n
      (∀ new, f old = some new → new.length = n → ∃ t, atomicV s rq g q ret [(va, n)] f = (t, .ok old) ∧
        t.bytes (slot + va % 4096) n = new ∧ s.SameBytes t slot 4096 ∧
        t.mem.cells = s.mem.cells ++ [{ part := rq.part, frame := pfn, gran := va / 4096 % 16, tag := g.tag, slot := slot }]) ∧
      (f old = none → ∃ t, atomicV s rq g q ret [(va, n)] f = (t, .ok old) ∧ t.mem = s.mem)) ∧
    (∀ k e s1 ctr, w = .remote k e → s.asked rq 2 va = none → s.uwcFull rq = false →
      (s.freeBytes n).2.sendBurra rq.part e = (s1, .ok ctr) → tget 0 s1.links.failNext (rq.part * 1024 + k) = 0 →
      ∃ t, atomicV s rq g q ret [(va, n)] f = (t, .ok (s.freeBytes n).1) ∧ t.mem = s.mem)) ∧
  (∀ (s : State) (a : MArgs) (l : Nat) (ad : Addr) (w : Line1) (pa : Nat) (e : Ipt) (d b : Nat),
    let k := casRegs a
    let al := if k = 4 then 4 else rangeAl k
    let r := ruleM s.me a [(a.d, k), (a.b, k)]
    let n := a.vec.n * (a.ty.bits / 8)
    let g := (s.ctx r).useOf (s.me.rslot a.br.toNat)
    let q : AtomReq := { op := .cas, bytes := n, system := a.scope == .system }
    let s1 := s.walked .atomic ad.va
    let rq := (s.ctx r).accReq s a
    Issues (.atomc a) r s → OneAccess s a l n (a.ty.bits / 8) ad → ad.va % n = 0 →
    (isRel a.ord = true → s.offWrites = false) →
    4 * k = n → s.me.regOf l k al a.d = .ok (some d) → s.me.regOf l k al a.b = .ok (some b) →
    trLine s1 rq g .atomic (some q) ad.va = (s1, .ok w) →
    placeRead s1 rq g ad.va w = .at pa e → placeWrite s1 rq g ad.va w = (s1, .ok (.at pa e)) →
    s.goodLines pa n e = true →
    let old := s.bytes pa n
    let hit := old = s.me.regBytes l b k
    ∃ t, exec (.atomc a) s = .next (s.after t) ∧
      (hit → t.bytes pa n = s.me.regBytes l d k) ∧ (¬ hit → t.mem = s.mem) ∧ s.SameBytes t pa n ∧
      (t.team s.cur).regBytes l d k = old ∧
      (a.mfn ≠ 0 → l < 1024 → (t.team s.cur).predLane a.mfn.toNat l = decide hit) ∧
      (∀ k' l', (k' ≠ a.mfn.toNat ∨ l' ≠ l) → l' < 1024 → (t.team s.cur).predLane k' l' = s.me.predLane k' l') ∧
      (∀ l' q, q < 256 → (l' ≠ l ∨ q < d ∨ d + k ≤ q) → (t.team s.cur).vreg l' q = s.me.vreg l' q) ∧
      (∀ h, h ≠ s.cur → t.team h = s.team h) ∧
      t.team s.cur = { s.me with v := (t.team s.cur).v, badV := (t.team s.cur).badV, p := (t.team s.cur).p
                                 badP := (t.team s.cur).badP } ∧
      t = { s with teams := t.teams, mem := { s.mem with hbm := t.mem.hbm, ver := t.mem.ver, anc := t.mem.anc }
                   caches := t.caches, pass := [] })

/-- 03 R66, R72; 16 R400, R404. 04 R95. 05 R135. -/
def Obligations.AccessesThatCannotBeMade : Prop :=
 (∀ (s : State) (a : MArgs) (i : Instr) (r : Rule) (kd : Kind) (l : Nat),
    (i, r, kd) ∈ ([(Instr.ld a, ruleM s.me a [], Kind.read),
      (Instr.st a, ruleM s.me a [(a.d, if a.d.isUni then a.vec.n else argRegs a)], Kind.write)] : List (Instr × Rule × Kind)) →
    Issues i r s → s.me.lanesOf (s.mask a.g) = [l] → a.d.isUni = false → (isRel a.ord = true → s.offWrites = false) →
    let es := a.ty.bits / 8
    let n := a.vec.n * es
    let b := s.me.rslot a.br.toNat
    let g := (s.ctx r).useOf b
    let q := (s.ctx r).accReq s a
    (s.me.address b l a.a a.disp n es = .error .oob →
      ∃ t, exec i s = .next (State.complete s.cur s.me.pc { s := t, k := [(l, .oob)] }) ∧ t.mem = s.mem ∧ ∀ h, t.team h = s.team h) ∧
    (∀ (ad : Addr) (d : Nat), OneAccess s a l n es ad → s.me.regOf l (argRegs a) (rangeAl (argRegs a)) a.d = .ok (some d) →
      let s1 := s.walked kd ad.va
      (∀ c, c ≠ .pagef → trLine s1 q g kd none ad.va = (s1, .error (.cause c ad.va)) →
        ∃ t, exec i s = .next (State.complete s.cur s.me.pc { s := t, k := [(l, c)] }) ∧ t.mem = s.mem ∧ ∀ h, t.team h = s.team h) ∧
      (trLine s1 q g kd none ad.va = (s1, .error (.cause .pagef ad.va)) →
        ∃ t, exec i s = .next (State.complete s.cur s.me.pc
            { s := t, u := oneLane l, ucause := .pagef, wher := ad.va, acc := kd.code }) ∧
          t.mem = s.mem ∧ ∀ h, t.team h = s.team h))) ∧
 (∀ (s : State) (g : Nat) (w : Waiting), (s.team g).waiting = some w →
    let writes := ∃ a, w.instr = .st a ∨ w.instr = .atom a ∨ w.instr = .atomc a ∨ w.instr = .red a
    let awake := s.awake g w
    let free := ∃ f ∈ (s.part (s.partOf g)).pool, w.stack = some (f / 2 ^ 20) ∧
      ∃ k < 16, ∀ c ∈ s.mem.cells, c.slot ≠ f * 65536 + k * 4096
    (writes → free → exec (.cellSlotGrant g) s = .next awake) ∧
    (¬ writes ∨ ¬ free → exec (.cellSlotGrant g) s = .next s) ∧
    (writes → w.stack.isSome = true → w.cycles + 2 ^ 20 * 1000 ≤ s.mcyc g → exec (.tagexhTimeout g) s = .next awake) ∧
    (¬ writes ∨ w.stack = none ∨ s.mcyc g < w.cycles + 2 ^ 20 * 1000 → exec (.tagexhTimeout g) s = .next s))

/-- 03 R63, R64; 12 R300: BRSET and BRGET complete in every state in which they issue. 03 R66. -/
def Obligations.BufferRecords : Prop :=
 ((∀ (s : State) (a : SArgs), Issues (.brset a) { guard := a.g, srcs := [(a.a, 4)] } s →
    let T := s.mask a.g
    let k := a.sfn.toNat % 2 ^ 4
    exec (.brset a) s = .next (s.after (if T = 0 then s else s.setTeam s.cur
      (match recOfWords (s.me.uniAt a.a 0) (s.me.uniAt a.a 1) (s.me.uniAt a.a 2) (s.me.uniAt a.a 3) with
       | some b => (s.me.setRec k b).setPredMask a.pd.toNat T true
       | none => ((s.me.setRec k .null).setPredMask a.pd.toNat T false).raise 0 dBADREC)))) ∧
  (∀ (s : State) (a : SArgs), Issues (.brget a) (ruleS a) s →
    exec (.brget a) s = .next (s.after (if s.mask a.g = 0 then s else s.setTeam s.cur
      (s.me.setUnis a.d (s.me.rslot (a.sfn.toNat % 2 ^ 4)).words)))) ∧
  (∀ (w0 w1 w2 w3 : W64) (b : Rec), recOfWords w0 w1 w2 w3 = some b → b.words = [w0, w1, w2, w3])) ∧
 (∀ (b : Rec) (off : Int) (n es : Nat), b.flat = false → 0 < n → 0 < es → (min (esizeBytes b.esize) n) ∣ n →
    (∀ ad, addrAt b off n es = .ok ad →
      ad.va < 2 ^ 57 ∧ ad.va % es = 0 ∧ ad.lo ≤ ad.hi ∧ ad.hi ≤ n ∧
      (∀ k, ad.lo ≤ k → k < ad.hi → 0 ≤ off + k ∧ off + k < b.extent) ∧
      (b.trapOob = true → ad.lo = 0 ∧ ad.hi = n)) ∧
    (b.trapOob = true → (off < 0 ∨ (b.extent : Int) < off + n) → addrAt b off n es = .error .oob))

/-- 11 R282-R286, 12 R308. -/
def Obligations.ScratchpadInstructions : Prop :=
  (∀ (s : State) (a : MArgs) (i : Instr) (r : Rule) (target : Option Nat) (atom uni : Bool) (f : SpLane) (k : Nat),
    let rank := s.rankCrew s.cur ((s.me.opndU a.b).toNat % 256)
    (∃ c, c = s.ctx r ∧ (i, r, target, atom, uni, f) ∈
      ([(Instr.lds a, ruleSp a [], some (crewNo s.cur), false, a.d.isUni, spLoad a),
        (Instr.sts a, ruleSp a [storeSrc a], some (crewNo s.cur), false, false, spStore c a),
        (Instr.atoms a, ruleSp a [srcN a.b (nReg a.ty)], some (crewNo s.cur), true, false, spAtom c a),
        (Instr.ldq a, ruleSp a [srcN a.b 1], rank, false, false, spLoad a),
        (Instr.stq a, ruleSp a [srcN a.b 1, storeSrc a], rank, false, false, spStore c a)]
       : List (Instr × Rule × Option Nat × Bool × Bool × SpLane))) →
    Issues i r s → target = some k →
    let T := s.mask a.g
    let ls := if uni then (s.me.lanesOf T).take 1 else s.me.lanesOf T
    ∀ cr t rq, spServed s.me true a f (s.crew k) s.me ls = some (cr, t, rq) →
      exec i s = .next (s.after ((s.setCrew k cr).setTeam s.cur
        { t with sppass := t.sppass + BitVec.ofNat 64 (passCost T (a.vec.n * (a.ty.bits / 8)) atom rq) }))) ∧
  (∀ (a : MArgs) (c : Ctx) (cr : Crew) (t : Team) (l k d x : Nat) (bs : List Byte),
    let es := a.ty.bits / 8
    let n := a.vec.n * es
    (a.d.isUni = false → t.regOf l (argRegs a) (rangeAl (argRegs a)) a.d = .ok (some d) → cr.spBad k n = false →
      ∃ t', spLoad a cr t l k = .ok (cr, t') ∧
        (∀ j < a.vec.n,
          let v := Ty.extend a.ty (leNat (cr.spRead (k + es * j) es))
          if a.ty.wide then t'.vreg l (d + 2 * j) = v.setWidth 32 ∧ t'.vreg l (d + 2 * j + 1) = (v >>> 32).setWidth 32
          else t'.vreg l (d + j) = v.setWidth 32) ∧
        (∀ l' q, q < 256 → (l' ≠ l ∨ q < d ∨ d + argRegs a ≤ q) → t'.vreg l' q = t.vreg l' q) ∧
        t' = { t with v := t'.v, badV := t'.badV }) ∧
    (c.t.storeBytes l a.ty a.vec.n a.d = .ok bs →
      ∃ cr', spStore c a cr t l k = .ok (cr', t) ∧ cr'.spRead k bs.length = bs ∧
        (∀ q, q < k ∨ k + bs.length ≤ q → cr'.spByte q = cr.spByte q) ∧ cr' = { cr with sp := cr'.sp, badSp := cr'.badSp }) ∧
    (c.t.destOf l (argRegs a) a.d = .ok (some d) → a.d.isUni = false → d + argRegs a ≤ 255 → c.t.opP l a.ty a.b = .ok x →
      cr.spBad k es = false → a.vec = .one →
      let m := leNat (cr.spRead k es)
      ∃ cr' t', spAtom c a cr t l k = .ok (cr', t') ∧ cr'.spRead k es = leBytes es (newVal a.mfn.toNat a.ty m x) ∧
        (∀ q, q < k ∨ k + es ≤ q → cr'.spByte q = cr.spByte q) ∧
        t'.vreg l d = (Ty.extend a.ty m).setWidth 32 ∧
        (∀ l' q, q < 256 → (l' ≠ l ∨ q < d ∨ d + argRegs a ≤ q) → t'.vreg l' q = t.vreg l' q)))

/-- 12 R309, 11 R296; log 6 says what the model keeps of a cache. -/
def Obligations.CacheControls : Prop :=
  (∀ (s : State) (a : MArgs) (l : Nat) (ad : Addr) (ln : Line1), OneAccess s a l 4 4 ad →
    let b := s.me.rslot a.br.toNat
    let g := s.me.tagUse b
    let r := ruleM s.me a []
    let w := fun (kd : Kind) => s.walked kd ad.va
    let q := (s.ctx r).accReq s a
    let pa := s.linePa q g ad.va ln
    let e := s.eidOf s.cur
    (∀ (i : Instr) (kd : Kind) (q : Req) (eff : Caches),
      (i, kd, q, eff) ∈
        ([(Instr.cinv a, Kind.read, q, ((w .read).cinvLine s.cur e ad.va).caches),
          (Instr.cflush a, .read, q, ((w .read).cflushLine s.cur e ad.va pa).caches),
          (Instr.icinv a, .icinv, q,
            (if a.mfn.toNat % 2 = 1 then (w .icinv).icinvRange s.cur a.scope e (ad.va / 65536 * 65536) 65536
             else (w .icinv).icinvRange s.cur a.scope e (ad.va / 64 * 64) 64).caches),
          (Instr.unpin a, .read, q, (pa.map (fun p => ((w .read).unpinLine q p).caches)).getD (w .read).caches),
          (Instr.pref a, .read, s.req s.cur, (pa.map (fun p => ((w .read).prefLine (s.req s.cur) (g.lineTag ln)
            (if a.cc.toNat = 0 then b.cclass else a.cc.toNat) a.mfn.toNat ad.va p).caches)).getD (w .read).caches)]
         : List (Instr × Kind × Req × Caches)) →
      Issues i r s → trLine (w kd) q g kd none ad.va = (w kd, .ok ln) →
      ∃ t, exec i s = .next (s.after t) ∧ t.caches = eff ∧ (∀ h, t.team h = s.team h) ∧
        t = { s with teams := t.teams, caches := t.caches, pass := [] }) ∧
    (Issues (.pin a) r s → trLine (w .read) q g .read none ad.va = (w .read, .ok ln) →
      ∃ t ok, exec (.pin a) s = .next (s.after t) ∧
        (ok = true → ∃ p, pa = some p ∧ ∃ x ∈ tget [] t.caches.msc (mscKey p), x.addr = p ∧ x.pin.isSome = true) ∧
        (ok = false → t.caches = (w .read).caches) ∧
        (∀ k l', l' < 1024 → (t.team s.cur).predLane k l' =
          if k ≠ 0 ∧ k = a.mfn.toNat ∧ l' = l then ok else s.me.predLane k l') ∧
        t.team s.cur = { s.me with p := (t.team s.cur).p, badP := (t.team s.cur).badP } ∧
        (∀ h, h ≠ s.cur → t.team h = s.team h) ∧ t = { s with teams := t.teams, caches := t.caches, pass := [] })) ∧
  (∀ (s : State) (g e va : Nat), ∀ x ∈ tget [] (s.cinvLine g e va).caches.l1 (l1Key (s.coreOf g) va), x.eid = e → x.addr ≠ va / 128 * 128)

/-- 14 R366, R371, R372; the writes that a release covers are log 53's. -/
def Obligations.BarriersCompletePhases : Prop :=
  (∀ (s : State) (g : Nat),
    let b := (s.crew (crewNo g)).bar
    ((s.arrive g false).crew (crewNo g)).bar =
      (if b.arrived + 1 = s.liveTeams (crewNo g) + b.extra then { phc := b.phc + 1, arrived := 0, extra := 0 }
       else { b with arrived := b.arrived + 1 }) ∧
    ((s.arrive g false).team g).arrC = some b.phc ∧ (s.arrive g false).mem = s.mem) ∧
  (∀ (s : State) (a : SArgs) (i : Instr) (sq : Bool), (i, sq) ∈ [(Instr.bar a, false), (Instr.barq a, true)] →
    Issues i (ruleB s a sq) s →
    let T := s.mask a.g
    let b := s.barOf s.cur sq
    (T = 0 → exec i s = .next (s.after s)) ∧
    (T ≠ 0 → s.me.waiting = none → s.me.arrivedIn sq ≠ some b.phc → ((s.arrive s.cur sq).barOf s.cur sq).phc ≠ b.phc →
      exec i s = .next (s.after (s.arrive s.cur sq))) ∧
    (T ≠ 0 → s.me.waiting = none → s.me.arrivedIn sq ≠ some b.phc → ((s.arrive s.cur sq).barOf s.cur sq).phc = b.phc →
      exec i s = .next ((s.arrive s.cur sq).waits i (b.phc.toNat + 1))) ∧
    (T ≠ 0 → s.me.waiting = none → s.me.arrivedIn sq = some b.phc → exec i s = .next (s.waits i)) ∧
    (T ≠ 0 → ∀ w, s.me.waiting = some w → w.until_ ≠ 0 → b.phc.toNat + 1 ≠ w.until_ → exec i s = .next (s.after s))) ∧
  (∀ (s : State) (a : SArgs), Issues (.arrive a) (ruleB s a (sqBit a)) s →
    let b := s.barOf s.cur (sqBit a)
    (s.mask a.g = 0 → exec (.arrive a) s = .next (s.after s)) ∧
    (s.mask a.g ≠ 0 → s.me.arrivedIn (sqBit a) ≠ some b.phc →
      exec (.arrive a) s = .next (s.after ((s.arrive s.cur (sqBit a)).modTeam s.cur (fun t => t.setdU a.d (b.phc.setWidth 64)))))) ∧
  (∀ (s : State) (a : SArgs), Issues (.await a) (ruleB s a (sqBit a)) s →
    let met := (s.barOf s.cur (sqBit a)).phc ≠ (s.me.opndU a.a).setWidth 32
    (s.mask a.g = 0 → exec (.await a) s = .next (s.after s)) ∧
    (s.mask a.g ≠ 0 → a.sfn.toNat / 2 % 2 = 1 →
      exec (.await a) s = .next (s.after (s.setTeam s.cur (s.me.setPredMask a.pd.toNat (s.mask a.g) (decide met))))) ∧
    (s.mask a.g ≠ 0 → a.sfn.toNat / 2 % 2 = 0 → met → exec (.await a) s = .next (s.after s)) ∧
    (s.mask a.g ≠ 0 → a.sfn.toNat / 2 % 2 = 0 → ¬ met → s.me.waiting = none →
      exec (.await a) s = .next (s.waits (.await a)))) ∧
  (∀ (s : State) (g : Nat) (w : Waiting) (a : SArgs), (s.team g).waiting = some w → w.instr = .await a →
    ((s.barOf g (sqBit a)).phc ≠ ((s.team g).opndU a.a).setWidth 32 →
      exec (.awaitWake g) s = .next (s.awake g w)) ∧
    ((s.barOf g (sqBit a)).phc = ((s.team g).opndU a.a).setWidth 32 → exec (.awaitWake g) s = .next s)) ∧
  (∀ (s : State) (a : SArgs), Issues (.fence a) (ruleS a) s →
    let held := a.sfn.toNat / 2 % 2 = 1 ∧ a.sfn.toNat / 4 % 8 = 4 ∧ s.offWrites = true
    (s.mask a.g = 0 ∨ ¬ held → exec (.fence a) s = .next (s.after s)) ∧
    (s.mask a.g ≠ 0 → held → s.me.waiting = none → exec (.fence a) s = .next (s.waits (.fence a))))

/-- 14 R362, R373-R375. -/
def Obligations.StagesCountersAndSleep : Prop :=
  (∀ (s : State) (a : SArgs),
    let c := s.crew (crewNo s.cur)
    let ring := a.sfn.toNat % 4
    let k := (s.me.opndU a.a).toNat % 2 ^ 32
    let n := (c.stages.take ring).sum + k
    let e := tget Tile.reset c.tile n
    let T := s.mask a.g
    (Issues (.stgrel a) (ruleG s a) s → T ≠ 0 → k < c.stages.getD ring 0 →
      exec (.stgrel a) s = .next (s.after (s.setCrew (crewNo s.cur)
        { c with tile := tset Tile.reset c.tile n { e with ph := !e.ph } }))) ∧
    (Issues (.stgacq a) (ruleG s a) s → T ≠ 0 → k < c.stages.getD ring 0 →
      let met := e.ph = (s.me.opndU a.b).getLsbD 0
      (a.sfn.toNat / 4 % 2 = 1 →
        exec (.stgacq a) s = .next (s.after (s.setTeam s.cur (s.me.setPredMask a.pd.toNat T (decide met))))) ∧
      (a.sfn.toNat / 4 % 2 = 0 → met → exec (.stgacq a) s = .next (s.after s)) ∧
      (a.sfn.toNat / 4 % 2 = 0 → ¬ met → s.me.waiting = none → exec (.stgacq a) s = .next (s.waits (.stgacq a)))) ∧
    (∀ i ∈ [Instr.stgrel a, .stgacq a], Issues i (ruleG s a) s → (T = 0 → exec i s = .next (s.after s)) ∧
      (T ≠ 0 → c.stages.getD ring 0 ≤ k →
        exec i s = .next (State.complete s.cur s.me.pc { s := s, k := trapAll s.me.width T .oob })))) ∧
  (∀ (s : State) (a : SArgs),
    let T := s.mask a.g
    let cnt := [s.me.cnt.copy, s.me.cnt.tile, s.me.cnt.matrix, s.me.cnt.coll, s.me.cnt.tag]
    let n := if a.a = .vz then a.sfn.toNat / 2 ^ 5 % 2 ^ 8 else (s.me.opndU a.a).toNat % 2 ^ 32
    let met := ∀ j < 5, a.sfn.getLsbD j = true → cnt.getD j 0 ≤ n
    (Issues (.wait a) (ruleS a) s →
      (T = 0 ∨ met → exec (.wait a) s = .next (s.after s)) ∧
      (T ≠ 0 → ¬ met → s.me.waiting = none → exec (.wait a) s = .next (s.waits (.wait a)))) ∧
    (Issues (.cntrd a) (ruleS a) s →
      (T = 0 → exec (.cntrd a) s = .next (s.after s)) ∧
      (T ≠ 0 → ∀ j < 5, a.sfn.toNat % 8 = j →
        exec (.cntrd a) s = .next (s.after (s.setTeam s.cur (s.me.setdU a.d (BitVec.ofNat 64 (cnt.getD j 0)))))) ∧
      (T ≠ 0 → a.sfn.toNat % 8 = 5 →
        exec (.cntrd a) s = .next (s.after (s.setTeam s.cur (s.me.setdU a.d (BitVec.ofNat 64
          (cnt.getD 0 0 + cnt.getD 1 0 * 2 ^ 8 + cnt.getD 2 0 * 2 ^ 16 + cnt.getD 3 0 * 2 ^ 24 + cnt.getD 4 0 * 2 ^ 32))))))) ∧
    (Issues (.sleep a) (ruleS a) s →
      let ns := min ((s.me.opndU a.a).toNat % 2 ^ 32) 10000000
      (T = 0 → exec (.sleep a) s = .next (s.after s)) ∧
      (T ≠ 0 → s.me.waiting = none → ns = 0 →
        exec (.sleep a) s = .next (s.after (s.setTeam s.cur (s.me.setPredMask a.pd.toNat T false)))) ∧
      (T ≠ 0 → s.me.waiting = none → ns ≠ 0 → exec (.sleep a) s = .next (s.waits (.sleep a) (s.clk.now + ns))) ∧
      (T ≠ 0 → ∀ w, s.me.waiting = some w → w.woken = false → w.until_ ≤ s.clk.now →
        exec (.sleep a) s = .next (s.after (s.setTeam s.cur (s.me.setPredMask a.pd.toNat T false)))) ∧
      (T ≠ 0 → ∀ w, s.me.waiting = some w → w.woken = true →
        exec (.sleep a) s = .next (s.after (s.setTeam s.cur (s.me.setPredMask a.pd.toNat T true)))))) ∧
  (∀ (s : State) (g : Nat) (w : Waiting) (a : SArgs), (s.team g).waiting = some w →
    let t := s.team g
    let awake := s.awake g w
    (w.instr = .stgacq a → (stageMet s g a = true → exec (.stgacqWake g) s = .next awake) ∧
      (stageMet s g a = false → exec (.stgacqWake g) s = .next s)) ∧
    (w.instr = .wait a → (waitMet t a = true → exec (.waitWake g) s = .next awake) ∧
      (waitMet t a = false → exec (.waitWake g) s = .next s)) ∧
    (w.instr = .sleep a →
      (w.until_ ≤ s.clk.now → w.ue = 0 → exec (.sleepEnd g) s = .next ((s.setTeam g { t.setPredMask a.pd.toNat (t.en a.g) w.woken with
        since := s.mcyc g }).leave g t.pc .seq)) ∧
      (s.clk.now < w.until_ → exec (.sleepEnd g) s = .next s)))

/-- 04 R89, R90, R99, R104, R107, R108. The order of requests that began to wait together is the model's choice (log 66), and a
tag whose TAGRET has not taken effect is DEDUCED to be leaving (log 54). -/
def Obligations.TagLifeCycle : Prop :=
 ((∀ (s : State) (p k : Nat), s.freeTag p = some k → 1 ≤ k ∧ k ≤ 0xFFFE ∧ s.tagState p k = .free ∧
    ∀ j, 1 ≤ j → j < k → s.tagState p j ≠ .free) ∧
  (∀ (s : State) (a : SArgs), Issues (.tagnew a) { ruleS a with banned := true } s →
    let T := s.mask a.g
    let p := s.partOf s.cur
    let since := (s.me.tagnewSince).getD s.nextWait
    let gives := fun (s' : State) (k : Nat) => exec (.tagnew a) s = .next (s.after (s'.modTeam s.cur (fun x =>
      (x.putUni true a.d (BitVec.ofNat 64 k)).setPredMask a.pd.toNat T (k != 0xFFFF))))
    let noTag := s.oldestTagnew p s.cur since = false ∨ s.freeTag p = none
    (T = 0 → exec (.tagnew a) s = .next (s.after s)) ∧
    (T ≠ 0 → s.eidOf s.cur = 0 →
      exec (.tagnew a) s = .next (State.complete s.cur s.me.pc { s := s, k := trapAll s.me.width T .perm })) ∧
    (T ≠ 0 → s.eidOf s.cur ≠ 0 →
      (∀ k, s.oldestTagnew p s.cur since = true → s.freeTag p = some k →
        gives ((s.modPart p (fun q => { q with tags := tset .free q.tags k (.live (s.eidOf s.cur)) })).modPart p
          (fun q => { q with lives := tset 0 q.lives k (tget 0 q.lives k + 1) })) k) ∧
      (noTag → s.me.waiting = none → exec (.tagnew a) s = .next (s.waits (.tagnew a))) ∧
      (noTag → ∀ w, s.me.waiting = some w → w.cycles + 2 ^ 20 * 1000 ≤ s.mcyc s.cur → gives s 0xFFFF))) ∧
  (∀ (s : State) (a : SArgs), Issues (.tagret a) { ruleS a with banned := true } s →
    let T := s.mask a.g
    let p := s.partOf s.cur
    let e := s.eidOf s.cur
    let k := (s.me.opndU a.a).toNat % 65536
    let o := s.ownOf s.cur
    let n := s.eng.nextOp
    let s1 := ({ s with eng := { s.eng with nextOp := n + 1 } } : State).modTeam s.cur (fun x => x.cntUp .tag)
    (T = 0 → exec (.tagret a) s = .next (s.after s)) ∧
    (T ≠ 0 → e ≠ 0 → k = 0 ∨ k = 0xFFFF ∨ s.tagState p k ≠ .live e →
      exec (.tagret a) s = .next (State.complete s.cur s.me.pc { s := s, k := trapAll s.me.width T .tagbad })) ∧
    (T ≠ 0 → e ≠ 0 → k ≠ 0 → k ≠ 0xFFFF → s.tagState p k = .live e → s.me.cntFull .tag = false →
      exec (.tagret a) s = .next (s.after (s1.setTag p k
        (if s.ownPending o n then .leaving e o n else .retiring e (some (o, n))))))) ∧
  (∀ (s : State) (p e o n : Nat) (g : BitVec 16), s.tagState p g.toNat = .leaving e o n →
    exec (.tagCellFree p g) s = .next (if s.ownPending o n then s else s.setTag p g.toNat (.retiring e (some (o, n))))) ∧
  (∀ (s : State) (p e : Nat) (g : BitVec 16) (o : Option (Nat × Nat)), s.tagState p g.toNat = .retiring e o →
    (s.tagCells p g = [] → exec (.tagCellFree p g) s = .next (if s.olderTagret p o then s else s.tagFreed p g.toNat o)) ∧
    (∀ c, s.tagCells p g = [c] → exec (.tagCellFree p g) s = .next
      (if s.olderTagret p o then s.freeCell c else (s.freeCell c).tagFreed p g.toNat o)) ∧
    (∀ c d cs, s.tagCells p g = c :: d :: cs → exec (.tagCellFree p g) s = .next (s.freeCell c))) ∧
  (∀ (s : State) (c : Cell), (∀ q, c.slot ≤ q → q < c.slot + 4096 → (s.freeCell c).byte q = 0) ∧
    (∀ q, q < c.slot ∨ c.slot + 4096 ≤ q → (s.freeCell c).byte q = s.byte q) ∧ c ∉ (s.freeCell c).mem.cells) ∧
  (∀ (s : State) (g : Nat) (w : Waiting) (a : SArgs), (s.team g).waiting = some w → w.instr = .tagnew a →
    let awake := s.awake g w
    let ok := s.oldestTagnew (s.partOf g) g w.seq = true ∧ (s.freeTag (s.partOf g)).isSome = true
    (ok → exec (.tagnewGrant g) s = .next awake) ∧ (¬ ok → exec (.tagnewGrant g) s = .next s) ∧
    (w.cycles + 2 ^ 20 * 1000 ≤ s.mcyc g → exec (.tagnewTimeout g) s = .next awake) ∧
    (s.mcyc g < w.cycles + 2 ^ 20 * 1000 → exec (.tagnewTimeout g) s = .next s))) ∧
 (∀ (s : State) (a : SArgs) (i : Instr) (v : W64),
    let p := s.partOf s.cur
    let e := s.eidOf s.cur
    let x := (s.me.opndU a.a).toNat
    let live := s.countTags p (fun y => y.liveIn.isSome)
    let ret := s.countTags p TagState.isRetiring
    let st := s.tagState p (x % 65536)
    (i, v) ∈
      [(Instr.tagqryFree a, BitVec.ofNat 64 (65534 - live - ret + live * 2 ^ 16 + ret * 2 ^ 32)),
       (Instr.tagqryTag a, if x % 65536 = 0 ∨ x % 65536 = 0xFFFF then BitVec.allOnes 64 else if st = .free then 0
          else if st.isRetiring = true then 3 else if st.liveIn = some e then
            BitVec.ofNat 64 (1 + (s.tagCells p (BitVec.ofNat 16 (x % 65536))).length * 2 ^ 32) else 2),
       (Instr.tagqryPool a, if 12 ≤ x then BitVec.allOnes 64
          else BitVec.ofNat 64 ((s.poolSlots p x).1 + (s.poolSlots p x).2 * 2 ^ 32))] →
    Issues i (ruleS a) s →
    let T := s.mask a.g
    (T = 0 → exec i s = .next (s.after s)) ∧
    (T ≠ 0 → e = 0 → exec i s = .next (State.complete s.cur s.me.pc { s := s, k := trapAll s.me.width T .perm })) ∧
    (T ≠ 0 → e ≠ 0 → exec i s = .next (s.after (s.setTeam s.cur (s.me.putUni true a.d v)))))

/-- 04 R102, R105, R106. That a tag whose TAGRET has not taken effect is still accepted is DEDUCED from R99 (log 54). -/
def Obligations.TagRegister : Prop :=
  (∀ (s : State) (a : SArgs) (i : Instr), i ∈ [Instr.tagset a, .wrsr a] → (i = .wrsr a → a.sfn.toNat % 2 ^ 8 = 0x14) →
    Issues i (ruleS a) s →
    let T := s.mask a.g
    let g : BitVec 16 := (s.me.opndU a.a).setWidth 16
    let mine := g = 0 ∨ (g ≠ 0xFFFF ∧ (s.tagState (s.partOf s.cur) g.toNat).liveIn = some (s.eidOf s.cur))
    let traps := fun c => exec i s = .next (State.complete s.cur s.me.pc { s := s, k := trapAll s.me.width T c })
    (T = 0 → exec i s = .next (s.after s)) ∧
    (T ≠ 0 → s.eidOf s.cur = 0 → traps .perm) ∧
    (T ≠ 0 → s.eidOf s.cur ≠ 0 → ¬ mine → traps .tagbad) ∧
    (T ≠ 0 → s.eidOf s.cur ≠ 0 → mine → exec i s = .next (s.after (s.setTeam s.cur { s.me with tag := g })))) ∧
  (∀ (s : State) (a : SArgs), Issues (.tagget a) (ruleS a) s →
    let T := s.mask a.g
    let b := s.me.rslot (a.sfn.toNat / 2 ^ 41 % 2 ^ 4)
    let g := if a.sfn.toNat / 2 ^ 40 % 2 = 1 ∧ b.tagm = 2 then b.tag else s.me.tag
    (T = 0 → exec (.tagget a) s = .next (s.after s)) ∧
    (T ≠ 0 → s.eidOf s.cur = 0 →
      exec (.tagget a) s = .next (State.complete s.cur s.me.pc { s := s, k := trapAll s.me.width T .perm })) ∧
    (T ≠ 0 → s.eidOf s.cur ≠ 0 →
      exec (.tagget a) s = .next (s.after (s.setTeam s.cur (s.me.putUni true a.d (g.setWidth 64))))))

/-- 11 R288-R290, 12 R315-R317; the operations take effect at their events (log 5). -/
def Obligations.TileInstructions : Prop :=
  (∀ (s : State) (a : TArgs),
    let T := s.mask a.g
    let n := crewNo s.cur
    let cr := s.crew n
    let k := a.ta.toNat
    let tl := cr.tileAt k
    let idle := tl.st = .empty ∨ tl.st = .ready
    let x := (s.me.opndU a.a).toNat
    let rows := x % 2 ^ 12 + (x / 2 ^ 12 % 2 ^ 12 + 1) * (x / 2 ^ 24 % 2 ^ 3 + 1)
    let put := fun (t : Tile) => s.setCrew n { cr with tile := tset Tile.reset cr.tile k t }
    let mis := s.me.opndI a.a % 16 ≠ 0 ∨ s.me.opndI a.b % 16 ≠ 0
    let started := fun (s' : State) (o : TileOp) =>
      ({ s'.modTeam s.cur (fun t => t.cntUp .tile) with
        eng := { s'.eng with nextOp := s'.eng.nextOp + 1, tileOps := s'.eng.tileOps ++ [o] } } : State)
    let op := fun (kd : TileKind) (ds : List (Nat × DestState)) (bad : Bool) => tileOp (s.ctx (ruleT s a true)) s a kd ds bad
    let rm : Rule := { ruleT s a true with srcs := [(a.a, 1), (a.b, 1), (a.d, 3)] }
    (T = 0 → (∀ p ∈ [(Instr.tdecl a, ruleT s a true), (.tfree a, ruleT s a true), (.tfill a, ruleT s a true), (.tdrain a, ruleT s a true),
        (.tmcast a, rm), (.tstat a, ruleT s a false)],
      Issues p.1 p.2 s → exec p.1 s = .next (s.after s))) ∧
    (T ≠ 0 → Issues (.tdecl a) (ruleT s a true) s → tl.st = .empty → cr.held k = false →
      (rows ≤ cr.sprows → exec (.tdecl a) s = .next (s.after (put { tl with
        base := x % 2 ^ 12, hm1 := x / 2 ^ 12 % 2 ^ 12, rwm1 := x / 2 ^ 24 % 2 ^ 3, ty := a.ty.getD .b32 }))) ∧
      (cr.sprows < rows → exec (.tdecl a) s =
        .next (State.complete s.cur s.me.pc { s := s, k := trapAll s.me.width T .oob }))) ∧
    (T ≠ 0 → Issues (.tfree a) (ruleT s a true) s → idle → cr.held k = false →
      exec (.tfree a) s = .next (s.after (put { Tile.reset with ph := tl.ph }))) ∧
    (T ≠ 0 → Issues (.tstat a) (ruleT s a false) s →
      exec (.tstat a) s = .next (s.after (s.setTeam s.cur (s.me.putUni true a.d
        (if a.tfn.toNat % 2 = 1 then tl.lstat.setWidth 64 else tl.word))))) ∧
    (T ≠ 0 → s.me.cntFull .tile = false → ∀ (i : Instr) (r : Rule),
      (i, r) ∈ [(Instr.tfill a, ruleT s a true), (.tdrain a, ruleT s a true), (.tmcast a, rm)] → Issues i r s →
      (mis → (i = .tfill a → idle ∧ cr.held k = false) → (i = .tdrain a → tl.st = .ready ∧ cr.held k = false) →
        exec i s = .next (State.complete s.cur s.me.pc { s := s, k := trapAll s.me.width T .misalign })) ∧
      (¬ mis → i = .tfill a → idle → cr.held k = false →
        exec i s = .next (s.after (started (s.modCrew n (fun c => c.setTile k { c.tileAt k with st := .filling })) (op .fill [] false)))) ∧
      (¬ mis → i = .tdrain a → tl.st = .ready → cr.held k = false →
        exec i s = .next (s.after (started (s.modCrew n (fun c => c.setTile k { c.tileAt k with st := .draining })) (op .drain [] false)))) ∧
      (¬ mis → i = .tmcast a →
        let ds := (mcastCores (s.ctx (ruleT s a true)) s a.d).map (mcastDest s s.cur k)
        (none ∈ ds → exec i s = .next (s.after (started s (op .mcast [] true)))) ∧
        (none ∉ ds → exec i s = .next (s.after (started (claimDests s k (ds.filterMap id)).1
          (op .mcast (claimDests s k (ds.filterMap id)).2 false))))))) ∧
  (∀ (s : State) (g : Nat) (w : Waiting), (s.team g).waiting = some w →
    (tileWaitOver s g w.instr = true →
      exec (.tileStateWaitEnd g) s = .next (s.awake g w)) ∧
    (tileWaitOver s g w.instr = false → exec (.tileStateWaitEnd g) s = .next s))

/-- 11 R289, R290; 12 R312, R313, R316, R317; 02 R37. An operation moves its bytes at its event: the model's choice (log 5). -/
def Obligations.TileOperationsComplete : Prop :=
 (∀ (s : State) (op : Nat) (o : TileOp),
    (s.tileHead op = none → exec (.tfillComplete op) s = .next s ∧ exec (.tdrainComplete op) s = .next s ∧
      (∀ d, exec (.tmcastDelivery op d) s = .next s) ∧ exec (.tmcastRetire op) s = .next s) ∧
    (s.tileHead op = some o →
      let n := crewNo o.agent
      let q := TileOp.req s o
      let ends := fun (s' : State) (st : TileState) (x : BitVec 8) =>
        (s'.modCrew n (fun c => c.setTile o.tile { c.tileAt o.tile with st := st, lstat := x })).dropTileOp o
      let goes := o.decl = false ∧ s.engineOpen q = true ∧ s.tileWalks o = false
      (s.tileRuns o = true → o.kind = .fill →
        (o.decl = false → s.engineOpen q = false → ∃ t, exec (.tfillComplete op) s = .next (ends t .empty 0x01) ∧ t.mem = s.mem) ∧
        (o.decl = true → exec (.tfillComplete op) s = .next (ends s .empty 0x02)) ∧
        (∀ s' bs, goes → readUnits q o s o.units [] = (s', bs, .ok) →
          exec (.tfillComplete op) s = .next (ends (s'.modCrew n (fun c => c.putTile o.tile bs)) .ready 0x00)) ∧
        (∀ s' bs x, goes → readUnits q o s o.units [] = (s', bs, .stop x) →
          exec (.tfillComplete op) s = .next (ends (s'.modCrew n (fun c => c.putTile o.tile bs)) .empty x))) ∧
      (s.tileRuns o = true → o.kind = .drain →
        (o.decl = true → exec (.tdrainComplete op) s = .next (ends s .ready 0x02)) ∧
        (∀ s' k, goes → drainUnits q o (s.crew n) s o.units = (s', .ok, k) →
          exec (.tdrainComplete op) s = .next (ends s' .ready 0x00)) ∧
        (∀ s' k x, goes → drainUnits q o (s.crew n) s o.units = (s', .stop x, k) →
          exec (.tdrainComplete op) s = .next (ends s' .ready x))) ∧
      (s.tileRuns o = true → o.kind = .mcast → ∀ d, (s.crew d).core.isSome = true → (s.crew d).done = true →
        exec (.tmcastDelivery op d) s = .next (s.setTileOp (o.mark d .done))) ∧
      (s.tileRuns o = true → o.kind = .mcast → ∀ d, (s.crew d).core.isSome = true → (s.crew d).done = false →
        (o.destState d = some .pending → mcastFree s o d = true → o.status = none → exec (.tmcastDelivery op d) s =
          .next ((s.tileSt d o.tile .filling).setTileOp (o.mark d .filling))) ∧
        (∀ s' bs, o.destState d = some .filling → o.data = none → goes → readUnits q o s o.units [] = (s', bs, .ok) →
          exec (.tmcastDelivery op d) s = .next (s'.setTileOp { o with data := some bs })) ∧
        (∀ bs, o.destState d = some .filling → o.data = some bs → exec (.tmcastDelivery op d) s =
          .next (((s.modCrew d (fun c => c.putTile o.tile bs)).endTile d o.tile .ready 0x00).setTileOp (o.mark d .done)))) ∧
      (o.kind = .mcast → s.resident o.agent = true → s.board.power = .on → (∀ x ∈ o.dests, x.2 = .done) →
        exec (.tmcastRetire op) s = .next (s.dropTileOp o))) ∧
    (let t := s.dropTileOp o
     (∀ x ∈ t.eng.tileOps, x.id ≠ o.id) ∧ (t.team o.agent).cnt.tile = (s.team o.agent).cnt.tile - 1 ∧ t.mem = s.mem)) ∧
 (∀ (b : Rec) (off : Int),
    let out := b.flat = false ∧ (off < 0 ∨ (b.extent : Int) < off + 16)
    (out → moveVa b off 16 = if b.trapOob then .error 0x03 else .ok none) ∧
    (¬ out → ∀ va : Nat, (va : Int) = (b.base : Int) + (if b.flat then off else (swizzle b off.toNat : Int)) → va < 2 ^ 57 →
      moveVa b off 16 = if va % 16 = 0 then .ok (some va) else .error 0x03)) ∧
 (∀ (o : TileOp) (r u : Nat), r ≤ o.hm1 → u < 8 * (o.rwm1 + 1) →
    o.units[8 * (o.rwm1 + 1) * r + u]? = some (o.off + r * o.pitch + 16 * u, 128 * (r * (o.rwm1 + 1)) + 16 * u)) ∧
 (∀ o : TileOp, o.units.length = (o.hm1 + 1) * (8 * (o.rwm1 + 1))) ∧
 (∀ (s : State) (q : Req) (o : TileOp) (us : List (Int × Nat)) (pa : Int → Nat) (e : Int → Ipt),
    (∀ u ∈ us, moveVa o.rc u.1 16 = .ok none ∨ ∃ va w, moveVa o.rc u.1 16 = .ok (some va) ∧
      trLine s q o.use .read none va = (s, .ok w) ∧ placeRead s q o.use va w = .at (pa u.1) (e u.1) ∧
      s.goodLines (pa u.1) 16 (e u.1) = true) →
    ∃ m, readUnits q o s us [] = ({ s with caches := m }, (us.map (fun u =>
      if moveVa o.rc u.1 16 = .ok none then List.replicate 16 0 else s.bytes (pa u.1) 16)).flatten, .ok)) ∧
 (∀ (s : State) (q : Req) (o : TileOp) (u : Int × Nat) (us : List (Int × Nat)), moveVa o.rc u.1 16 = .error 0x03 →
    readUnits q o s (u :: us) [] = (s, [], .stop 0x03) ∧
    ∀ c : Crew, c.spBad ((c.tileAt o.tile).rowAt 0 + u.2) 16 = false → drainUnits q o c s (u :: us) = (s, .stop 0x03, u.2)) ∧
 (∀ (s : State) (q : Req) (o : TileOp) (c : Crew) (us : List (Int × Nat)) (pa : Int → Nat) (e : Int → Ipt),
    (∀ u ∈ us, c.spBad (128 * (c.tileAt o.tile).base + u.2) 16 = false ∧ (moveVa o.rc u.1 16 = .ok none ∨
      ∃ va w, moveVa o.rc u.1 16 = .ok (some va) ∧ trLine s q o.use .write none va = (s, .ok w) ∧
        placeWrite s q o.use va w = (s, .ok (.at (pa u.1) (e u.1))) ∧ (e u.1).attr ≠ 2)) →
    let moved := us.filter (fun u => decide (moveVa o.rc u.1 16 ≠ .ok none))
    moved.Pairwise (fun u v => pa u.1 + 16 ≤ pa v.1 ∨ pa v.1 + 16 ≤ pa u.1) →
    ∃ t, drainUnits q o c s us = (t, .ok, 0) ∧
      (∀ u ∈ moved, t.bytes (pa u.1) 16 = c.spRead (128 * (c.tileAt o.tile).base + u.2) 16) ∧
      (∀ b, (∀ u ∈ moved, b < pa u.1 ∨ pa u.1 + 16 ≤ b) → t.byte b = s.byte b) ∧ (∀ h, t.team h = s.team h)) ∧
 (∀ (c : Crew) (k : Nat) (bs : List Byte),
    (c.putTile k bs).spRead (128 * (c.tileAt k).base) bs.length = bs ∧
    (∀ q, q < 128 * (c.tileAt k).base ∨ 128 * (c.tileAt k).base + bs.length ≤ q → (c.putTile k bs).spByte q = c.spByte q))

/-- 11 R298; 12 R311-R325. A copy takes effect at its retirement: the model's choice (log 5). The model's reading too: PERM of
CPYZ outside an enclave, a misaligned descriptor's end without a completion word, and the word under tag 0 (log 51); a refresh
as an event of a die (log 56). -/
def Obligations.CopyInstructions : Prop :=
  (∀ (s : State) (a : TArgs) (i : Instr) (k : CopyKind), (i, k) ∈ [(Instr.cpyt a, CopyKind.cpyt), (.cpyz a, .cpyz)] →
    Issues i (ruleC a) s →
    let T := s.mask a.g
    let b := s.me.rslot a.br.toNat
    let d := s.me.rslot (fnBits a.tfn 0 4)
    let o : CopyOp :=
      { id := s.eng.nextOp, owner := s.ownOf s.cur, agent := s.cur, kind := k, part := s.partOf s.cur, eid := s.eidOf s.cur
        va := (s.me.opndU a.a).toNat, desc := none, src := b, dst := d, srcTag := (s.me.tagUse b).tag
        dstTag := (s.me.tagUse d).tag, srcLife := s.tagLife (s.partOf s.cur) (s.me.tagUse b).tag
        dstLife := s.tagLife (s.partOf s.cur) (s.me.tagUse d).tag, cc := a.cc.toNat, mark := .zero, seen := .zero
        fin := none, token := none, decl := false, stall := none, cancel := false }
    (T = 0 → exec i s = .next (s.after s)) ∧
    (T ≠ 0 → s.eidOf s.cur = 0 →
      exec i s = .next (State.complete s.cur s.me.pc { s := s, k := trapAll s.me.width T .perm })) ∧
    (T ≠ 0 → s.eidOf s.cur ≠ 0 → s.me.cntFull .copy = true → s.me.waiting = none → exec i s = .next (s.waits i)) ∧
    (T ≠ 0 → s.eidOf s.cur ≠ 0 → s.me.cntFull .copy = false →
      exec i s = .next (s.after (implicitCpy (addCopy ((readDesc s o).1.takeOp.2.modTeam s.cur (fun t => t.cntUp .copy))
        (readDesc s o).2) (s.partOf s.cur))))) ∧
  (∀ (s : State) (o : CopyOp),
    (o.va % 64 ≠ 0 → readDesc s o = (s, { o with fin := some { st := 0x08, inn := 0, out := 0, fl := 0, dfl := 0 } })) ∧
    (o.va % 64 = 0 → o.decl = true ∨ 2 ^ 57 ≤ o.va →
      readDesc s o = (s, { o with fin := some { st := 0x02, inn := 0, out := 0, fl := 0, dfl := 0 } })) ∧
    (∀ s' bs, o.va % 64 = 0 → o.decl = false → o.va + o.kind.size ≤ 2 ^ 57 →
      readV s o.req .none .read (linesOf o.va o.kind.size) = (s', .ok bs) → readDesc s o = (s', { o with desc := some bs })) ∧
    (∀ s' va, o.va % 64 = 0 → o.decl = false → o.va + o.kind.size ≤ 2 ^ 57 →
      readV s o.req .none .read (linesOf o.va o.kind.size) = (s', .error (.cause .pagef va)) →
      readDesc s o = (s', { o with token := some va }))) ∧
  (∀ (s : State) (op : Nat) (o : CopyOp), s.copyHead op = some o → o.token = none → s.board.power = .on →
    (∀ (b : List Byte) (s2 : State), o.desc = some b → o.fin = none → o.cancel = false →
      noCopies s o = false → engineFor s o = true → copyReleased s o = true →
      let r := copyData s o b
      let cleared := fun (s1 : State) =>
        if o.kind = .wsld then s1.zeroWs (bfld b 2 1 * 2 ^ 28 + bfld b 4 2 * 65536) (bfld b 6 2 * 65536) else s1
      let r := if o.decl = true then { r with s := s, e := .stop 0x02, inn := o.seen.inn, out := o.seen.out, fl := o.seen.fl, dfl := o.seen.dfl }
        else r
      let ends := fun (s1 : State) (st : BitVec 8) =>
        let e : CopyEnd := { st := st, inn := r.inn, out := r.out, fl := r.fl, dfl := r.dfl }
        (bfld b 0x10 8 % 32 = 0 → bfld b 0x10 8 < 2 ^ 57 →
          writeV s1 (o.wordReq s1) .none .write none [(bfld b 0x10 8, 32)] (copyWord e) = (s2, .ok ()) →
          exec (.copyOpRetire op) s = .next (s2.dropCopy o e)) ∧
        (bfld b 0x10 8 % 32 ≠ 0 → exec (.copyOpRetire op) s = .next
          ((s1.log 0x09 0 (o.wordReq s1).world 0 o.eid (BitVec.ofNat 64 (bfld b 0x10 8))).dropCopy o e))
      (r.e = .ok → ends r.s 0x00) ∧
      (∀ st, st ≠ 0 → r.e = .stop st → ends (cleared r.s) st) ∧
      (∀ va, r.e = .page va → exec (.copyOpRetire op) s = .next (r.s.copyPage { o with mark := r.mark, seen := r.seen } r.acc va))) ∧
    (∀ e, o.fin = some e → o.desc = none → exec (.copyOpRetire op) s = .next (s.dropCopy o e))) ∧
  (∀ (s : State) (op : Nat), s.copyHead op = none → exec (.copyOpRetire op) s = .next s) ∧
  (∀ (s : State) (o : CopyOp) (e : CopyEnd), ∀ x ∈ (s.dropCopy o e).eng.copyOps, x.id ≠ o.id) ∧
  (∀ (ws : List W32), ws.length = 32 → zwsUnpack ((zwsPack ws).headD 0) 32 (zwsPack ws).tail = ws) ∧
  (∀ (s : State) (a : TArgs), Issues (.wsld a) (ruleC a) s →
    let T := s.mask a.g
    let va := (s.me.opndU a.a).toNat
    let res := fun (s' : State) (id st : Nat) =>
      exec (.wsld a) s = .next (s.after (s'.modTeam s.cur (fun t => t.putUni true a.d (BitVec.ofNat 64 (id % 4096 + st * 2 ^ 16)))))
    (T = 0 → exec (.wsld a) s = .next (s.after s)) ∧
    (T ≠ 0 → s.osThread s.cur = false →
      exec (.wsld a) s = .next (State.complete s.cur s.me.pc { s := s, k := trapAll s.me.width T .perm })) ∧
    (T ≠ 0 → s.osThread s.cur = true → s.me.cntFull .copy = false →
      (va % 64 ≠ 0 → res s va 0x02) ∧
      (∀ s', va % 64 = 0 → readBlock s (s.req s.cur) va 64 = (s', none) → res s' va 0x03) ∧
      (∀ s' b, va % 64 = 0 → readBlock s (s.req s.cur) va 64 = (s', some b) → wsldStatus s' b ≠ 0 →
        res s' va (wsldStatus s' b)) ∧
      (∀ s' b, va % 64 = 0 → readBlock s (s.req s.cur) va 64 = (s', some b) → wsldStatus s' b = 0 →
        let e := bfld b 0 2
        let o : CopyOp :=
          { id := s'.eng.nextOp, owner := s'.ownOf s.cur, agent := s.cur, kind := .wsld, part := (s'.enc e).part, eid := e
            va := va, desc := some b, src := .null, dst := .null, srcTag := 0, dstTag := 0, srcLife := 0, dstLife := 0, cc := 0
            mark := .zero, seen := .zero, fin := none, token := none, decl := false, stall := none, cancel := false }
        let s1 : State := { s' with mem := { s'.mem with
          gran := (wsldGrans b).foldl (fun m g => tset 0 m (bfld b 2 1 * 4096 + g) e) s'.mem.gran } }
        res (addCopy (s1.takeOp.2.modTeam s.cur (fun t => t.cntUp .copy)) o) va 0))) ∧
  (∀ (s : State) (key n q : Nat), key ≤ q → q < key + n → tget 0 (s.zeroWs key n).mem.ws q = 0) ∧
  (∀ (s : State) (a : SArgs), Issues (.wswin a) (ruleS a) s →
    let T := s.mask a.g
    let bank := (s.me.opndU a.a).toNat % 8
    let x := (s.clk.now + 32000 - 4000 * bank) % 32000
    let v : W64 := if isThread s.cur = true then 0 else if fnBits a.sfn 0 1 = 0 then (wswinAt s.clk.now).setWidth 64
      else if x < 400 then BitVec.ofNat 64 ((400 - x) * 65536) else BitVec.ofNat 64 (32000 - x)
    (T = 0 → exec (.wswin a) s = .next (s.after s)) ∧
    (T ≠ 0 → exec (.wswin a) s = .next (s.after (s.setTeam s.cur (s.me.putUni true a.d v))))) ∧
  (∀ (s : State) (die : Nat), ∃ t, exec (.weightStoreRefresh die) s = .next t ∧ t = { s with crews := t.crews } ∧
    ∀ n core o os, (s.crew n).core = some core → (s.crew n).mops = o :: os →
      (core / 96 = die → inWindow s.clk.now o = true → ∃ o', (t.crew n).mops = o' :: os ∧
        (∀ b ∈ ldwBanks o, s.clk.now + (wswinBank s.clk.now b).2 ≤ o'.stall) ∧ o' = { o with stall := o'.stall }) ∧
      (core / 96 ≠ die ∨ inWindow s.clk.now o = false → (t.crew n).mops = o :: os))

/-- 12 R313, R318-R324; 02 R37; 05 R123. The data move at the retirement: the model's choice (log 5); granules out of bounds count
in neither IN nor OUT (log 51). -/
def Obligations.CopyEnginesMoveTheirData : Prop :=
 (∀ (s : State) (o : CopyOp) (b : List Byte), o.mark = .zero →
    (noCopies s o = true → copyData s o b = { s := s, e := .stop 0x08 }) ∧
    (noCopies s o = false → s.engineOpen o.req = false →
      (copyData s o b).e = .stop 0x01 ∧ (copyData s o b).s.mem = s.mem ∧ (copyData s o b).inn = 0 ∧ (copyData s o b).out = 0) ∧
    (noCopies s o = false → s.engineOpen o.req = true →
      (o.kind = .cpyt → cpytDesc b = none → copyData s o b = { s := s, e := .stop 0x08 }) ∧
      (∀ d, o.kind = .cpyt → cpytDesc b = some d →
        copyData s o b = cpytRun o d { s := s } 0 (d.dims.map (fun x => x.1)).prod) ∧
      (o.kind = .cpyz → cpyzDesc b = none → copyData s o b = { s := s, e := .stop 0x08 }) ∧
      (∀ d, o.kind = .cpyz → cpyzDesc b = some d → copyData s o b = cpyzRun o d { s := s } d.src d.dst (d.len / 128)) ∧
      (o.kind = .wsld → copyData s o b =
        wsldRun o (bfld b 2 1) (bfld b 4 2 * 65536) (bfld b 8 8) { s := s } 0 (bfld b 6 2 * 512)))) ∧
 (∀ b : List Byte,
    let nd := bfld b 0x18 1
    let es : Nat := 2 ^ bfld b 0x19 1
    let at4 := fun k => bfld b (0x20 + 16 * k) 4
    let ss := fun k => sfld b (0x24 + 16 * k) 6
    let ds := fun k => sfld b (0x2A + 16 * k) 6
    ((cpytDesc b).isSome = true ↔ 1 ≤ nd ∧ nd ≤ 12 ∧ bfld b 0x19 1 ≤ 4 ∧ bfld b 0x10 8 % 32 = 0 ∧
      (∀ k, ((0x1A ≤ k ∧ k < 0x20) ∨ (0x20 + 16 * nd ≤ k ∧ k < 0x100)) → b.getD k 0 = 0) ∧
      (∀ k < nd, 1 ≤ at4 k ∧ (es : Int) ∣ ss k ∧ (es : Int) ∣ ds k) ∧ ((List.range nd).map at4).prod ≤ 2 ^ 40 ∧
      (es : Int) ∣ sfld b 0 8 ∧ (es : Int) ∣ sfld b 8 8) ∧
    (∀ d, cpytDesc b = some d → d.src = sfld b 0 8 ∧ d.dst = sfld b 8 8 ∧ d.es = es ∧
      d.dims = (List.range nd).map (fun k => (at4 k, ss k, ds k))) ∧
    ((cpyzDesc b).isSome = true ↔ (4 : Int) ∣ sfld b 0 8 ∧ (4 : Int) ∣ sfld b 8 8 ∧ bfld b 0x10 8 % 32 = 0 ∧
      bfld b 0x18 8 % 128 = 0 ∧ 128 ≤ bfld b 0x18 8 ∧ bfld b 0x18 8 ≤ 2 ^ 40 ∧ bfld b 0x20 1 ≤ 3 ∧
      (if bfld b 0x20 1 < 2 then bfld b 0x21 1 = 0 else 2 ≤ bfld b 0x21 1 ∧ bfld b 0x21 1 ≤ 24) ∧
      (∀ k, 0x22 ≤ k → k < 0x40 → b.getD k 0 = 0)) ∧
    (∀ d, cpyzDesc b = some d → d.src = sfld b 0 8 ∧ d.dst = sfld b 8 8 ∧ d.len = bfld b 0x18 8 ∧ d.mode = bfld b 0x20 1 ∧
      d.k = bfld b 0x21 1)) ∧
 (∀ (dims : List (Nat × Int × Int)) (is : List Nat), List.Forall₂ (fun d i => i < d.1) dims is →
    tupleAt dims ((dims.zip is).foldr (fun x n => x.2 + x.1.1 * n) 0) =
      (((dims.zip is).map (fun x => (x.2 : Int) * x.1.2.1)).sum, ((dims.zip is).map (fun x => (x.2 : Int) * x.1.2.2)).sum)) ∧
 (∀ (r : CopyRun) (o : CopyOp) (rc : Rec) (off : Int) (n : Nat), n ∈ [1, 2, 4, 8, 16] →
    let out := rc.flat = false ∧ (off < 0 ∨ (rc.extent : Int) < off + n)
    let va : Int := (rc.base : Int) + (if rc.flat then off else (swizzle rc off.toNat : Int))
    (out → moveVa rc off n = if rc.trapOob then .error 0x03 else .ok none) ∧
    (¬ out → moveVa rc off n = if va < 0 ∨ 2 ^ 57 ≤ va then .error 0x02 else if va % n ≠ 0 then .error 0x03 else .ok (some va.toNat)) ∧
    (∀ st, moveVa o.src off n = .error st → r.read o off n = ({ r with e := .stop st }, [])) ∧
    (moveVa o.src off n = .ok none → r.read o off n = ({ r with dfl := r.dfl ||| dOOB }, List.replicate n 0)) ∧
    (∀ bs : List Byte, bs.length = n →
      (∀ st, moveVa o.dst off n = .error st → r.write o off bs = { r with e := .stop st, acc := Kind.write.code }) ∧
      (moveVa o.dst off n = .ok none → r.write o off bs = { r with dfl := r.dfl ||| dOOB }))) ∧
 (∀ (s : State) (o : CopyOp) (d : CpytDesc) (n : Nat) (pa pb : Nat → Nat) (e f : Nat → Ipt),
    (∀ k < n, (∃ va w, moveVa o.src (d.src + (tupleAt d.dims k).1) d.es = .ok (some va) ∧
        trLine s (o.reqOf o.src) o.srcUse .read none va = (s, .ok w) ∧
        placeRead s (o.reqOf o.src) o.srcUse va w = .at (pa k) (e k) ∧ s.goodLines (pa k) d.es (e k) = true) ∧
      (∃ va w, moveVa o.dst (d.dst + (tupleAt d.dims k).2) d.es = .ok (some va) ∧
        trLine s (o.reqOf o.dst) o.dstUse .write none va = (s, .ok w) ∧
        placeWrite s (o.reqOf o.dst) o.dstUse va w = (s, .ok (.at (pb k) (f k))) ∧ (f k).attr ≠ 2)) →
    (∀ j k, j < n → k < n → pa j + d.es ≤ pb k ∨ pb k + d.es ≤ pa j) →
    let r := cpytRun o d { s := s } 0 n
    r.e = .ok ∧ r.inn = n * d.es ∧ r.out = n * d.es ∧ r.fl = 0 ∧ r.dfl = 0 ∧
      (∀ k < n, (∀ j, k < j → j < n → pb j + d.es ≤ pb k ∨ pb k + d.es ≤ pb j) → r.s.bytes (pb k) d.es = s.bytes (pa k) d.es) ∧
      (∀ a, (∀ k < n, a < pb k ∨ pb k + d.es ≤ a) → r.s.byte a = s.byte a) ∧ (∀ h, r.s.team h = s.team h)) ∧
 (∀ (r : CopyRun) (o : CopyOp) (off : Int) (n : Nat) (pa : Nat → Nat) (e : Nat → Ipt), r.e = .ok →
    ((∀ k < n, ∃ va w, moveVa o.src (off + 4 * k) 4 = .ok (some va) ∧
        trLine r.s (o.reqOf o.src) o.srcUse .read none va = (r.s, .ok w) ∧
        placeRead r.s (o.reqOf o.src) o.srcUse va w = .at (pa k) (e k) ∧ r.s.goodLines (pa k) 4 (e k) = true) →
      ∃ c, r.readWords o off n = ({ r with s := { r.s with caches := c }, inn := r.inn + 4 * n },
        (List.range n).map (fun k => BitVec.ofNat 32 (leNat (r.s.bytes (pa k) 4))))) ∧
    (∀ ws : List W32, ws.length = n →
      (∀ k < n, ∃ va w, moveVa o.dst (off + 4 * k) 4 = .ok (some va) ∧
        trLine r.s (o.reqOf o.dst) o.dstUse .write none va = (r.s, .ok w) ∧
        placeWrite r.s (o.reqOf o.dst) o.dstUse va w = (r.s, .ok (.at (pa k) (e k))) ∧ (e k).attr ≠ 2) →
      (∀ j k, j < k → k < n → pa j + 4 ≤ pa k ∨ pa k + 4 ≤ pa j) →
      let r' := r.writeWords o off ws
      r' = { r with s := r'.s, out := r.out + 4 * n } ∧
        (∀ k < n, r'.s.bytes (pa k) 4 = leBytes 4 (ws.getD k 0).toNat) ∧
        (∀ a, (∀ k < n, a < pa k ∨ pa k + 4 ≤ a) → r'.s.byte a = r.s.byte a) ∧ (∀ h, r'.s.team h = r.s.team h))) ∧
 (∀ (o : CopyOp) (d : CpyzDesc) (r : CopyRun) (a b : Int) (n : Nat), r.e = .ok →
    let r0 := r.begin (d.len / 128 - (n + 1)) (a - d.src) (b - d.dst)
    let p := r0.readWords o a 32
    let h := r0.readWords o a 1
    let hd := h.2.headD 0
    let body := fun k => h.1.readWords o (a + 4) k
    let ones := ((List.range 32).filter (fun j => hd.getLsbD j)).length
    (d.mode = 0 → p.1.e = .ok →
      cpyzRun o d r a b (n + 1) = cpyzRun o d (p.1.writeWords o b (zwsPack p.2)) (a + 128) (b + 4 * (zwsPack p.2).length) n) ∧
    (d.mode = 2 → p.1.e = .ok →
      cpyzRun o d r a b (n + 1) = cpyzRun o d ({ p.1 with fl := p.1.fl ||| (bfqPack d.k p.2).2 }.writeWords o b (bfqPack d.k p.2).1)
        (a + 128) (b + 4 * (bfqPack d.k p.2).1.length) n) ∧
    (d.mode = 1 → h.1.e = .ok → (body ones).1.e = .ok →
      cpyzRun o d r a b (n + 1) =
        cpyzRun o d ((body ones).1.writeWords o b (zwsUnpack hd 32 (body ones).2)) (a + 4 + 4 * ones) (b + 128) n) ∧
    (d.mode = 3 → h.1.e = .ok → bfqOk hd d.k = false → cpyzRun o d r a b (n + 1) = { h.1 with e := .stop 0x0A }) ∧
    (d.mode = 3 → h.1.e = .ok → bfqOk hd d.k = true → (body d.k).1.e = .ok →
      cpyzRun o d r a b (n + 1) = cpyzRun o d ((body d.k).1.writeWords o b (bfqUnpack (hd.toNat % 256) d.k (body d.k).2))
        (a + 4 + 4 * d.k) (b + 128) n) ∧
    cpyzRun o d r a b 0 = r) ∧
 (∀ ws : List W32, ws.length = 32 → ∃ m : W32, zwsPack ws = m :: ws.filter (fun w => w != 0) ∧
    ∀ j < 32, m.getLsbD j = decide (ws.getD j 0 ≠ 0)) ∧
 (∀ xs : List W32,
    let field := fun (x : W32) => x.toNat / 2 ^ 23 % 256
    1 ≤ bfqE xs ∧ (∀ x ∈ xs, field x ≠ 255 → field x ≤ bfqE xs) ∧
      (bfqE xs = 1 ∨ ∃ x ∈ xs, field x ≠ 255 ∧ field x = bfqE xs)) ∧
 (∀ (e k : Nat) (x : W32), 2 ≤ k → k ≤ 24 →
    let field := x.toNat / 2 ^ 23 % 256
    let m := x.toNat % 2 ^ 23 + (if field = 0 then 0 else 2 ^ 23)
    let q1 := e + 25 - k - max 1 field
    let top := 2 ^ (k - 1) - 1
    (field = 255 → bfqCode e k x = (-(2 : Int) ^ (k - 1), fIV)) ∧
    (field ≠ 255 → max 1 field ≤ e → ∃ q : Nat,
      2 * m ≤ (2 * q + 1) * 2 ^ q1 ∧ 2 * q * 2 ^ q1 ≤ 2 * m + 2 ^ q1 ∧
      ((2 * m = (2 * q + 1) * 2 ^ q1 ∨ 2 * q * 2 ^ q1 = 2 * m + 2 ^ q1) → q % 2 = 0) ∧
      bfqCode e k x = (if x.getLsbD 31 then -((min q top : Nat) : Int) else ((min q top : Nat) : Int),
        flagIf (m ≠ q * 2 ^ q1) fNX ||| flagIf (top < q) fSAT))) ∧
 (∀ (k : Nat) (xs : List W32), 2 ≤ k → k ≤ 24 → xs.length = 32 →
    let e := bfqE xs
    ∃ ps : List W32, bfqPack k xs = (BitVec.ofNat 32 (e + 256 * k) :: ps, xs.foldl (fun f x => f ||| (bfqCode e k x).2) 0) ∧
      ps.length = k ∧ ∀ j < 32, ∀ i < k,
        (ps.getD ((k * j + i) / 32) 0).getLsbD ((k * j + i) % 32) = (wrapI (bfqCode e k (xs.getD j 0)).1 k).testBit i) ∧
 (∀ (e k : Nat), 2 ≤ k → k ≤ 24 →
    (∀ (ws : List W32), ws.length = k → (bfqUnpack e k ws).length = 32 ∧
      ∀ j < 32, ∃ c, c < 2 ^ k ∧ (bfqUnpack e k ws).getD j 0 = bfqVal e k c ∧
        ∀ i < k, c.testBit i = (ws.getD ((k * j + i) / 32) 0).getLsbD ((k * j + i) % 32)) ∧
    bfqVal e k 0 = 0 ∧ bfqVal e k (2 ^ (k - 1)) = 0x7FC00000 ∧
    (∀ c, 1 ≤ e → e ≤ 254 → 0 < c → c < 2 ^ k → c ≠ 2 ^ (k - 1) →
      rnd .f32 .exact (XR.ofFin (sextI c k < 0) (sextI c k).natAbs ((e : Int) - 125 - k)) =
        { pat := (bfqVal e k c).toNat, fl := 0 }) ∧
    (∀ h : W32, bfqOk h k = true ↔
      h.toNat % 256 ≠ 0 ∧ h.toNat % 256 ≠ 255 ∧ h.toNat / 256 % 256 = k ∧ h.toNat / 65536 = 0)) ∧
 (∀ (s : State) (o : CopyOp) (die off src n : Nat) (pa : Nat → Nat) (e : Nat → Ipt),
    (∀ k < n, src + 128 * k < 2 ^ 57 ∧ ∃ w, trLine s o.req .none .read none (src + 128 * k) = (s, .ok w) ∧
      placeRead s o.req .none (src + 128 * k) w = .at (pa k) (e k) ∧ s.goodLines (pa k) 128 (e k) = true) →
    let r := wsldRun o die off src { s := s } 0 n
    r.e = .ok ∧ r.inn = 128 * n ∧ r.out = 128 * n ∧ r.s.mem.hbm = s.mem.hbm ∧
      (∀ k < n, ∀ i < 128, tget 0 r.s.mem.ws (die * 2 ^ 28 + off + 128 * k + i) = s.byte (pa k + i)) ∧
      (∀ q, (q < die * 2 ^ 28 + off ∨ die * 2 ^ 28 + off + 128 * n ≤ q) → tget 0 r.s.mem.ws q = tget 0 s.mem.ws q)) ∧
 (∀ e : CopyEnd, (copyWord e).length = 32 ∧ bfld (copyWord e) 0 1 = e.st.toNat ∧ bfld (copyWord e) 1 7 = 0 ∧
    bfld (copyWord e) 8 8 = e.inn % 2 ^ 64 ∧ bfld (copyWord e) 0x10 8 = e.out % 2 ^ 64 ∧ bfld (copyWord e) 0x18 8 = 0) ∧
 (∀ (s : State) (b : List Byte),
    let eid := bfld b 0 2
    let die := bfld b 2 1
    let g := bfld b 4 2
    let n := bfld b 6 2
    let ok := die ≤ 7 ∧ bfld b 3 1 = 0 ∧ g ≤ 4095 ∧ 1 ≤ n ∧ g + n ≤ 4096 ∧ bfld b 8 8 % 65536 = 0 ∧ bfld b 0x10 8 % 32 = 0 ∧
      (∀ k, 0x18 ≤ k → k < 0x40 → b.getD k 0 = 0)
    let gone := (s.enc eid).st = .free ∨ (s.enc eid).st = .dying
    let owner := fun k => tget 0 s.mem.gran (die * 4096 + k)
    let foreign := ∃ k, g ≤ k ∧ k < g + n ∧ owner k ≠ 0 ∧ owner k ≠ eid
    let busy := ∃ k, g ≤ k ∧ k < g + n ∧ ((owner k = eid ∧ wsMapped s eid die = true) ∨ wsldBusy s die k = true)
    (¬ ok → wsldStatus s b = 0x02) ∧ (ok → gone → wsldStatus s b = 0x08) ∧
    (ok → ¬ gone → (s.enc eid).st ≠ .sealed → wsldStatus s b = 0x07) ∧
    (ok → (s.enc eid).st = .sealed → foreign → wsldStatus s b = 0x05) ∧
    (ok → (s.enc eid).st = .sealed → ¬ foreign → busy → wsldStatus s b = 0x09) ∧
    (ok → (s.enc eid).st = .sealed → ¬ foreign → ¬ busy → wsldStatus s b = 0x00))

/-- 13 R332, R336, R342, R344. -/
def Obligations.MatrixInstructionsIssue : Prop :=
  (∀ (s : State) (a : TArgs) (i : Instr) (r : Rule) (r0 : Nat) (ok : Bool),
    let n := crewNo s.cur
    let cr := s.crew n
    let T := s.mask a.g
    let ta := a.ta.toNat
    let tb := a.tb.toNat
    let acc := a.acc.toNat
    let M := fnBits a.tfn 0 7 + 1
    let x := (s.me.opndU a.a).toNat
    let row := x % 2 ^ 32
    let C := colBytes (fnBits a.tfn 1 1 == 1) (a.ty.getD .f16)
    let inTile := fun (k rows bytes : Nat) =>
      decide (row + rows ≤ (cr.tileAt k).hm1 + 1) && decide (bytes ≤ 128 * ((cr.tileAt k).rwm1 + 1))
    let size := fun (k : Nat) => 128 * ((cr.tileAt k).hm1 + 1) * ((cr.tileAt k).rwm1 + 1)
    let sc : Nat := if a.ty = some .e8 then 1 else 4
    (i, r, r0, ok) ∈
      [(Instr.ldw a, ruleX s a [ta] [], row, inTile ta 32 C),
       (.ldwWs a, ruleX s a [] [], x, wsOwned s (s.eidOf s.cur) (s.dieOf s.cur) x (32 * C)),
       (.swpw a, ruleX s a [] [], 0, true),
       (.mma a, ruleX s a [ta] [acc], row, decide (row + M ≤ (cr.tileAt ta).hm1 + 1)),
       (.mmas a, ruleX s a [ta] [acc], row, decide (row + M ≤ (cr.tileAt ta).hm1 + 1)),
       (.aclr a, ruleX s a [] [acc], 0, true),
       (.ald a, ruleX s a [ta] [acc], row, inTile ta M 128),
       (.amovTile a, ruleX s a [ta] [acc], row, inTile ta M (4 * (a.ty.getD .f32).bits)),
       (.scacc a, ruleX s a [ta, tb] [acc, fnBits a.tfn 14 2], 0, decide (M * sc ≤ size ta) && decide (32 * sc ≤ size tb))] →
    Issues i r s →
    let free := (∀ k ∈ tilesNamed i, (cr.tileAt k).st = .ready) ∧ s.me.cntFull .matrix = false
    (T = 0 → exec i s = .next (s.after s)) ∧
    (T ≠ 0 → ¬ free → s.me.waiting = none → exec i s = .next (s.waits i)) ∧
    (T ≠ 0 → free → ok = false → exec i s = .next (State.complete s.cur s.me.pc
      { s := s, k := trapAll s.me.width T (if i = .ldwWs a then .perm else .oob) })) ∧
    (T ≠ 0 → free → ok = true →
      let o : MatOp := { id := s.eng.nextOp, agent := s.cur, instr := i, r0 := r0, fpmode := s.me.fpmode, gen := s.me.amovGen, stall := 0 }
      let s1 := (s.takeOp.2.modTeam s.cur (fun t => t.cntUp .matrix)).modCrew n (fun c => { c with mops := c.mops ++ [o] })
      exec i s = .next (s.after (if i = .amovTile a ∧ (amovCtl s.me.fpmode a).md = .sr
        then s1.modTeam s.cur (fun t => { t with amovGen := advN M t.amovGen }) else s1)))) ∧
  (∀ (s : State) (a : TArgs) (res : Nat → LaneRes), Issues (.amov a) { ruleX s a [] [a.acc.toNat] with banned := false, srcs := [] } s →
    let T := s.mask a.g
    let n := crewNo s.cur
    let cr := s.crew n
    let v := amovCtl s.me.fpmode a
    let ps := passList s.me false
    let row := fun (l : Nat) => fnBits a.tfn 7 7 + l / 32
    let ty := a.ty.getD .f32
    (cr.mops ≠ [] → s.me.waiting = none → exec (.amov a) s = .next (s.waits (.amov a))) ∧
    (cr.mops = [] → s.me.DestOk T a.d false →
      (∀ l ∈ s.me.lanesOf T, row l < 128 ∧ cr.badBank.contains (bankKey a.acc.toNat (row l) (l % 32)) = false) →
      (∀ l, res l = (let o := (convert (if fnBits a.tfn 15 1 = 1 then .i32 else .f32) ty
          { v with w := laneWord s.me.amovGen ps false l } false false (cr.bankAt a.acc.toNat (row l) (l % 32)).toNat).1
        { val := (Ty.extend ty o.pat).setWidth 64, fl := o.fl })) →
      ∃ t' c', exec (.amov a) s = .next (s.after ((s.setTeam s.cur { t' with
          amovGen := if v.md = .sr then advN ps.length s.me.amovGen else s.me.amovGen }).setCrew n c')) ∧
        Wrote s.me t' T a.d false res ∧ c' = { cr with bank := c'.bank, badBank := c'.badBank } ∧
        ∀ b r k, r < 128 → k < 32 → c'.bankAt b r k =
          if fnBits a.tfn 16 1 = 1 ∧ b = a.acc.toNat ∧ (∃ l ∈ s.me.lanesOf T, r = row l ∧ k = l % 32) then 0 else cr.bankAt b r k)) ∧
  (∀ (s : State) (a : TArgs), Issues (.wstat a) { guard := a.g } s →
    let T := s.mask a.g
    let n := crewNo s.cur
    let cr := s.crew n
    let s1 := s.setTeam s.cur (s.me.putUni true a.d (wstatWord cr))
    (T = 0 → exec (.wstat a) s = .next (s.after s)) ∧
    (T ≠ 0 → exec (.wstat a) s = .next (s.after (if fnBits a.tfn 0 1 = 1 then s1.setCrew n { cr with mstat := 0 } else s1))))

/-- 13 R327-R344. An operation takes effect at its retirement: the model's choice (log 5). That an operation over granules still
being loaded waits is the model's reading (log 72). -/
def Obligations.MatrixArray : Prop :=
  (∀ (s : State) (op n : Nat) (c : Crew) (o : MatOp) (os : List MatOp),
    let mine := s.crews.find? (fun x => x.2.core.isSome && !x.2.done && (x.2.mops.head?.map (fun o => o.id)) == some op)
    (mine = none → exec (.matrixOpRetire op) s = .next s) ∧
    (mine = some (n, c) → c.mops = o :: os → s.board.power = .on → o.stall ≤ s.clk.now → inWindow s.clk.now o = false →
      midLoad s o = false → ∃ t, exec (.matrixOpRetire op) s = .next t ∧
        let r := matRun s (s.crew n) o
        t.crew n = { r.c with mops := r.c.mops.tail, mstat := if r.c.mstat = 0 then r.st else r.c.mstat } ∧
        (t.team o.agent).cnt.matrix = (s.team o.agent).cnt.matrix - 1 ∧
        (t.team o.agent).fpflags = (s.team o.agent).fpflags ||| r.fl ∧
        (t.team o.agent).devflags = (s.team o.agent).devflags ||| r.dfl ∧ t.mem = s.mem) ∧
    (mine = some (n, c) → c.mops = o :: os → midLoad s o = true → exec (.matrixOpRetire op) s = .next s)) ∧
  ((∀ v s k i : Nat, packedAt v s k < 2 ^ s ∧ (i < s → (packedAt v s k).testBit i = v.testBit (s * k + i))) ∧
   (∀ w x, pairOk w x = true ↔ (w, x) ∈ [(Ty.f16, Ty.f16), (.bf16, .bf16), (.f8e4, .f8e4), (.f8e4, .f8e5), (.f8e5, .f8e4),
      (.f8e5, .f8e5), (.f4, .f4), (.i8, .i8), (.i4, .i4), (.t2, .i8)]) ∧
   [Ty.f16, .bf16, .f8e4, .f8e5, .f4, .i8, .i4, .t2].map packOf = [1, 1, 2, 2, 4, 2, 4, 8] ∧
   (∀ (p : Plane) (ty : Ty) (n : Nat),
      let V := leNat ((List.range 128).map (fun j => tget 0 p.w (n * 1024 + j)))
      let N := leNat ((List.range (16 * packOf ty)).map (fun j => tget 0 p.w (n * 1024 + 128 + j)))
      (p.sparse = false → p.col ty n = (List.range (64 * packOf ty)).map (fun k => (k, packedAt V ty.bits k))) ∧
      (p.sparse = true → ((p.col ty n).map (fun q => q.1)).Nodup ∧ ∀ k w, (k, w) ∈ p.col ty n ↔ ∃ g < 32 * packOf ty,
        (k = 4 * g + packedAt N 2 (2 * g + 1) ∧ w = packedAt V ty.bits (2 * g + 1)) ∨
        (packedAt N 2 (2 * g) ≠ packedAt N 2 (2 * g + 1) ∧ k = 4 * g + packedAt N 2 (2 * g) ∧ w = packedAt V ty.bits (2 * g))))) ∧
  (∀ (s : State) (c : Crew) (o : MatOp) (a : TArgs),
    let r := matRun s c o
    let M := fnBits a.tfn 0 7 + 1
    let A := fnBits a.tfn 7 7
    let acc := a.acc.toNat
    let ta := a.ta.toNat
    let bankOnly := r.c = { c with bank := r.c.bank, badBank := r.c.badBank }
    let rows := fun (f : Nat → Nat → W32) => bankOnly ∧ ∀ b q n, q < 128 → n < 32 →
      r.c.bankAt b q n = if b = acc ∧ A ≤ q ∧ q < A + M then f (q - A) n else c.bankAt b q n
    let ors := fun (x : W32) (f : Nat → Nat → W32) => ∀ i, x.getLsbD i = true ↔ ∃ m < M, ∃ n < 32, (f m n).getLsbD i = true
    let nothing := fun (st : BitVec 8) => r.c = c ∧ r.st = st ∧ r.fl = 0 ∧ r.dfl = 0
    (o.instr = .swpw a → r.c = { c with act := c.shd, shd := c.act } ∧ r.st = 0 ∧ r.fl = 0 ∧ r.dfl = 0) ∧
    (∀ ws, o.instr = (if ws = true then .ldwWs a else .ldw a) →
      let ty := a.ty.getD .f16
      let C := if fnBits a.tfn 1 1 = 1 then 128 + 16 * packOf ty else 128
      let key := s.dieOf o.agent * 2 ^ 28 + o.r0
      let byte := fun (n j : Nat) => if ws = true then tget 0 s.mem.ws (key + n * C + j)
        else c.spByte ((c.tileAt ta).rowAt (o.r0 + n) + j)
      let owned := ws = true → wsOwned s c.eid (s.dieOf o.agent) o.r0 (32 * C) = true
      let unread := if ws = true then ∃ x ∈ s.mem.badWs, key / 128 ≤ x ∧ x < (key + 32 * C) / 128
        else ∃ n < 32, c.spBad ((c.tileAt ta).rowAt (o.r0 + n)) C = true
      let two := fun (n j q : Nat) => (byte n j).toNat / 4 ^ q % 4 = 2
      (¬ owned → nothing 0x02) ∧
      (owned → unread → r.c = { c with shd := { c.shd with poison := true } } ∧ r.st = 0x06) ∧
      (owned → ¬ unread → r.c = { c with shd := r.c.shd } ∧ r.c.shd.valid = true ∧ r.c.shd.poison = false ∧ r.c.shd.bad = false ∧
        r.c.shd.sparse = ldwSp a ∧ r.c.shd.ty = some ty ∧ r.st = 0 ∧ r.fl = 0 ∧
        (∀ n < 32, ∀ j < C, (ty ≠ .t2 ∨ 128 ≤ j → tget 0 r.c.shd.w (n * 1024 + j) = byte n j) ∧
          (ty = .t2 → j < 128 → ∀ q < 4, (tget 0 r.c.shd.w (n * 1024 + j)).toNat / 4 ^ q % 4 =
            if two n j q then 0 else (byte n j).toNat / 4 ^ q % 4)) ∧
        ((ty = .t2 ∧ ∃ n < 32, ∃ j < 128, ∃ q < 4, two n j q) → r.dfl = dBADT) ∧
        (¬ (ty = .t2 ∧ ∃ n < 32, ∃ j < 128, ∃ q < 4, two n j q) → r.dfl = 0))) ∧
    (A + M ≤ 128 → o.instr = .aclr a → rows (fun _ _ => 0) ∧ r.st = 0 ∧ r.fl = 0 ∧ r.dfl = 0) ∧
    (A + M ≤ 128 → o.instr = .ald a →
      ((∀ m < M, c.tileRowBad ta (o.r0 + m) 128 = false) →
        rows (fun m n => BitVec.ofNat 32 (leNat (c.spRead ((c.tileAt ta).rowAt (o.r0 + m) + 4 * n) 4))) ∧ r.st = 0 ∧ r.fl = 0 ∧ r.dfl = 0) ∧
      ((∃ m < M, c.tileRowBad ta (o.r0 + m) 128 = true) → nothing 0x06)) ∧
    (∀ sp, o.instr = (if sp = true then .mmas a else .mma a) →
      let x := a.ty.getD .f16
      let p := c.act
      let z := fnBits a.tfn 14 1 = 1
      (p.valid = false → nothing 0x08) ∧
      (∀ w, p.ty = some w → p.valid = true → (p.poison = true ∨ p.bad = true) → nothing 0x06) ∧
      (∀ w, p.ty = some w → p.valid = true → p.poison = false → p.bad = false → (p.sparse ≠ sp ∨ pairOk w x = false) → nothing 0x08) ∧
      (∀ w, p.ty = some w → p.valid = true → p.poison = false → p.bad = false → p.sparse = sp → pairOk w x = true →
        let K := (if sp = true then 128 else 64) * packOf w
        let bytes := K * x.bits / 8
        let fits := bytes ≤ 128 * ((c.tileAt ta).rwm1 + 1)
        let good := (∀ m < M, c.tileRowBad ta (o.r0 + m) bytes = false) ∧ (z ∨ c.bankBad acc A M = false)
        let xs := fun (m k : Nat) => packedAt (leNat (c.tileRow ta (o.r0 + m) bytes)) x.bits k
        let start := fun (m n : Nat) => if z then (0 : W32) else c.bankAt acc (A + m) n
        (¬ fits → nothing 0x03) ∧
        (fits → ¬ good → nothing 0x06) ∧
        (A + M ≤ 128 → fits → good → x.isF = false →
          let e := fun (m n : Nat) => (start m n).toInt + ((p.col w n).map (fun q => Ty.intVal w q.2 * Ty.intVal x (xs m q.1))).sum
          rows (fun m n => BitVec.ofInt 32 (e m n)) ∧ r.st = 0 ∧ r.fl = 0 ∧
            ors r.dfl (fun m n => flagIf (e m n < -2 ^ 31 ∨ 2 ^ 31 ≤ e m n) dIOVF)) ∧
        (A + M ≤ 128 → fits → good → x.isF = true →
          let ps := fun (n g : Nat) => (p.col w n).filter (fun q => q.1 / 16 == g)
          let grp := fun (m n g : Nat) => if ps n g = [] then ({ pat := 0, fl := 0 } : FOut)
            else rnd .f32 .exact (sumX .rne ((ps n g).map (fun q => (Ty.val w q.2).mul (Ty.val x (xs m q.1)))))
          let sn := fun (m n g : Nat) => ∃ q ∈ ps n g, Ty.isSNaN w q.2 = true ∨ Ty.isSNaN x (xs m q.1) = true
          ∃ y : Nat → Nat → Nat → FOut, (∀ m n, y m n 0 = { pat := (start m n).toNat, fl := 0 }) ∧
            (∀ m n g, let u := rnd .f32 .exact (sumX .rne [some (Ty.val .f32 (y m n g).pat), some (Ty.val .f32 (grp m n g).pat)])
              (y m n (g + 1)).pat = u.pat ∧
              ∀ i, (y m n (g + 1)).fl.getLsbD i = true ↔ ((y m n g).fl.getLsbD i = true ∨ (grp m n g).fl.getLsbD i = true ∨
                u.fl.getLsbD i = true ∨ ((sn m n g ∨ Ty.isSNaN .f32 (y m n g).pat = true) ∧ fIV.getLsbD i = true))) ∧
            let tiny := fun (m n : Nat) => a.ftzo = true ∧ Ty.isSub .f32 (y m n (K / 16)).pat = true
            rows (fun m n => BitVec.ofNat 32 (if tiny m n then (y m n (K / 16)).pat / 2 ^ 31 * 2 ^ 31 else (y m n (K / 16)).pat)) ∧
            r.st = 0 ∧ r.dfl = 0 ∧ ors r.fl (fun m n => (y m n (K / 16)).fl ||| flagIf (tiny m n) (fUF ||| fNX))))) ∧
    (A + M ≤ 128 → o.instr = .scacc a → c.badSp = [] → c.badBank = [] →
      let src := fnBits a.tfn 14 2
      let e8 := a.ty = some .e8
      let si := fnBits a.tfn 16 1 = 1
      let raw := fun (k j : Nat) => leNat (c.spRead ((c.tileAt k).rowAt 0 + (if e8 then j else 4 * j)) (if e8 then 1 else 4))
      let sv := fun (k j : Nat) => if e8 then (if raw k j = 255 then FV.nan else FV.fin false 1 ((raw k j : Int) - 127))
        else Ty.val .f32 (raw k j)
      let x := fun (m n : Nat) => c.bankAt src (A + m) n
      let pv := fun (m n : Nat) => if si then FV.fin (decide ((x m n).toInt < 0)) (x m n).toInt.natAbs 0 else Ty.val .f32 (x m n).toNat
      let e := fun (m n : Nat) => rnd .f32 { FEnv.exact with fo := a.ftzo } (sumX .rne
        [some (Ty.val .f32 (c.bankAt acc (A + m) n).toNat), ((pv m n).mul (sv ta m)).bind (fun z => z.mul (sv a.tb.toNat n))])
      let sn := fun (m n : Nat) => (¬ si ∧ Ty.isSNaN .f32 (x m n).toNat = true) ∨ Ty.isSNaN .f32 (c.bankAt acc (A + m) n).toNat = true ∨
        (¬ e8 ∧ (Ty.isSNaN .f32 (raw ta m) = true ∨ Ty.isSNaN .f32 (raw a.tb.toNat n) = true))
      r.st = 0 ∧ bankOnly ∧ ors r.fl (fun m n => (e m n).fl ||| (if sn m n then fIV else 0)) ∧
        ∀ b q n, q < 128 → n < 32 → r.c.bankAt b q n =
          if fnBits a.tfn 17 1 = 1 ∧ b = src ∧ A ≤ q ∧ q < A + M then 0
          else if b = acc ∧ A ≤ q ∧ q < A + M then BitVec.ofNat 32 (e (q - A) n).pat else c.bankAt b q n) ∧
    (A + M ≤ 128 → o.instr = .amovTile a →
      let ty := a.ty.getD .f32
      let row := fun m => (c.tileAt ta).rowAt (o.r0 + m)
      (c.bankBad acc A M = true → nothing 0x06) ∧
      (c.bankBad acc A M = false → 4 * ty.bits ≤ 128 * ((c.tileAt ta).rwm1 + 1) →
        let e := fun (m n : Nat) => (convert (if fnBits a.tfn 15 1 = 1 then .i32 else .f32) ty
          { amovCtl o.fpmode a with w := rotl (advN (m + 1) o.gen) (5 * n) } false false (c.bankAt acc (A + m) n).toNat).1
        r.st = 0 ∧ r.dfl = 0 ∧ ors r.fl (fun m n => (e m n).fl) ∧
        (∀ m < M, ∀ n < 32, packedAt (leNat (r.c.spRead (row m) (4 * ty.bits))) ty.bits n = (e m n).pat % 2 ^ ty.bits) ∧
        (∀ q, (∀ m < M, q < row m ∨ row m + 4 * ty.bits ≤ q) → r.c.spByte q = c.spByte q) ∧
        r.c = { c with sp := r.c.sp, badSp := r.c.badSp, bank := r.c.bank, badBank := r.c.badBank } ∧
        ∀ b q n, q < 128 → n < 32 → r.c.bankAt b q n =
          if fnBits a.tfn 16 1 = 1 ∧ b = acc ∧ A ≤ q ∧ q < A + M then 0 else c.bankAt b q n)))

/-- 17 R442-R446. A restore under a tag that is not LIVE answers FAULT: the model's reading (log 31). -/
def Obligations.MustSaveItems : Prop :=
  (∀ (s : State) (a : SArgs) (i : Instr) (q : Rule), (i, q) ∈
      [(Instr.msdecl a, { ruleS a with banned := true, srcs := [(a.a, 2), (a.b, 1)] }), (.msdeclRec a, { ruleS a with banned := true }),
       (.msdrop a, { ruleS a with banned := true }), (.msqryCap a, ruleS a), (.msqryItem a, ruleS a), (.msqryRst a, ruleS a),
       (.msqryLost a, ruleS a)] →
    Issues i q s →
    (s.mask a.g = 0 → exec i s = .next (s.after s)) ∧
    (s.mask a.g ≠ 0 → s.eidOf s.cur = 0 →
      exec i s = .next (State.complete s.cur s.me.pc { s := s, k := trapAll s.me.width (s.mask a.g) .perm }))) ∧
  (∀ (s : State) (a : SArgs) (i : Instr) (q : Rule) (r : State × Nat × Nat),
    let key : W32 := (s.me.opndU a.b).setWidth 32
    let c := s.me.rslot (fnBits a.sfn 1 4)
    (i, q, r) ∈ [(Instr.msdecl a, { ruleS a with banned := true, srcs := [(a.a, 2), (a.b, 1)] }, msdecl s (s.req s.cur) false ((s.me.uniAt a.a 0).toNat % 2 ^ 57) (s.me.uniAt a.a 1).toNat key
        { tag := s.me.tag, must := false }),
      (.msdeclRec a, { ruleS a with banned := true }, msdecl s (s.req s.cur) c.flat c.base ((c.extent + 4095) / 4096 * 4096) key (s.me.tagUse c))] →
    Issues i q s → s.mask a.g ≠ 0 → s.eidOf s.cur ≠ 0 →
    exec i s = .next (s.after (r.1.modTeam s.cur (fun t =>
      (t.putUni true a.d (msWord (r.1.eidOf s.cur) r.2.1 r.2.2)).setPredMask a.pd.toNat (s.mask a.g) (r.2.1 = 0))))) ∧
  (∀ (s : State) (r : Req) (bad : Bool) (va len : Nat) (key : W32) (g : TagUse),
    let e := s.enc r.eid
    let range := bad = true ∨ va % 4096 ≠ 0 ∨ len % 4096 ≠ 0 ∨ len < 4096 ∨ 6 * 2 ^ 30 < len
    let pages := va + len ≤ 2 ^ 57 ∧ ∀ p ∈ pagesOf va len, (s.primaryPage r p).isSome = true
    let dup := ∃ i ∈ e.items, i.key = key
    let full := 1024 ≤ e.items.length ∨ s.board.capacity < s.itemTotal + len
    (range → msdecl s r bad va len key g = (s, 0x02, 0)) ∧
    (¬ range → ¬ pages → msdecl s r bad va len key g = (s, 0x03, 0)) ∧
    (¬ range → pages → dup → msdecl s r bad va len key g = (s, 0x06, 0)) ∧
    (¬ range → pages → ¬ dup → full → msdecl s r bad va len key g = (s, 0x0E, 0)) ∧
    (¬ range → pages → ¬ dup → ¬ full → s.lowestItem r.eid key = none →
      msdecl s r bad va len key g = (s.modEnc r.eid (fun e => { e with
        items := e.items ++ [{ va := va, len := len, key := key, tag := g.tag }] }), 0, 0)) ∧
    (∀ i, ¬ range → pages → ¬ dup → ¬ full → s.lowestItem r.eid key = some i →
      let n := len / 4096
      let at4 := fun k => va + 4096 * k
      let m := msdecl s r bad va len key g
      let t := m.1
      let adds := fun (s1 : State) => s1.modEnc r.eid (fun e => { e with
        items := e.items ++ [{ va := va, len := len, key := key, tag := g.tag }] })
      let whole := i.st = 1 ∧ i.bad = false ∧ i.len = len
      let tags := ∀ p ∈ pagesOf va len, itemTagOk s r g p = true
      let plain := ∀ p ∈ pagesOf va len, ∀ pfn e, s.primaryPage r p = some (pfn, e) → e.attr ≠ 2
      let under := ∀ p ∈ pagesOf va len, ∀ pfn e, s.primaryPage r p = some (pfn, e) → e.tagged = true ∧ g.tag ≠ 0 ∧
        ∀ q < 16, s.cellOf r.part pfn q g.tag = none
      let apart := ∀ p ∈ pagesOf va len, ∀ q ∈ pagesOf va len, p ≠ q → (s.primaryPage r p).map (fun x => x.1) ≠ (s.primaryPage r q).map (fun x => x.1)
      let wrote := ∀ k < n, ∀ pfn e, s.primaryPage r (at4 k / 65536) = some (pfn, e) →
        ∀ j < 4096, t.byte (pfn * 65536 + at4 k % 65536 + j) = tget 0 i.bytes (4096 * k + j)
      let celled := ∀ k < n, ∀ pfn e, s.primaryPage r (at4 k / 65536) = some (pfn, e) →
        ∃ slot, t.cellOf r.part pfn (at4 k / 4096 % 16) g.tag = some slot ∧
          ∀ j < 4096, t.byte (slot + j) = tget 0 i.bytes (4096 * k + j)
      let none4 := ∃ k < n, ∃ pfn e, s.primaryPage r (at4 k / 65536) = some (pfn, e) ∧ s.freeSlot r.part pfn (at4 k / 4096 % 16) = none
      (i.st ≠ 1 ∨ i.bad = true ∨ i.len ≠ len → m = (adds ((s.verify i).1.discard (s.verify i).2), 0, 2)) ∧
      (whole → ¬ tags → m = (s, 0x03, 0)) ∧
      (whole → tags → plain → apart → (g.tag = 0 ∨ ∀ p ∈ pagesOf va len, ∀ pfn e, s.primaryPage r p = some (pfn, e) → e.tagged = false) →
        m.2 = (0, 1) ∧ wrote ∧ t.hold = { s.hold with restorable := s.hold.restorable.erase i } ∧
        (t.enc r.eid).items = e.items ++ [{ va := va, len := len, key := key, tag := g.tag }] ∧
        ∀ b, (∀ k < n, ∀ pfn e, s.primaryPage r (at4 k / 65536) = some (pfn, e) →
          b < pfn * 65536 + at4 k % 65536 ∨ pfn * 65536 + at4 k % 65536 + 4096 ≤ b) → t.byte b = s.byte b) ∧
      (whole → tags → plain → apart → under → none4 → m = (s, 0x0E, 0)) ∧
      (whole → tags → plain → apart → under → m.2 = (0, 1) → celled ∧ t.mem.cells.length = s.mem.cells.length + n ∧
        t.hold = { s.hold with restorable := s.hold.restorable.erase i } ∧
        (t.enc r.eid).items = e.items ++ [{ va := va, len := len, key := key, tag := g.tag }]) ∧
      (whole → m.2.1 ≠ 0 → m.1 = s))) ∧
  (∀ (s : State) (eid : Nat) (key : W32),
    let fits := fun (i : SavedItem) => i.meas = (s.enc eid).meas ∧ i.openProf = (s.enc eid).openProf ∧ i.key = key
    (s.lowestItem eid key = none ↔ ∀ i ∈ s.hold.restorable, ¬ fits i) ∧
    (∀ i, s.lowestItem eid key = some i → i ∈ s.hold.restorable ∧ fits i ∧ ∀ j ∈ s.hold.restorable, fits j → i.seq ≤ j.seq) ∧
    (∀ i, i.bad = true → i.st = 1 → let j : SavedItem := { i with st := 2, bytes := [], bad := false }
      s.verify i = (({ s with hold := { s.hold with restorable := s.hold.restorable.map (fun x => if x = i then j else x) } } : State).log
        0x0F 0 0 0 0 (BitVec.ofNat 64 i.seq), j)) ∧
    (∀ i, i.bad = false ∨ i.st ≠ 1 → s.verify i = (s, i)) ∧
    (∀ i, (s.discard i).hold = { s.hold with restorable := s.hold.restorable.erase i } ∧ (s.discard i).mem = s.mem)) ∧
  (∀ (s : State) (a : SArgs), Issues (.msdrop a) { ruleS a with banned := true } s → s.mask a.g ≠ 0 → s.eidOf s.cur ≠ 0 →
    let e := s.eidOf s.cur
    let key : W32 := (s.me.opndU a.a).setWidth 32
    let s1 := s.modEnc e (fun x => { x with items := x.items.filter (fun i => i.key != key) })
    let ok := (s.enc e).items.any (fun i => i.key == key) || (s.lowestItem e key).isSome
    exec (.msdrop a) s = .next (s.after ((match s.lowestItem e key with | some i => s1.discard i | none => s1).modTeam s.cur (fun t =>
      (t.putUni true a.d (msWord e (if ok = true then 0 else 0x02) 0)).setPredMask a.pd.toNat (s.mask a.g) ok)))) ∧
  (∀ (s : State) (a : SArgs) (i : Instr) (v : W64),
    let e := s.eidOf s.cur
    let key : W32 := (s.me.opndU a.a).setWidth 32
    let put := fun (t : State) (v : W64) => t.modTeam s.cur (fun t => t.putUni true a.d v)
    ((i, v) ∈ [(Instr.msqryCap a, BitVec.ofNat 64 ((s.board.capacity - s.itemTotal) / 4096 % 2 ^ 32 +
          (s.enc e).items.length % 65536 * 2 ^ 32)),
        (.msqryItem a, match (s.enc e).items.find? (fun i => i.key == key) with
          | some i => BitVec.ofNat 64 (1 + i.len / 4096 * 2 ^ 32)
          | none => 0),
        (.msqryRst a, BitVec.ofNat 64 ((match s.lowestItem e key with
          | some i => (if i.bad = true ∧ i.st = 1 then 2 else i.st % 4) + s.hold.srcGen.toNat % 2 ^ 32 * 2 ^ 32
          | none => 0) + (if s.hold.srcCommitted = true then 4 else 0)))] →
      Issues i (ruleS a) s → s.mask a.g ≠ 0 → e ≠ 0 →
      let s1 := match s.lowestItem e key with | some i => (s.verify i).1 | none => s
      exec i s = .next (s.after (put (if i = .msqryRst a then s1 else s) v))) ∧
    (Issues (.msqryLost a) (ruleS a) s → s.mask a.g ≠ 0 → e ≠ 0 →
      let r := lostGo { s.req s.cur with agent := none } (s, 0, false)
        (s.hold.lost.filter (fun x => x.meas == (s.enc e).meas && x.openProf == (s.enc e).openProf))
      exec (.msqryLost a) s = .next (s.after (put r.1
        (msWord e (if r.2.2 = true then 0x03 else 0) 0 + BitVec.ofNat 64 (r.2.1 * 2 ^ 32)))))) ∧
  (∀ (s : State) (a : SArgs), Issues (.pfret a) (ruleS a) s →
    (s.mask a.g = 0 → exec (.pfret a) s = .next (s.after s)) ∧
    (s.mask a.g ≠ 0 → s.me.run = .pfHandler → exec (.pfret a) s = .next (s.setTeam s.cur
      { s.me with run := .pfStopped, waiting := none, replay := none, block := [] })) ∧
    (s.mask a.g ≠ 0 → s.me.run ≠ .pfHandler →
      exec (.pfret a) s = .next (State.complete s.cur s.me.pc { s := s, k := trapAll s.me.width (s.mask a.g) .perm })))

/-- 05 R132-R134; 16 R414: the growth reserves the frames of the larger blob (log 15). -/
def Obligations.RegistersGrowAndShrink : Prop :=
  (∀ (t : Team) (m : Nat), (t.resize m).regs = m ∧
    (∀ l r, r < 256 → (t.resize m).vreg l r = if r < m then t.vreg l r else 0) ∧
    t.resize m = { t with regs := m, v := (t.resize m).v, badV := (t.resize m).badV }) ∧
  (∀ (s : State) (a : SArgs),
    let T := s.mask a.g
    let m := (s.me.opndU a.a).toNat % 2 ^ 32
    let n := crewNo s.cur
    let cr := s.crew n
    let core := cr.core.getD 0
    let above := 255 < m ∨ (s.cap cr.part core).regs < s.rowsWith n (teamNo s.cur) m
    let quota := fun (i : Instr) =>
      exec i s = .next (State.complete s.cur s.me.pc { s := s, k := trapAll s.me.width T .regquota })
    let roomy := s.reserveRoom n (teamNo s.cur) m
    let first := s.me.waiting = none ∨ (s.growers cr.part core).head? = some s.cur
    (Issues (.grow a) (ruleS a) s →
      (T = 0 ∨ isThread s.cur = true ∨ m ≤ s.me.regs → exec (.grow a) s = .next (s.after s)) ∧
      (T ≠ 0 → isThread s.cur = false → s.me.regs < m → above → quota (.grow a)) ∧
      (T ≠ 0 → isThread s.cur = false → s.me.regs < m → ¬ above → s.growFits s.cur m = true → first →
        exec (.grow a) s = .next (s.after (roomy.setTeam s.cur (s.me.resize m)))) ∧
      (T ≠ 0 → isThread s.cur = false → s.me.regs < m → ¬ above → s.growFits s.cur m = false → s.me.waiting = none →
        exec (.grow a) s = .next (s.waits (.grow a)))) ∧
    (Issues (.shrink a) (ruleS a) s →
      (T = 0 ∨ isThread s.cur = true ∨ (8 ≤ m ∧ s.me.regs ≤ m) → exec (.shrink a) s = .next (s.after s)) ∧
      (T ≠ 0 → isThread s.cur = false → m < 8 → quota (.shrink a)) ∧
      (T ≠ 0 → isThread s.cur = false → 8 ≤ m → m < s.me.regs →
        exec (.shrink a) s = .next (s.after (s.setTeam s.cur (s.me.resize m)))))) ∧
  (∀ (s : State) (g m : Nat),
    let n := crewNo g
    let c := s.crew n
    s.growFits g m = true ↔ s.rowsWith n (teamNo g) m ≤ s.rows n + (s.freeOn c.part (c.core.getD 0) c.fx).regs ∧
      s.moreRoom n (teamNo g) m ≤ (s.freeRoom c.eid).length) ∧
  (∀ (s : State) (n k m : Nat), s.moreRoom n k m ≤ (s.freeRoom (s.crew n).eid).length →
    let t := s.reserveRoom n k m
    ∃ fs, t.crew n = { s.crew n with frames := (s.crew n).frames ++ fs } ∧ fs.length = s.moreRoom n k m ∧
      (∀ f ∈ fs, f ∈ s.freeRoom (s.crew n).eid) ∧ t.teams = s.teams ∧ t.mem = s.mem) ∧
  (∀ (s : State) (part core : Nat), (s.growers part core).Pairwise (fun a b =>
    ((s.team a).waiting.map (fun w => w.seq)).getD 0 ≤ ((s.team b).waiting.map (fun w => w.seq)).getD 0)) ∧
  (∀ (s : State) (g : Nat) (w : Waiting) (x : SArgs), (s.team g).waiting = some w → w.instr = .grow x →
    let t := s.team g
    let c := s.crew (crewNo g)
    let m := (t.opndU x.a).toNat % 2 ^ 32
    let q := s.growers c.part (c.core.getD 0)
    (q.head? ≠ some g ∨ c.core = none → exec (.growGrant g) s = .next s) ∧
    (q.head? = some g → c.core.isSome = true → s.growFits g m = true → w.ue = 0 →
      exec (.growGrant g) s = .next (State.complete g t.pc
        { s := (s.reserveRoom (crewNo g) (teamNo g) m).setTeam g ({ t with waiting := none, since := s.mcyc g }.resize m) })) ∧
    (let young := q.getLastD g
     q.head? = some g → c.core.isSome = true → s.growFits g m = false → s.growStuck c.part (c.core.getD 0) = true →
      (crewNo young = crewNo g → exec (.growGrant g) s = .next (s.growQuota young)) ∧
      (crewNo young ≠ crewNo g → let s1 := (s.evict (crewNo young)).lookPart c.part
        exec (.growGrant g) s = .next (if s1.growFits g (growWant (s1.team g)) then s1.growDone g else s1))) ∧
    (q.head? = some g → c.core.isSome = true → s.growFits g m = false → s.growStuck c.part (c.core.getD 0) = false →
      exec (.growGrant g) s = .next s))

/-- 05 R110, R112, R128-R130; 15 R397. 05 R122, R123, R131. -/
def Obligations.LaunchAndEvents : Prop :=
 ((∀ (s : State) (a : SArgs) (p : Instr × Bool),
    p ∈ [(Instr.launch a, true), (.evsig a, false), (.evsigClr a, false), (.evwait a, true), (.evwaitTry a, false)] →
    Issues p.1 { ruleS a with banned := p.2 } s →
    (s.mask a.g = 0 → exec p.1 s = .next (s.after s)) ∧
    (s.mask a.g ≠ 0 → s.eidOf s.cur = 0 ∨ (p.1 ≠ .launch a ∧ 4095 < (s.me.opndU a.a).toNat) →
      exec p.1 s = .next (State.complete s.cur s.me.pc { s := s, k := trapAll s.me.width (s.mask a.g) .perm }))) ∧
  (∀ (s : State) (a : SArgs), Issues (.launch a) { ruleS a with banned := true } s → s.mask a.g ≠ 0 → s.eidOf s.cur ≠ 0 →
    let part := s.partOf s.cur
    let eid := s.eidOf s.cur
    let q := (s.me.opndU a.a).toNat
    let va := (s.me.opndU a.b).toNat
    let gives := fun (s' : State) (w : Nat) (ok : Bool) => exec (.launch a) s = .next (s.after (s'.modTeam s.cur (fun t =>
      (t.putUni true a.d (BitVec.ofNat 64 w)).setPredMask a.pd.toNat (s.mask a.g) ok)))
    ((s.enc eid).st ≠ .sealed → gives s (0x08 * 2 ^ 16) false) ∧
    ((s.enc eid).st = .sealed → 15 < q ∨ va % 64 ≠ 0 → gives s (0x02 * 2 ^ 16) false) ∧
    ((s.enc eid).st = .sealed → q ≤ 15 → va % 64 = 0 →
      (∀ u, readBlock s (s.req s.cur) va 256 = (u, none) → gives u (0x03 * 2 ^ 16) false) ∧
      (∀ u b, readBlock s (s.req s.cur) va 256 = (u, some b) →
        let s := u
        let d := descOf b
        (descOk b = false → gives s (0x10 * 2 ^ 16) false) ∧
        (descOk b = true → s.noFit part d = true → gives s (0x13 * 2 ^ 16) false) ∧
        (descOk b = true → s.noFit part d = false → s.queueFull part q = true → gives s (0x12 * 2 ^ 16) false) ∧
        (∀ k, k < 256 → descOk b = true → s.noFit part d = false → s.queueFull part q = false →
          s.admission part eid d = .refused k → gives s (0x11 * 2 ^ 16 + k * 2 ^ 24) false) ∧
        (∀ m, descOk b = true → s.noFit part d = false → s.queueFull part q = false → s.admission part eid d = m →
          (∀ k, m ≠ .refused k) → gives (s.accept part eid q d m) ((s.part part).nextFid.toNat * 2 ^ 32) true)))) ∧
  (∀ (s : State) (part eid q : Nat) (d : Desc) (m : Admit),
    let t := s.accept part eid q d m
    let f := t.fixture s.nextFx
    f.part = part ∧ f.eid = eid ∧ f.queue = q ∧ f.desc = d ∧ f.fid = (s.part part).nextFid ∧ f.ncrews = d.crews ∧ f.retired = false ∧
    t.nextFx = s.nextFx + 1 ∧ (t.part part).nextFid = nextFixId (s.part part).nextFid ∧ t.mem = s.mem ∧ t.teams = s.teams) ∧
  (∀ (s : State) (a : SArgs), s.mask a.g ≠ 0 → s.eidOf s.cur ≠ 0 → (s.me.opndU a.a).toNat ≤ 4095 →
    let T := s.mask a.g
    let p := s.partOf s.cur
    let i := (s.me.opndU a.a).toNat
    let v := (s.me.opndU a.b).toNat % 2 ^ 32
    let c := (s.event p i).toNat
    let r := s.ringAt (p * 4096 + i)
    let added := (s.modTeam s.cur (fun t => t.raise 0 (if 2 ^ 32 ≤ c + v then dEVSAT else 0))).addEvent p i v
    let done := s.setTeam s.cur ((s.me.putUni true a.d ((s.event p i).setWidth 64)).setPredMask a.pd.toNat T (decide (v ≤ c)))
    (Issues (.evsig a) (ruleS a) s →
      (r.eid = 0 → exec (.evsig a) s = .next (s.after added)) ∧
      (r.eid ≠ 0 → 64 < c + v - r.consumed →
        exec (.evsig a) s = .next (State.complete s.cur s.me.pc { s := s, k := trapAll s.me.width T .perm })) ∧
      (r.eid ≠ 0 → c + v - r.consumed ≤ 64 → s.me.cnt.coll + v ≤ 255 → 
        let posted := (postColl added (s.ownOf s.cur) (p * 4096 + i) v).modTeam s.cur (fun t =>
          { t with cnt := { t.cnt with coll := t.cnt.coll + v } })
        exec (.evsig a) s = .next (s.after (if v = 0 then posted else implicitCol posted p)))) ∧
    (Issues (.evsigClr a) (ruleS a) s →
      (r.eid = 0 → exec (.evsigClr a) s = .next (s.after (s.putEvent p i 0))) ∧
      (r.eid ≠ 0 →
        exec (.evsigClr a) s = .next (State.complete s.cur s.me.pc { s := s, k := trapAll s.me.width T .perm }))) ∧
    (Issues (.evwait a) { ruleS a with banned := true } s →
      (v ≤ c → exec (.evwait a) s = .next (s.after done)) ∧
      (c < v → s.me.waiting = none → exec (.evwait a) s = .next (s.waits (.evwait a)))) ∧
    (Issues (.evwaitTry a) (ruleS a) s → exec (.evwaitTry a) s = .next (s.after done))) ∧
  (∀ (s : State) (p i v : Nat), ((s.addEvent p i v).event p i).toNat = min ((s.event p i).toNat + v) (2 ^ 32 - 1) ∧
    (∀ j, j ≠ i → (s.addEvent p i v).event p j = s.event p j) ∧ (s.putEvent p i 0).event p i = 0 ∧
    (s.addEvent p i v).mem = s.mem ∧ (s.addEvent p i v).teams = s.teams) ∧
  (∀ (s : State) (g : Nat) (w : Waiting) (x : SArgs), (s.team g).waiting = some w → w.instr = .evwait x →
    (evMet s g (s.team g) x = true → exec (.evwaitWake g) s = .next (s.awake g w)) ∧
    (evMet s g (s.team g) x = false → exec (.evwaitWake g) s = .next s))) ∧
 ((∀ (s : State) (a : SArgs) (i : Instr), i ∈ [Instr.lease a, .unlease a] → Issues i { ruleS a with banned := true } s →
    let T := s.mask a.g
    let p := s.partOf s.cur
    let n := (s.me.opndU a.b).toNat % 32
    let col := fnBits a.sfn 44 1 == 1
    let perm := exec i s = .next (State.complete s.cur s.me.pc { s := s, k := trapAll s.me.width T .perm })
    (T = 0 → exec i s = .next (s.after s)) ∧
    (T ≠ 0 → s.eidOf s.cur = 0 → perm) ∧
    (T ≠ 0 → i = .lease a → 16 < n → perm) ∧
    (T ≠ 0 → s.eidOf s.cur ≠ 0 → i = .lease a → n ≤ 16 →
      exec i s = .next (s.after ((s.modPart p (fun x => x.setReq col (min n (x.ceil col)))).modTeam s.cur (fun t =>
        t.putUni true a.d (BitVec.ofNat 64 (s.boundTo col p)))))) ∧
    (T ≠ 0 → s.eidOf s.cur ≠ 0 → i = .unlease a → exec i s = .next (s.after (s.modPart p (fun x => x.setReq col 0))))) ∧
  (∀ s : State,
    (s.board.power = .on → s.eng.boundary ≤ s.clk.ptp → ∃ t, exec .leasePeriodBoundary s = .next t ∧
      t.eng.period = s.eng.nextPeriod ∧ t.eng.boundary = s.eng.boundary + 1000 * s.eng.nextPeriod ∧
      t.eng.rotation = s.eng.rotation + 1 ∧ t.eng.bindCpy.length ≤ 16 ∧ t.eng.bindCol.length ≤ 8 ∧ t.mem = s.mem ∧
      t.teams = s.teams ∧ t.crews = s.crews ∧
      let s1 := (s.parts.map (fun x => x.1)).foldl State.lapse s
      t.parts = s1.parts ∧ ((s.parts.map (fun x => x.1)).Nodup → ∀ (b : List (Nat × Nat)) (col : Bool) (n : Nat),
        (b, col, n) ∈ [(t.eng.bindCpy, false, 16), (t.eng.bindCol, true, 8)] →
        let want := fun p => (s1.part p).want col
        let got := fun p => (b.filter (fun x => x.2 == p + 1)).length
        let order := ((s1.parts.map (fun x => x.1)).filter (fun p => want p != 0)).rotateLeft s.eng.rotation
        b.map (fun x => x.1) = List.range b.length ∧ (∀ p, got p ≤ want p) ∧ ((∃ p, got p < want p) → b.length = n) ∧
        ∀ (i j p q : Nat), i < j → order[i]? = some p → order[j]? = some q →
          (got q ≤ got p ∨ got p = want p) ∧ (got p ≤ got q + 1 ∨ got q = want q))) ∧
    (s.board.power ≠ .on ∨ s.clk.ptp < s.eng.boundary → exec .leasePeriodBoundary s = .next s)) ∧
  (∀ (x : Part) (col : Bool), x.want col =
    min (max (if col then x.reqCol else x.reqCpy) (if (if col then x.impCol else x.impCpy) then 1 else 0))
      (match x.cfg with | some c => if col then c.colMax else c.cpyMax | none => 0)) ∧
  (∀ (s : State) (p : Nat),
    let cpy := s.eng.copyOps.any (fun o => o.part == p && o.kind != .wsld)
    let col := s.eng.collOps.any (fun o => o.ring / 4096 == p)
    let x := s.part p
    (s.lapse p).part p = { x with impCpy := x.impCpy && (x.usedCpy || cpy), usedCpy := cpy
                                  impCol := x.impCol && (x.usedCol || col), usedCol := col }))

/-- 02 R44-R54. BADREQ for a slot at or above THREADS is the model's choice (log 63). -/
def Obligations.EnclaveBuildAndEntry : Prop :=
  (∀ (s : State) (a : SArgs) (p : Instr × Bool),
    p ∈ [(Instr.encreate a, false), (.enadd a, false), (.enseal a, false), (.enenter a, true), (.enexit a, false)] →
    Issues p.1 { ruleS a with ends := p.2 } s →
    let outside := (p.1 = .encreate a ∧ s.eidOf s.cur ≠ 0) ∨ (p.1 = .enexit a ∧ s.eidOf s.cur = 0) ∨
      (p.1 ≠ .encreate a ∧ p.1 ≠ .enexit a ∧ s.osThread s.cur = false)
    (s.mask a.g = 0 → exec p.1 s = .next (s.after s)) ∧
    (s.mask a.g ≠ 0 → outside →
      exec p.1 s = .next (State.complete s.cur s.me.pc { s := s, k := trapAll s.me.width (s.mask a.g) .perm }))) ∧
  (∀ (s : State) (a : SArgs), Issues (.encreate a) (ruleS a) s → s.mask a.g ≠ 0 → s.eidOf s.cur = 0 →
    let va := (s.me.opndU a.a).toNat
    let gives := fun (s' : State) (id st : Nat) => exec (.encreate a) s = .next (s.after (s'.withResult s.cur a (s.mask a.g) id st))
    (va % 64 ≠ 0 → gives s 0 0x02) ∧
    (∀ u, va % 64 = 0 → readBlock s (s.req s.cur) va 128 = (u, none) → gives u 0 0x03) ∧
    (∀ u b, va % 64 = 0 → readBlock s (s.req s.cur) va 128 = (u, some b) →
      gives (encreate u b).1 (encreate u b).2.1 (encreate u b).2.2)) ∧
  (∀ (s : State) (b : List Byte),
    (ecbOk b = false → encreate s b = (s, 0, 0x02)) ∧
    (ecbOk b = true → (s.part (bfld b 0 1)).cfg = none → encreate s b = (s, 0, 0x04)) ∧
    (∀ s' e, encreate s b = (s', e, 0) → s.freeEid = some e ∧ (s'.enc e).st = .building ∧ (s'.enc e).part = bfld b 0 1 ∧
      (s'.enc e).meas = extendM 0 (creationRecord b) ∧ (s'.enc e).threads = bfld b 2 2 ∧ (s'.enc e).entry = bfld b 8 8 ∧
      ∀ d, d ≠ e → s'.enc d = s.enc d)) ∧
  (∀ (s : State) (a : SArgs), Issues (.enadd a) (ruleS a) s → s.mask a.g ≠ 0 → s.osThread s.cur = true →
    let e := (s.me.opndU a.a).toNat % 4096
    let va := (s.me.opndU a.b).toNat
    let gives := fun (s' : State) (st : Nat) => exec (.enadd a) s = .next (s.after (s'.withResult s.cur a (s.mask a.g) e st))
    (s.encLive e = false → gives s 0x08) ∧
    (s.encLive e = true → va % 64 ≠ 0 → gives s 0x02) ∧
    (s.encLive e = true → va % 64 = 0 → ∀ u, readBlock s (s.req s.cur) va 64 = (u, none) → gives u 0x03) ∧
    (∀ u b, s.encLive e = true → va % 64 = 0 → readBlock s (s.req s.cur) va 64 = (u, some b) →
      gives (enadd u (u.req s.cur) e b).1 (enadd u (u.req s.cur) e b).2)) ∧
  (∀ (s : State) (r : Req) (e : Nat) (b : List Byte),
    (pabOk b = false → enadd s r e b = (s, 0x02)) ∧
    (pabOk b = true → (s.enc e).st = .sealed → bfld b 0x10 8 ≠ 0 → enadd s r e b = (s, 0x07)) ∧
    (∀ s', enadd s r e b = (s', 0) → (s'.enc e).st = (s.enc e).st ∧ ((s.enc e).st = .sealed → (s'.enc e).meas = (s.enc e).meas) ∧
      (bfld b 0x10 8 = 0 → (s.enc e).st = .building →
        (s'.enc e).meas = extendM (s.enc e).meas (addRecord b (List.replicate 65536 0)) ∧ (s'.enc e).adds = (s.enc e).adds + 1))) ∧
  (∀ (s : State) (a : SArgs), Issues (.enseal a) (ruleS a) s → s.mask a.g ≠ 0 → s.osThread s.cur = true →
    let e := (s.me.opndU a.a).toNat % 4096
    let m := extendM (s.enc e).meas (sealRecord (s.enc e).adds)
    let gives := fun (s' : State) (st : Nat) => exec (.enseal a) s = .next (s.after (s'.withResult s.cur a (s.mask a.g) e st))
    (s.encLive e = false → gives s 0x08) ∧
    (s.encLive e = true → (s.enc e).st = .sealed → gives s 0x07) ∧
    (s.encLive e = true → (s.enc e).st ≠ .sealed → gives (s.setEnc e { s.enc e with
      st := .sealed, meas := m, sealKey := sealKeyOf (s.enc e).openProf m }) 0)) ∧
  (∀ (s : State) (a : SArgs), Issues (.enenter a) { ruleS a with ends := true } s → s.mask a.g ≠ 0 → s.osThread s.cur = true →
    let e := (s.me.opndU a.a).toNat % 4096
    let k := (s.me.opndU a.b).toNat
    let n := s.enc e
    let x := s.slotAt e k
    let gives := fun (st : Nat) => exec (.enenter a) s = .next (s.after (s.withResult s.cur a (s.mask a.g) e st))
    (s.encLive e = false → gives 0x08) ∧
    (s.encLive e = true → n.st ≠ .sealed ∨ x.killed = true → gives 0x07) ∧
    (s.encLive e = true → n.st = .sealed → x.killed = false → n.threads ≤ k → gives 0x02) ∧
    (s.encLive e = true → n.st = .sealed → x.killed = false → k < n.threads → x.entered.isSome = true → gives 0x09) ∧
    (s.encLive e = true → n.st = .sealed → x.killed = false → k < n.threads → x.entered = none → s.me.sigBad s.me.pc = false →
      ∃ t, exec (.enenter a) s = .next t ∧ (t.thread s.cur).eid = e ∧ (t.thread s.cur).slot = k ∧
        (t.slotAt e k).entered = some s.cur ∧ (t.slotAt e k).outer = some (s.me.move s.me.pc .seq) ∧
        t.mem = (s.setBytes (n.slotPa k) (outerImage (s.me.move s.me.pc .seq))).mem ∧
        (x.inner = none → (t.team s.cur).pc = BitVec.ofNat 64 n.entry ∧ (∀ r < 8, (t.team s.cur).ureg r = s.me.ureg r) ∧
          (t.team s.cur).ureg 8 = BitVec.ofNat 64 k ∧ ∀ r, 8 < r → (t.team s.cur).ureg r = 0) ∧
        (∀ y, x.inner = some y → t.team s.cur = { y.setRec 15 Rec.flat0 with uwc := s.me.uwc, run := .running, block := [] }))) ∧
  (∀ (s : State) (a : SArgs), Issues (.enexit a) (ruleS a) s → s.mask a.g ≠ 0 → s.eidOf s.cur ≠ 0 → s.me.sigBad s.me.pc = false →
    isThread s.cur = true → ∃ t, exec (.enexit a) s = .next t ∧ (t.thread s.cur).eid = 0 ∧ t.mem = s.mem ∧
      (t.slotAt (s.thread s.cur).eid (s.thread s.cur).slot).entered = none ∧
      (t.slotAt (s.thread s.cur).eid (s.thread s.cur).slot).inner = none ∧
      ∀ o, (s.slotAt (s.thread s.cur).eid (s.thread s.cur).slot).outer = some o → (t.team s.cur).pc = o.pc ∧
        (t.team s.cur).fpflags = o.fpflags ∧ (t.team s.cur).devflags = o.devflags)

/-- 16 R412-R427; 18 R454, R455. Which page answers BADREQ and the new sealing of an imported crew are the model's readings
(log 28), and the order in which a crew's bytes stand in its blob its choice (log 15). -/
def Obligations.EnclavePagingAndEnd : Prop :=
  (∀ (s : State) (a : SArgs) (i : Instr), i ∈ [Instr.enpgout a, .enpgin a, .enkill a, .tsavePart a, .trestPart a, .tsaveExport a,
      .trestImport a] → Issues i (ruleS a) s →
    (s.mask a.g = 0 → exec i s = .next (s.after s)) ∧
    (s.mask a.g ≠ 0 → s.osThread s.cur = false →
      exec i s = .next (State.complete s.cur s.me.pc { s := s, k := trapAll s.me.width (s.mask a.g) .perm }))) ∧
  (∀ (s : State) (a : SArgs) (i : Instr) (f : State → Req → List Byte → State × Nat),
    (i, f) ∈ [(Instr.enpgout a, enpgout), (.enpgin a, enpgin), (.tsaveExport a, tsaveExport), (.trestImport a, trestImport)] →
    Issues i (ruleS a) s → s.mask a.g ≠ 0 → s.osThread s.cur = true →
    let va := (s.me.opndU a.a).toNat
    let gives := fun (s' : State) (id st : Nat) => exec i s = .next (s.after (s'.withResult s.cur a (s.mask a.g) id st))
    (va % 64 ≠ 0 → gives s va 0x02) ∧
    (∀ u, va % 64 = 0 → readBlock s (s.req s.cur) va 64 = (u, none) → gives u va 0x03) ∧
    (∀ u b, va % 64 = 0 → readBlock s (s.req s.cur) va 64 = (u, some b) →
      let r := f u { u.req s.cur with agent := none } b
      gives r.1 va r.2)) ∧
  (∀ (s : State) (r : Req) (b : List Byte), s.sealedSt (bfld b 0 2) ≠ 0 →
    enpgout s r b = (s, s.sealedSt (bfld b 0 2)) ∧ enpgin s r b = (s, s.sealedSt (bfld b 0 2))) ∧
  (∀ (s : State) (r : Req) (b : List Byte),
    let e := bfld b 0 2
    let va := bfld b 8 8
    let vpn := va / 65536
    let n := s.enc e
    let fits := (∀ k, ((2 ≤ k ∧ k < 8) ∨ (0x18 ≤ k ∧ k < 0x40)) → b.getD k 0 = 0) ∧ va % 65536 = 0 ∧ bfld b 0x10 8 % 64 = 0
    s.sealedSt e = 0 →
    (¬ fits ∨ s.primaryOf e vpn = none → enpgout s r b = (s, 0x02)) ∧
    (∀ pfn, fits → s.primaryOf e vpn = some pfn → s.pageBusy e vpn pfn = true → enpgout s r b = (s, 0x09)) ∧
    (∀ pfn, fits → s.primaryOf e vpn = some pfn → s.pageBusy e vpn pfn = false → s.goodIn (pfn * 65536) 65536 (s.iptOf pfn) = true →
      let img := sealObj n.saveKey n.iv (sealHeader 3 e 0 0 va (tget 0 n.pageVer vpn + 1) 65536 n.iv (pattrOf (s.iptOf pfn)))
        (s.bytes (pfn * 65536) 65536)
      (∀ u, writeBlock s r (bfld b 0x10 8) img = (u, false) → enpgout s r b = (u, 0x03) ∧ u.enc e = n ∧ u.mem.ipt = s.mem.ipt) ∧
      (∀ u, writeBlock s r (bfld b 0x10 8) img = (u, true) → ∃ t, enpgout s r b = (t, 0) ∧
        (t.enc e) = { n with pageVer := tset 0 n.pageVer vpn (tget 0 n.pageVer vpn + 1), iv := n.iv + 1
                             pagedOut := tins (tdel n.pagedOut vpn) vpn (BitVec.ofNat 32 (pattrOf (u.iptOf pfn))) } ∧
        (t.iptOf pfn).owner = 0 ∧ (t.iptOf pfn).oworld = 2 ∧ ((t.iptOf pfn).map 0).mv = false ∧
        (∀ k < 65536, t.byte (pfn * 65536 + k) = 0) ∧
        (∀ q, (q < pfn * 65536 ∨ pfn * 65536 + 65536 ≤ q) → t.byte q = u.byte q)))) ∧
  (∀ (s : State) (r : Req) (b : List Byte),
    let e := bfld b 0 2
    let va := bfld b 8 8
    let vpn := va / 65536
    let fr := bfld b 0x18 8
    let pfn := fr / 65536
    let n := s.enc e
    let fits := (∀ k, ((2 ≤ k ∧ k < 8) ∨ (0x20 ≤ k ∧ k < 0x40)) → b.getD k 0 = 0) ∧ va % 65536 = 0 ∧ bfld b 0x10 8 % 64 = 0
    let left := tget 0 n.pageVer vpn ≠ 0
    let frame := fr % 65536 = 0 ∧ pfn < hbmFrames ∧ (s.iptOf pfn).owner = 0 ∧ (s.iptOf pfn).oworld = 2 ∧ (s.iptOf pfn).valid = true
    s.sealedSt e = 0 →
    (¬ fits ∨ ¬ left → enpgin s r b = (s, 0x02)) ∧
    (fits → left → ¬ frame → enpgin s r b = (s, 0x05)) ∧
    (∀ u, fits → left → frame → readBlock s r (bfld b 0x10 8) 65616 = (u, none) → enpgin s r b = (u, 0x03)) ∧
    (∀ u img, fits → left → frame → readBlock s r (bfld b 0x10 8) 65616 = (u, some img) →
      let mine := bfld img 0 2 = 3 ∧ bfld img 2 2 = e ∧ bfld img 0x10 8 = va ∧ bfld img 0x20 8 = 65536
      let now := bfld img 0x18 8 = tget 0 n.pageVer vpn ∧ ∃ x ∈ n.pagedOut, x.1 = vpn
      let pa := bfld img 0x34 4
      (sealGood n.saveKey 65536 img = false ∨ ¬ mine → enpgin s r b = (u, 0x14)) ∧
      (sealGood n.saveKey 65536 img = true → mine → ¬ now → enpgin s r b = (u, 0x0F)) ∧
      (sealGood n.saveKey 65536 img = true → mine → now → ∃ t, enpgin s r b = (t, 0) ∧
        (t.enc e).pageVer = tset 0 (u.enc e).pageVer vpn (tget 0 (u.enc e).pageVer vpn + 1) ∧ (t.enc e).pagedOut = tdel (u.enc e).pagedOut vpn ∧
        (t.enc e).meas = (u.enc e).meas ∧ t.findMap e vpn = some { pfn := pfn, slot := 0 } ∧
        (let i := t.iptOf pfn
         i.owner = e ∧ i.oworld = 4 + n.part ∧ i.attr = BitVec.ofNat 2 (pa / 2 ^ 8) ∧ i.tagged = (pa / 2 ^ 16).testBit 0 ∧
         i.zeroFb = (pa / 2 ^ 16).testBit 1 ∧ i.route = BitVec.ofNat 8 (pa / 2 ^ 24) ∧ i.m0.perm = BitVec.ofNat 3 pa) ∧
        (∀ k < 65536, t.byte (pfn * 65536 + k) = (openObj n.saveKey 65536 img).getD k 0) ∧
        (∀ q, (q < pfn * 65536 ∨ pfn * 65536 + 65536 ≤ q) → t.byte q = u.byte q)))) ∧
  (∀ (s : State) (r : Req) (b : List Byte),
    let e := bfld b 0 2
    let zeros := ∀ k, ((2 ≤ k ∧ k < 4) ∨ (0x0C ≤ k ∧ k < 0x10) ∨ (0x20 ≤ k ∧ k < 0x40)) → b.getD k 0 = 0
    (¬ zeros → tsaveExport s r b = (s, 0x02)) ∧
    (zeros → s.sealedSt e ≠ 0 → tsaveExport s r b = (s, s.sealedSt e)) ∧
    (zeros → s.sealedSt e = 0 →
      (s.crewByUnit e (bfld b 4 4) (bfld b 8 4) = none → tsaveExport s r b = (s, 0x07)) ∧
      (∀ k c, s.crewByUnit e (bfld b 4 4) (bfld b 8 4) = some (k, c) →
        let len := s.crewLen k + 80
        (c.core.isSome = true ∨ c.exported = true → tsaveExport s r b = (s, 0x07)) ∧
        (c.core = none → c.exported = false → bfld b 0x18 8 < len → tsaveExport s r b = (s, 0x02)) ∧
        (c.core = none → c.exported = false → len ≤ bfld b 0x18 8 → ∀ u ok,
          writeBlock s r (bfld b 0x10 8) (s.readFrames c.frames len) = (u, ok) →
          (ok = false → tsaveExport s r b = (u, 0x03)) ∧
          (ok = true → tsaveExport s r b = (u.setCrew k { u.crew k with exported := true, frames := [] }, 0)))))) ∧
  (∀ (s : State) (r : Req) (b : List Byte),
    let e := bfld b 0 2
    let n := s.enc e
    let src := bfld b 8 8
    let zeros := ∀ k, ((2 ≤ k ∧ k < 8) ∨ (0x10 ≤ k ∧ k < 0x40)) → b.getD k 0 = 0
    (¬ zeros → trestImport s r b = (s, 0x02)) ∧
    (zeros → s.sealedSt e ≠ 0 → trestImport s r b = (s, s.sealedSt e)) ∧
    (∀ u, zeros → s.sealedSt e = 0 → readBlock s r src 64 = (u, none) → trestImport s r b = (u, 0x03)) ∧
    (∀ v hdr, zeros → s.sealedSt e = 0 → readBlock s r src 64 = (v, some hdr) → bfld hdr 0x20 8 ≤ maxBlob →
      let len := bfld hdr 0x20 8
      (∀ u, readBlock v r src (len + 80) = (u, none) → trestImport s r b = (u, 0x03)) ∧
      (∀ u img, readBlock v r src (len + 80) = (u, some img) →
        let mine := bfld img 0 2 = 1 ∧ bfld img 2 2 = e
        (sealGood n.saveKey len img = false ∨ ¬ mine ∨ u.crewByUnit e (bfld img 4 4) (bfld img 8 4) = none →
          trestImport s r b = (u, 0x14)) ∧
        (∀ k c, sealGood n.saveKey len img = true → mine → u.crewByUnit e (bfld img 4 4) (bfld img 8 4) = some (k, c) →
          let key := (u.fixture c.fx).fid.toNat * 2 ^ 32 + c.index
          let now := c.exported = true ∧ bfld img 0x18 8 = tget 0 n.crewVer key
          let room := roomFrames len ≤ (u.freeRoom e).length
          (¬ now → trestImport s r b = (u, 0x0F)) ∧
          (now → ¬ room → trestImport s r b = (u, 0x09)) ∧
          (now → room → trestImport s r b = ((u.setCrew k { u.crew k with
            exported := false, frames := (u.freeRoom e).take (roomFrames len) }).saveBlob k, 0)))))) ∧
  (∀ (s : State) (k : Nat),
    let c := s.crew k
    let e := s.enc c.eid
    let key := (s.fixture c.fx).fid.toNat * 2 ^ 32 + c.index
    let obj := sealObj e.saveKey e.iv
      (sealHeader 1 c.eid (s.fixture c.fx).fid.toNat c.index 0 (tget 0 e.crewVer key + 1) (s.crewLen k) e.iv 0) (s.crewBlob k)
    let t := s.saveBlob k
    t.enc c.eid = { e with crewVer := tset 0 e.crewVer key (tget 0 e.crewVer key + 1), iv := e.iv + 1 } ∧
    t.crew k = { c with version := tget 0 e.crewVer key + 1 } ∧
    (c.frames.Nodup → obj.length ≤ 65536 * c.frames.length → t.readFrames c.frames obj.length = obj)) ∧
  (∀ (s : State) (r : Req) (va : Nat) (pa : Nat → Nat) (e : Nat → Ipt),
    (∀ n, va + n ≤ 2 ^ 57 → (∀ l ∈ linesOf va n, ∃ w, trLine s r .none .read none l.1 = (s, .ok w) ∧
        placeRead s r .none l.1 w = .at (pa l.1) (e l.1) ∧ s.goodLines (pa l.1) l.2 (e l.1) = true) →
      ∃ m, readBlock s r va n = ({ s with caches := m }, some ((linesOf va n).map (fun l => s.bytes (pa l.1) l.2)).flatten)) ∧
    (∀ x : List Byte, va + x.length ≤ 2 ^ 57 → (∀ l ∈ linesOf va x.length, ∃ w, trLine s r .none .write none l.1 = (s, .ok w) ∧
        placeWrite s r .none l.1 w = (s, .ok (.at (pa l.1) (e l.1)))) →
      (linesOf va x.length).Pairwise (fun l m => pa l.1 + l.2 ≤ pa m.1 ∨ pa m.1 + m.2 ≤ pa l.1) →
      ∃ t, writeBlock s r va x = (t, true) ∧
        (∀ l ∈ linesOf va x.length, t.bytes (pa l.1) l.2 = (x.drop (l.1 - va)).take l.2) ∧
        ∀ q, (∀ l ∈ linesOf va x.length, q < pa l.1 ∨ pa l.1 + l.2 ≤ q) → t.byte q = s.byte q)) ∧
  (∀ (key : BitVec 256) (kind eid fixid unit va ver iv pattr : Nat) (pt : List Byte), iv < 2 ^ 96 →
    let img := sealObj key iv (sealHeader kind eid fixid unit va ver pt.length iv pattr) pt
    sealGood key pt.length img = true ∧ openObj key pt.length img = pt) ∧
  (∀ (s : State) (a : SArgs), Issues (.enkill a) (ruleS a) s → s.mask a.g ≠ 0 → s.osThread s.cur = true →
    let e := (s.me.opndU a.a).toNat % 4096
    (s.encLive e = false → exec (.enkill a) s = .next (s.after (s.withResult s.cur a (s.mask a.g) e 0x08))) ∧
    (s.encLive e = true → exec (.enkill a) s = .next (s.after ((s.killEnc e).withResult s.cur a (s.mask a.g) e 0)) ∧
      ((s.killEnc e).enc e).st = .dying ∧ ((s.killEnc e).enc e).items = [] ∧ ∀ p ∈ (s.killEnc e).posts, p.eid ≠ e)) ∧
  (∀ (s : State) (e : Nat),
    (s.mayDepart e = false ∨ s.board.power ∉ [.on, .quiesce, .saving] → exec (.enclaveDeparture e) s = .next s) ∧
    (s.mayDepart e = true → s.board.power ∈ [.on, .quiesce, .saving] →
      (∀ k, (if (s.enc e).openProf = true then [4, 6, 7, 8] else [1, 2, 3, 4, 5, 6, 7, 8]).find?
          (fun k => !(s.enc e).clear.getLsbD (k - 1)) = some k →
        exec (.enclaveDeparture e) s = .next (s.clearStep e k) ∧ ((s.clearStep e k).enc e).clear = (s.enc e).clear ||| (1#8 <<< (k - 1))) ∧
      ((if (s.enc e).openProf = true then [4, 6, 7, 8] else [1, 2, 3, 4, 5, 6, 7, 8]).find?
          (fun k => !(s.enc e).clear.getLsbD (k - 1)) = none →
        (∀ k u, k ∈ (if (s.enc e).openProf = true then [4, 6, 7, 8] else [1, 2, 3, 4, 5, 6, 7, 8]) → u ∈ State.clearUnits k →
          u ∈ (s.enc e).cleared) →
        exec (.enclaveDeparture e) s = .next (s.depart e) ∧ ((s.depart e).enc e).st = .free))) ∧
  (∀ (s : State) (a : SArgs) (i : Instr), i ∈ [Instr.tsavePart a, .trestPart a] → Issues i (ruleS a) s → s.mask a.g ≠ 0 →
    s.osThread s.cur = true →
    let p := (s.me.opndU a.a).toNat
    let gives := fun (s' : State) (st : Nat) => exec i s = .next (s.after (s'.withResult s.cur a (s.mask a.g) p st))
    (12 ≤ p ∨ (s.part p).cfg = none → gives s 0x04) ∧
    (p < 12 → (s.part p).cfg.isSome = true → i = .tsavePart a → (s.part p).suspended = true → gives s 0x09) ∧
    (p < 12 → (s.part p).cfg.isSome = true → i = .tsavePart a → (s.part p).suspended = false → gives (s.suspend p) 0) ∧
    (p < 12 → (s.part p).cfg.isSome = true → i = .trestPart a → (s.part p).suspended = false → gives s 0x07) ∧
    (p < 12 → (s.part p).cfg.isSome = true → i = .trestPart a → (s.part p).suspended = true →
      gives (s.setPart p { s.part p with suspended := false, osStop := false }) 0))

/-- 01 R19; 05 R111-R125, R135; 16 R414. The places within a core's ranges are not modelled (log 15); every fixture of an
earlier slot that still runs counts as overrunning (log 18). -/
def Obligations.PlacementOfCrews : Prop :=
  (∀ (s : State) (p : Nat),
    (s.board.power ≠ .on ∨ (s.part p).cfg = none ∨ (s.part p).suspended = true → exec (.crewPlacement p) s = .next s) ∧
    (s.board.power = .on → (s.part p).cfg.isSome = true → (s.part p).suspended = false →
      let fs := (s.fixtures.filter (fun x => x.2.part == p && s.wantsPlace x.1)).map (fun x => x.1)
      exec (.crewPlacement p) s = .next ((placeGo s none (sortBy (placeFirst s) fs)).lookPart p) ∧
      (∀ fx rest t, sortBy (placeFirst s) fs = fx :: rest → s.placeUnit fx = some t →
        exec (.crewPlacement p) s = .next (t.lookPart p)) ∧
      (fs = [] → exec (.crewPlacement p) s = .next (s.lookPart p)))) ∧
  (∀ (avail : List (Nat × Claim)) (c : Claim) (cs : List Nat), findUnit avail c 0 = some cs →
    ∃ pre k x post, cs = [k] ∧ avail = pre ++ (k, x) :: post ∧ c.fits x = true ∧ ∀ y ∈ pre, c.fits y.2 = false) ∧
  (∀ (avail : List (Nat × Claim)) (c : Claim) (n : Nat), 0 < n →
    let able := fun cl => (avail.filter (fun x => c.fits x.2 && State.clusterOfCore x.1 == cl)).map (fun x => x.1)
    (findUnit avail c n = none ↔ ∀ cl < 4, (able cl).length < n) ∧
    (∀ cs, findUnit avail c n = some cs → ∃ cl < 4, cs = (able cl).take n ∧ n ≤ (able cl).length ∧ ∀ j < cl, (able j).length < n)) ∧
  (∀ (s : State) (f : Fixture) (fx : Nat),
    (s.availFor f fx).map (fun x => x.1) = s.coresFor f.part f.eid ∧ (∀ x ∈ s.availFor f fx, x.2 = s.freeOn f.part x.1 fx) ∧
    (s.coresFor f.part f.eid).Pairwise (fun a b => a < b) ∧
    (∀ k, k ∈ s.coresFor f.part f.eid ↔ k < 768 ∧ (∃ c, (s.part f.part).cfg = some c ∧ c.cores.getLsbD k = true) ∧
      s.unitState (.core k) = .inService ∧
      ∀ o ∈ s.eng.copyOps, o.kind = .wsld → o.eid = f.eid → ∀ b, o.desc = some b → bfld b 2 1 ≠ k / 96)) ∧
  (∀ (s : State) (fx : Nat),
    let f := s.fixture fx
    let d := f.desc
    let n := max 1 d.squad
    s.firstSaved fx = none →
    ((s.enc f.eid).region < d.room → ∃ t, s.placeUnit fx = some t ∧ ∀ j < n,
      tget { reason := 0, detail := 0 } (t.fixture fx).fails (f.next + j) = { reason := 0x08, detail := 0 }) ∧
    (d.room ≤ (s.enc f.eid).region → s.regionFree f.eid < n * d.room → s.placeUnit fx = none) ∧
    (d.room ≤ (s.enc f.eid).region → n * d.room ≤ s.regionFree f.eid → d.timed = false →
      findUnit (s.availFor f fx) d.claim d.squad = none → s.placeUnit fx = none) ∧
    (∀ cs, d.room ≤ (s.enc f.eid).region → n * d.room ≤ s.regionFree f.eid → d.timed = false → d.tagMode < 2 → d.teams ≤ 16 →
      findUnit (s.availFor f fx) d.claim d.squad = some cs → ∃ t, s.placeUnit fx = some t ∧ t.mem = s.mem ∧
        (t.fixture fx).next = f.next + n ∧ t.nextCrew = s.nextCrew + n ∧
        ∀ j core, cs[j]? = some core →
          let c := t.crew (s.nextCrew + j)
          c.core = some core ∧ c.index = f.next + j ∧ c.fx = fx ∧ c.part = f.part ∧ c.eid = f.eid ∧ c.done = false ∧
          c.squad = (if d.squad = 0 then none else some ((f.next + j) / d.squad)) ∧
          ∀ k < d.teams, t.team (agentOf (s.nextCrew + j) k) =
            startTeam d (if d.tagMode = 0 then 0 else d.itag) (s.mcycOf (State.clusterOfCore core)) k)) ∧
  (∀ (d : Desc) (tag : BitVec 16) (since k : Nat),
    let t := startTeam d tag since k
    t.pc = BitVec.ofNat 64 (d.code + 64 * d.entry) ∧ t.width = d.width ∧ t.regs = d.regs ∧ t.active = laneMask d.width ∧
    t.live = laneMask d.width ∧ t.stack = [] ∧ t.tag = tag ∧ t.role = d.role k ∧ t.run = .running ∧ t.sig = 0 ∧ t.fpmode = 0 ∧
    t.fpflags = 0 ∧ t.devflags = 0 ∧ t.ureg 0 = BitVec.ofNat 64 d.args ∧ (∀ r, r ≠ 0 → t.ureg r = 0) ∧
    (∀ l r, t.vreg l r = 0) ∧ (∀ l j, t.xreg l j = 0) ∧ (∀ j l, j ≠ 0 → t.predLane j l = false)) ∧
  (∀ (s : State) (fx : Nat),
    (s.wantsPlace fx = true → s.agedFx fx = true →
      exec (.placementAged fx) s = .next (s.setFixture fx { s.fixture fx with aged := true })) ∧
    (s.wantsPlace fx = false ∨ s.agedFx fx = false → exec (.placementAged fx) s = .next s) ∧
    (let f := s.fixture fx
     let due := s.board.power = .on ∧ f.retired = false ∧ f.desc.deadline ≠ 0 ∧ f.tacc + 1000 * f.desc.deadline ≤ s.clk.ptp ∧
       f.doneCount < f.ncrews
     (due → exec (.deadlineExpiry fx) s = .next (((s.terminateFixture fx 0x02 0).osaBit fx 3).lookPart f.part)) ∧
     (¬ due → exec (.deadlineExpiry fx) s = .next s))) ∧
  (∀ (s : State) (g : Nat),
    (s.ready g = true → (s.team g).since + 1024 * 1000 ≤ s.mcyc g →
      exec (.teamAged g) s = .next (s.setTeam g { s.team g with aged := true })) ∧
    (s.ready g = false ∨ s.mcyc g < (s.team g).since + 1024 * 1000 → exec (.teamAged g) s = .next s)) ∧
  (∀ (s : State) (p k : Nat),
    let e := tget CalEntry.idle (s.part p).cal k
    let due := s.board.power = .on ∧ e.armed = true ∧ e.start + 1000 * e.period * e.nextSlot ≤ s.clk.ptp
    let s1 := s.setPart p { s.part p with cal := tset CalEntry.idle (s.part p).cal k { e with nextSlot := e.nextSlot + 1 } }
    let old := s.overruns e e.nextSlot
    let flagged := old.foldl (fun s x => s.osaBit x 0) s1
    (¬ due → exec (.calendarSlotStart p k) s = .next s) ∧
    (∀ x, x ∈ old ↔ ∃ b ∈ e.bound, b.2 = x ∧ b.1 < e.nextSlot ∧
      ∃ c ∈ s.crews, c.2.fx = x ∧ c.2.done = false ∧ c.2.core.isSome = true) ∧
    (due → s.boundAt e e.nextSlot = none → exec (.calendarSlotStart p k) s = .next (flagged.lookPart p)) ∧
    (∀ fx, due → s.boundAt e e.nextSlot = some fx →
      let s2 := if e.rule = 0 then old.foldl (fun s x => ((s.osaBit x 0).osaBit x 5).giveUpResv x) s1
        else if e.rule = 1 then flagged
        else old.foldl (fun s x => ((s.osaBit x 0).terminateFixture x 0x04 0).osaBit x 2) s1
      let stopped := (s2.part p).osStop = true ∨ (e.rule = 1 ∧ old ≠ [])
      (stopped → exec (.calendarSlotStart p k) s = .next ((s2.skipFx fx 0x01 1).lookPart p)) ∧
      (¬ stopped → s2.waitsMet p (s2.fixture fx).desc = false →
        exec (.calendarSlotStart p k) s = .next ((s2.skipFx fx 0x03 4).lookPart p)) ∧
      (¬ stopped → s2.waitsMet p (s2.fixture fx).desc = true →
        exec (.calendarSlotStart p k) s = .next ((s2.startSlot p fx e).lookPart p)))) ∧
  (∀ (s : State) (fx k : Nat), k < 32 →
    (∀ j, j < 32 → ((s.osaBit fx k).fixture fx).osa.getLsbD j = ((s.fixture fx).osa.getLsbD j || decide (j = k))) ∧
    (∀ g, g ≠ fx → (s.osaBit fx k).fixture g = s.fixture g) ∧ (s.osaBit fx k).mem = s.mem ∧
    (∀ n c, c.fx = fx → (n, c) ∈ (s.giveUpResv fx).crews → c.onRes = false) ∧
    (∀ n c, c.fx ≠ fx → c ≠ Crew.none → ((n, c) ∈ (s.giveUpResv fx).crews ↔ (n, c) ∈ s.crews)))

/-- 07 R184; 18 R448-R453. -/
def Obligations.RetirementAndRecords : Prop :=
  (∀ (s : State) (g : Nat),
    let t := s.team g
    let may := isThread g = false ∧ t.run = .ended ∧ t.uwc = [] ∧ s.ownPending g s.eng.nextOp = false
    (¬ may → exec (.teamRetire g) s = .next s) ∧
    (may → ∃ s', exec (.teamRetire g) s = .next s' ∧ (s'.team g).run = .retired ∧ (s'.team g).live = t.live ∧ s'.mem = s.mem ∧
      ∀ h, h ≠ g → s'.team h = s.team h)) ∧
  (∀ (s : State) (fx : Nat),
    let f := s.fixture fx
    (s.fixtureOver fx = false ∨ s.board.power ≠ .on → exec (.fixtureRetire fx) s = .next s) ∧
    (s.fixtureOver fx = true → s.board.power = .on →
      let s1 := (f.writes f.code s.clk.ptp).foldl (recordWrite { engReq f.part f.eid with dep := (s.enc f.eid).st == .dying }) s
      let s2 := if f.desc.sigEn = true then s1.addEvent f.part f.desc.sigId 1 else s1
      exec (.fixtureRetire fx) s = .next ((s2.setFixture fx { s2.fixture fx with retired := true }).lookPart f.part) ∧
      (((s2.setFixture fx { s2.fixture fx with retired := true }).lookPart f.part).fixture fx).retired = true)) ∧
  (∀ (f : Fixture) (code tend : Nat),
    (f.writes code tend).getLast? = some (f.desc.compl, f.statusWord code) ∧ (f.statusWord code).length = 4 ∧
    (f.record tend).length = 0x7C ∧ (∀ x ∈ f.entries, x.length = 8) ∧
    (f.desc.compl + 4, f.record tend) ∈ f.writes code tend ∧
    (f.entries ≠ [] → f.written ≠ [] → (f.writes code tend).head? = some (f.desc.compl + 0x80, f.written.flatten)) ∧
    f.written = f.entries.take ((65536 - f.desc.compl % 65536 - 0x80) / 8) ∧
    (code < 3 → leNat (f.statusWord code) = code + (if f.written.length < f.entries.length then 2 ^ 8 else 0) + 2 ^ 31) ∧
    (let at4 := fun o n => bfld (List.replicate 4 0 ++ f.record tend) o n
     let done := f.ncrews - f.fails.length
     at4 0x04 4 = done % 2 ^ 32 ∧ at4 0x08 4 = f.fails.length % 2 ^ 32 ∧ at4 0x0C 4 = min f.deadLanes.length 0xFFFFFFFF ∧
     at4 0x10 8 = f.sum.word.toNat ∧ at4 0x18 8 = f.tacc % 2 ^ 64 ∧ at4 0x20 8 = f.tstart % 2 ^ 64 ∧ at4 0x28 8 = tend % 2 ^ 64 ∧
     at4 0x30 4 = f.osa.toNat ∧ at4 0x34 4 = done / 2 ^ 32 % 2 + 2 * (f.fails.length / 2 ^ 32 % 2) ∧
     at4 0x38 8 = (if f.written = [] then 0 else f.desc.compl + 0x80) % 2 ^ 64 ∧ at4 0x50 48 = 0 ∧
     (f.first = none → at4 0x40 8 = 0 ∧ at4 0x48 8 = 0) ∧
     (∀ x, f.first = some x → at4 0x40 8 = x.pc.toNat ∧
       (x.lane < 1024 → x.team < 16 → at4 0x48 1 = x.cause.toNat ∧ at4 0x48 4 / 2 ^ 8 = x.lane + 2 ^ 10 * x.team ∧
         at4 0x4C 4 = x.crew % 2 ^ 32)))) ∧
  (∀ (f : Fixture) (i : Nat), f.entries.length = f.fails.length + f.deadLanes.length ∧
    (∀ x, f.fails[i]? = some x → f.entries[i]?.map leNat =
      some (x.1 % 2 ^ 32 + 2 ^ 48 * x.2.reason.toNat + 2 ^ 56 * x.2.detail.toNat)) ∧
    (∀ x, f.deadLanes[i]? = some x → f.entries[f.fails.length + i]?.map leNat =
      some (x.1 / 16384 % 2 ^ 32 + 2 ^ 32 * (x.1 / 1024 % 16) + 2 ^ 36 * (x.1 % 1024) + 2 ^ 47 + 2 ^ 48 * x.2.code.toNat))) ∧
  (∀ f : Fixture, (f.fails = [] → f.code = 0) ∧ (f.fails ≠ [] → f.fails.length < f.ncrews → f.code = 1) ∧
    (f.fails ≠ [] → f.ncrews ≤ f.fails.length → f.code = 2)) ∧
  (∀ (s s' : State) (r : Req) (w : Nat × List Byte),
    (writeBlock s r w.1 w.2 = (s', true) → recordWrite r s w = s') ∧
    (writeBlock s r w.1 w.2 = (s', false) → recordWrite r s w = s'.log 0x09 0 r.world 0 r.eid (BitVec.ofNat 64 w.1)))

/-- 02 R41-R43, R56-R60; 05 R122; 16 R409, R419. The message layouts of SPDM are presumed (log 32). -/
def Obligations.MonitorRequestsAndMessages : Prop :=
  (∀ (s : State) (arg : W64) (i : Instr) (code : Nat), (i, code) ∈
      [(Instr.pcfg arg, 0x01), (.prel arg, 0x02), (.pqry arg, 0x03), (.spdmx arg, 0x04), (.apset arg, 0x06), (.lpset arg, 0x09),
       (.cqset arg, 0x0A), (.crset arg, 0x0D), (.fqset arg, 0x0E), (.ctset arg, 0x0F), (.bbrd arg, 0x11), (.hqry arg, 0x12)] →
    (s.osThread s.cur = true → s.board.power = .on → exec i s = .next ((s.request code arg).1.modTeam s.cur (fun t =>
      t.setU 0 (BitVec.ofNat 64 (s.request code arg).2)))) ∧
    (s.osThread s.cur = false ∨ s.board.power ≠ .on → exec i s = .next s)) ∧
  (∀ (s : State) (arg : W64) (i : Instr) (code at_ opc : Nat), (i, code, at_, opc) ∈
      [(Instr.pmapMap arg, 0x05, 0, 1), (.pmapUnmap arg, 0x05, 0, 2), (.pmapAddAlias arg, 0x05, 0, 3),
       (.pmapRemoveAlias arg, 0x05, 0, 4), (.cpoolAdd arg, 0x07, 1, 1), (.cpoolRemove arg, 0x07, 1, 2),
       (.calsetArm arg, 0x08, 1, 1), (.calsetDisarm arg, 0x08, 1, 2), (.pdbindBind arg, 0x0B, 1, 1), (.pdbindUnbind arg, 0x0B, 1, 2),
       (.bssetCreate arg, 0x0C, 3, 1), (.bssetDestroy arg, 0x0C, 3, 2)] →
    (∀ b, (readBlock s State.osReq arg.toNat 64).2 = some b → bfld b at_ 1 = opc → s.osThread s.cur = true → s.board.power = .on →
      exec i s = .next ((s.request code arg).1.modTeam s.cur (fun t => t.setU 0 (BitVec.ofNat 64 (s.request code arg).2)))) ∧
    ((readBlock s State.osReq arg.toNat 64).2 = none ∨ s.osThread s.cur = false ∨ s.board.power ≠ .on → exec i s = .next s)) ∧
  (∀ (s : State) (arg : W64), s.osThread s.cur = true → s.board.power = .on →
    exec (.osfatal arg) s = .next s.osFatal ∧
    (∀ code : W64, code = 0 ∨ 0x12 < code.toNat → exec (.monitorRequestUnknown code arg) s =
      .next (s.modTeam s.cur (fun t => t.setU 0 0x02)))) ∧
  (∀ (s : State) (code : Nat) (arg : W64), (s.request code arg).2 % 2 ^ 32 ≠ 0 → code ≠ 0x0C →
    let t := (s.request code arg).1
    t = { s with health := t.health, spdm := t.spdm, hold := t.hold } ∧ (code ≠ 0x04 → t.spdm = s.spdm ∧ t.hold = s.hold)) ∧
  (∀ (s : State) (code : Nat) (arg : W64), (code = 0 ∨ 0x12 < code → s.request code arg = (s, 0x02)) ∧
    (arg.toNat % 64 ≠ 0 → code ∈ [0x01, 0x03, 0x04, 0x05, 0x06, 0x07, 0x08, 0x0A, 0x0B, 0x0C, 0x0D, 0x0E, 0x0F, 0x11, 0x12] →
      s.request code arg = (s, 0x02)) ∧
    (code = 0x09 → s.request code arg = if 10 ≤ arg.toNat ∧ arg.toNat ≤ 10000
      then ({ s with eng := { s.eng with nextPeriod := arg.toNat } }, 0) else (s, 0x02)) ∧
    (∀ s', code = 0x01 → s.request code arg = (s', 0) → ∃ b p c, (readBlock s State.osReq arg.toNat 256).2 = some b ∧ p = bfld b 0 1 ∧
      p ≤ 11 ∧ (s.part p).cfg = none ∧ (s'.part p).cfg = some c ∧ c = s.cfgOf b ∧ (∀ i, s'.event p i = 0) ∧
      (∀ q, q ≠ p → s'.part q = s.part q)) ∧
    (∀ s', code = 0x0F → s.request code arg = (s', 0) → ∃ b, (readBlock s State.osReq arg.toNat 64).2 = some b ∧
      (s'.thread (2 * bfld b 0 1 + bfld b 1 1)).vec = some (BitVec.ofNat 64 (bfld b 8 8)) ∧
      (s'.thread (2 * bfld b 0 1 + bfld b 1 1)).note = BitVec.ofNat 64 (bfld b 0x10 8))) ∧
  (∀ (s : State) (who : Nat) (i : Instr) (r : State × SpdmRsp) (slot off len index eid session handle seq code : Nat)
      (nonce : BitVec 256) (share : BitVec 768) (sig last : Bool) (data : List Byte),
    (i, r) ∈ [(Instr.getVersion who, (s, SpdmRsp.version)), (.getCapabilities who, (s, .capabilities)),
      (.negotiateAlgorithms who, s.spdmAlgorithms who), (.getDigests who, (s, .digests (sha384 certChain))),
      (.getCertificate who slot off len, s.spdmCertificate slot off len), (.challenge who slot nonce, s.spdmChallenge who slot nonce),
      (.getMeasurements who index sig nonce, s.spdmMeasurements who index sig nonce), (.keyExchange who share, s.spdmKeyExchange 0),
      (.finish who session, s.spdmFinish session), (.endSession who session, s.spdmEnd session),
      (.chunkSend who handle seq last data, s.spdmChunkSend who handle seq last data),
      (.chunkGet who handle seq, s.spdmChunkGet who handle seq), (.encreport who eid nonce, s.spdmReport who eid nonce),
      (.spdmUnsupported who code, (s, .errUnsupported))] →
    (who ≤ 12 → s.board.power ≠ .off → ∃ t, exec i s = .next t ∧ (who, r.2) ∈ t.spdm.rsp ∧ t.mem = r.1.mem ∧ t.hold = r.1.hold) ∧
    (12 < who ∨ s.board.power = .off → exec i s = .next s)) ∧
  (∀ (s : State) (who slot index eid : Nat) (nonce : BitVec 256) (obj data : List Byte) (f : List Byte → SpdmRsp),
    (s.hold.hss < 2 ^ 35 → (s.signed obj f).1 = { s with hold := { s.hold with hss := s.hold.hss + 1 } } ∧
      (s.signed obj f).2 = f (dualSig 0 obj s.hold.hss)) ∧
    ((dualSig 0 obj s.hold.hss).length = 0x60 + 4 + 3444 ∧ bfld (dualSig 0 obj s.hold.hss) 0x60 4 = 3444) ∧
    ((s.reportBytes who eid nonce data).length = 0x88 + data.length) ∧ (slot ≠ 0 → s.spdmKeyExchange slot = (s, .errUnsupported)) ∧
    (2 ^ 35 ≤ s.hold.hss → (s.signed obj f).2 = .errUnspecified ∧ (s.signed obj f).1.hold = s.hold) ∧
    (slot ≠ 0 → s.spdmChallenge who slot nonce = (s, .errUnsupported)) ∧
    (5 < index → index ≠ 0xFF → s.spdmMeasurements who index true nonce = (s, .errInvalid)) ∧
    (1 ≤ index → index ≤ 5 → s.spdmMeasurements who index false nonce =
      (s, .measurements [(index, s.measBlock who index)] 0 [])) ∧
    ((s.enc eid).st ≠ .sealed → s.spdmReport who eid nonce = (s, .errInvalid)))

/-- 02 R39; 03 R80; 14 R365; 15 R383-R387. The bytes of a BAR0 are free, and what an atomic to one or a request that crosses its
end gets is the model's choice (log 33), as are those of log 34; the states in which a TDISP message is taken are its reading
(log 48). -/
def Obligations.PortsAndAcknowledgements : Prop :=
  (∀ (s : State) (port rid va n : Nat) (data : List Byte), s.board.power = .on →
    let rd := exec (.pcieInboundRead port rid (.dma va) n) s
    let wr := exec (.pcieInboundWrite port rid (.dma va) data) s
    let vf := port = 0 ∧ 1 ≤ rid ∧ rid ≤ 12
    (vf → va + n ≤ 2 ^ 20 →
      exec (.pcieInboundRead port rid (.vfBar0 va) n) s = .next ((s.freeBytes n).2.complete_ (.data (s.freeBytes n).1))) ∧
    (vf → va + data.length ≤ 2 ^ 20 → exec (.pcieInboundWrite port rid (.vfBar0 va) data) s = .next (s.complete_ .ok)) ∧
    (∀ dst, dst = .lacking ∨ (dst = .vfBar0 va ∧ (¬ vf ∨ 2 ^ 20 < va + n)) →
      exec (.pcieInboundRead port rid dst n) s = .next (s.complete_ .unsupported)) ∧
    (∀ dst, dst = .lacking ∨ (dst = .vfBar0 va ∧ (¬ vf ∨ 2 ^ 20 < va + data.length)) →
      exec (.pcieInboundWrite port rid dst data) s = .next (s.dropPosted port rid .unsupported)) ∧
    (port = 0 → rid = 0 →
      (2 ^ 22 < va + n → rd = .next (s.complete_ .unsupported)) ∧
      (va + n ≤ 2 ^ 22 → s.fwAdmits 3 3 .read = true → rd = .next ((s.freeBytes n).2.complete_ (.data (s.freeBytes n).1))) ∧
      (va + n ≤ 2 ^ 22 → s.fwAdmits 3 3 .read = false →
        rd = .next ((s.log 0x01 0 3 0 0 (BitVec.ofNat 64 va)).complete_ .completerAbort)) ∧
      (va + data.length ≤ 2 ^ 22 → s.fwAdmits 3 3 .write = true → wr = .next (s.complete_ .ok))) ∧
    (port ≠ 0 ∨ rid ≠ 0 →
    (s.bindingOf port rid = none → rd = .next (s.complete_ .unsupported) ∧ wr = .next (s.dropPosted port rid .unsupported)) ∧
    (∀ r, s.inbound port rid va n = some (r, false) → rd = .next (s.complete_ .completerAbort)) ∧
    (∀ r, s.inbound port rid va data.length = some (r, false) → wr = .next (s.dropPosted port rid .dropped)) ∧
    (∀ r s' bs, s.inbound port rid va n = some (r, true) → readV s r .none .read (linesOf va n) = (s', .ok bs) →
      rd = .next (s'.complete_ (.data bs))) ∧
    (∀ r s' e, s.inbound port rid va n = some (r, true) → readV s r .none .read (linesOf va n) = (s', .error e) →
      rd = .next (s'.complete_ .completerAbort)) ∧
    (∀ r s', s.inbound port rid va data.length = some (r, true) →
      writeV s r .none .write none (linesOf va data.length) data = (s', .ok ()) → wr = .next (s'.complete_ .ok)) ∧
    (∀ r s' e, s.inbound port rid va data.length = some (r, true) →
      writeV s r .none .write none (linesOf va data.length) data = (s', .error e) → wr = .next (s'.dropPosted port rid .dropped))) ∧
    (s.dropPosted port rid .dropped).mem = s.mem ∧
    tget 0 (s.dropPosted port rid .dropped).links.errs (port * 65536 + rid) = tget 0 s.links.errs (port * 65536 + rid) + 1) ∧
  (∀ (s : State) (port rid va : Nat) (op : PcieAtomic), s.board.power = .on →
    let at_ := exec (.pcieInboundAtomic port rid (.dma va) op) s
    (∀ dst, dst = .lacking ∨ dst = .vfBar0 va → exec (.pcieInboundAtomic port rid dst op) s = .next (s.complete_ .unsupported)) ∧
    ((port = 0 ∧ rid = 0) ∨ pcieAtom op = none → at_ = .next (s.complete_ .unsupported)) ∧
    (∀ n kind f, port ≠ 0 ∨ rid ≠ 0 → pcieAtom op = some (n, kind, f) →
      (s.bindingOf port rid = none ∨ va % n ≠ 0 → at_ = .next (s.complete_ .unsupported)) ∧
      (∀ r, s.inbound port rid va n = some (r, false) → va % n = 0 → at_ = .next (s.complete_ .completerAbort)) ∧
      (∀ r s' old, s.inbound port rid va n = some (r, true) → va % n = 0 →
        atomicV s r .none { op := kind, bytes := n, system := true } true [(va, n)] f = (s', .ok old) →
        at_ = .next (s'.complete_ (.data old))) ∧
      (∀ r s' e, s.inbound port rid va n = some (r, true) → va % n = 0 →
        atomicV s r .none { op := kind, bytes := n, system := true } true [(va, n)] f = (s', .error e) →
        at_ = .next (s'.complete_ .completerAbort)))) ∧
  (∀ s : State, s.board.power = .on →
    (s.links.attached = true → exec .portUHotReset s = .next s.moduleReset ∧ exec .portULinkDown s = .next s.moduleReset) ∧
    (s.links.attached = false → (∃ t, exec .portUHotReset s = .next t ∧
        t.links.bindings = s.links.bindings.filter (fun b => b.port != 0)) ∧
      ∃ t, exec .portULinkDown s = .next t ∧ t.links.bindings = s.links.bindings ∧ t.mem = s.mem) ∧
    (∀ vf, 1 ≤ vf → vf ≤ 12 → ∃ t, exec (.vfFlr vf) s = .next t ∧
      t.links.bindings = s.links.bindings.filter (fun b => !(b.port == 0 && b.rid == vf))) ∧
    (s.moduleReset.hold = s.hold ∧ s.moduleReset.mem = { State.reset.mem with ipt := State.retiredIpt s.hold.retiredUnits } ∧ s.moduleReset.fw.lock = true ∧ s.moduleReset.teams = State.reset.teams)) ∧
  (∀ (s : State) (port rid : Nat), s.board.power = .on →
    let k := port * 65536 + rid
    let tdi := tget Tdi.configUnlocked s.links.tdi k
    let goes := fun (t : State) (x : Tdi) => tget Tdi.configUnlocked t.links.tdi k = x
    (tdi = .run → ∃ t, exec (.tdiLeaveRun port rid) s = .next t ∧ goes t .configUnlocked ∧
      t.links.bindings = s.links.bindings.filter (fun x => !(x.port == port && x.rid == rid))) ∧
    (tdi ≠ .run → exec (.tdiLeaveRun port rid) s = .next s) ∧
    (port = 1 ∨ (port = 0 ∧ 1 ≤ rid ∧ rid ≤ 12) →
      (tdi = .configUnlocked → ∃ t, exec (.tdispRequest port rid .lock) s = .next t ∧ goes t .configLocked) ∧
      (tdi = .configLocked → ∃ t, exec (.tdispRequest port rid .startIface) s = .next t ∧ goes t .run) ∧
      (∃ t, exec (.tdispRequest port rid .stopIface) s = .next t ∧ goes t .configUnlocked) ∧
      (tdi ≠ .configUnlocked → exec (.tdispRequest port rid .lock) s = .next s) ∧
      (tdi ≠ .configLocked → exec (.tdispRequest port rid .startIface) s = .next s)) ∧
    (∀ stream on, port ≤ 1 → stream ≤ (if port = 0 then 15 else 7) → ∃ t, exec (.ideKmRequest port stream on) s = .next t ∧
      tget false t.links.ide (port * 16 + stream) = on ∧ t = { s with links := { s.links with ide := t.links.ide } })) ∧
  (∀ (s : State) (g : Nat),
    ((s.team g).uwc = [] → exec (.uwcAck g) s = .next s) ∧
    (∀ x xs, (s.team g).uwc = x :: xs → ∃ t, exec (.uwcAck g) s = .next t ∧ (t.team g).uwc = xs ∧ t.mem = s.mem ∧
      (twf Team.idle s.teams = true → ∀ h, h ≠ g → (t.team h).uwc = (s.team h).uwc))) ∧
  (∀ (s : State) (p k : Nat), s.board.power = .on → s.targetOf p k ≠ 0 →
    (∀ t, s.failOldest (apKey p k) = some t → exec (.apertureRequestFail p k) s = .next t) ∧
    (s.failOldest (apKey p k) = none → ∃ t, exec (.apertureRequestFail p k) s = .next t ∧
      tget 0 t.links.failNext (apKey p k) = 1 ∧ t.mem = s.mem ∧ t.teams = s.teams)) ∧
  (∀ (s : State) (b : Nat),
    (∀ w, s.eng.walks.find? (fun x => x.1 == b) = some (b, w) → w.cycles + 65536 * 1000 ≤ s.mcycOf w.cluster →
      ∃ t, exec (.walkBatchAged b) s = .next t ∧ t.mem = s.mem ∧ t.teams = s.teams ∧
        tget { agent := 0, cluster := 0, use := .instr, pages := [], cycles := 0, aged := false } t.eng.walks b = { w with aged := true }) ∧
    (∀ w, s.eng.walks.find? (fun x => x.1 == b) = some (b, w) → s.mcycOf w.cluster < w.cycles + 65536 * 1000 →
      exec (.walkBatchAged b) s = .next s) ∧
    (s.eng.walks.find? (fun x => x.1 == b) = none → exec (.walkBatchAged b) s = .next s))

/-- 15 R390-R398; 02 R37. The members' data, and whether their descriptors agree, are free values (logs 10, 50). The model's
readings: the stream fails at the third forged request, a CTR below the window counts as seen, a release waits for its turn, and a
key that comes 10 ms after the stop is not installed (log 49); a dying ring with nothing posted makes no access (log 50). -/
def Obligations.BurraAndCollectives : Prop :=
  (∀ (s : State) (p k ctr : Nat) (rq : BurraReq), s.board.power = .on →
    let x := s.stream p k
    let i := exec (.burraInboundRequest p k ctr rq) s
    let seen := ctr + 2 ^ 16 < x.highest ∨ ctr ∈ x.seen
    let y := { x with highest := max x.highest (ctr + 1), authFails := 0,
                      seen := (ctr :: x.seen).filter (fun c => decide (max x.highest (ctr + 1) ≤ c + 2 ^ 16)) }
    let turn := tget 0 s.links.relsIn (x.eid * 4096 + x.pkg)
    let early := ∃ q a, rq = .release q a ∧ q ≠ turn
    (State.streamUp x = false → i = .next s) ∧
    (State.streamUp x = true → rq = .forged →
      (x.authFails < 2 → i = .next (s.setStream p k { x with authFails := x.authFails + 1 })) ∧
      (2 ≤ x.authFails → i = .next ((s.setStream p k { x with authFails := x.authFails + 1 }).failStream p k))) ∧
    (State.streamUp x = true → rq ≠ .forged → seen → ∃ t, i = .next t ∧ t.mem = s.mem ∧ t.links.cpl = .ok :: s.links.cpl) ∧
    (State.streamUp x = true → rq ≠ .forged → ¬ seen → early → i = .next s) ∧
    (State.streamUp x = true → ¬ seen → ∀ a, rq = .access a → i = .next ((s.setStream p k y).burraDo p k a)) ∧
    (State.streamUp x = true → ¬ seen → ∀ a, rq = .release turn a →
      i = .next (({ s with links := { s.links with
        relsIn := tset 0 s.links.relsIn (x.eid * 4096 + x.pkg) (turn + 1) } } : State).setStream p k y |>.burraDo p k a))) ∧
  (∀ (s : State) (p k : Nat), s.board.power = .on →
    let x := s.stream p k
    (x.st = .open → 2 ^ 47 ≤ x.ctr → exec (.burraRekeyRequest p k) s = .next (s.setStream p k { x with st := .rekey })) ∧
    (x.st = .open ∨ x.st = .rekey → 2 ^ 48 - 2 ^ 16 ≤ x.ctr →
      exec (.burraSendStop p k) s = .next (s.setStream p k { x with st := .halted, haltAt := s.clk.now })) ∧
    (x.st = .rekey ∨ (x.st = .halted ∧ s.clk.now < x.haltAt + 10000000) → exec (.burraKeyInstalled p k) s =
      .next ((({ s with free := s.free + 1 } : State).setStream p k { x with
        st := .open, ctr := 0, haltAt := 0, highest := 0, seen := [], key := s.streamKey x.eid x.sid }).stir)) ∧
    (x.st = .halted → x.haltAt + 10000000 ≤ s.clk.now → exec (.burraKeyInstalled p k) s = .next s) ∧
    (s.noGroups = true ↔ ∀ g < 8, tget 0 s.links.group g ≠ 0 ∧ tget 0 s.links.group g - 1 + 10000000 ≤ s.clk.now) ∧
    ((x.st = .halted ∧ x.haltAt + 10000000 ≤ s.clk.now) ∨ (State.streamUp x = true ∧ (s.noGroups = true ∨ 3 ≤ x.authFails)) →
      ∃ t, exec (.burraStreamFail p k) s = .next t ∧ (t.stream p k).st = .failed ∧
      (t.event p x.failev).toNat = min ((s.event p x.failev).toNat + 1) (2 ^ 32 - 1)) ∧
    (x.st = .open → x.authFails < 3 → s.noGroups = false → exec (.burraStreamFail p k) s = .next s) ∧
    (x.ctr < 2 ^ 47 → exec (.burraRekeyRequest p k) s = .next s ∧ exec (.burraSendStop p k) s = .next s)) ∧
  (∀ (s : State) (g : Nat), s.board.power = .on → g < 8 →
    exec (.burraFlitReceive g true) s = .next s ∧
    (∃ t, exec (.burraFlitReceive g false) s = .next t ∧ t.links.resent = s.links.resent + 1 ∧ t.mem = s.mem ∧ t.teams = s.teams) ∧
    ∃ t, exec (.burraLaneGroupFail g) s = .next t ∧ tget 0 t.links.group g ≠ 0 ∧ t.links.resent = s.links.resent + 1 ∧
      t.mem = s.mem ∧ t.teams = s.teams) ∧
  (∀ (s : State) (ring : Nat) (o : CollOp), s.collHead ring = some o → s.board.power = .on → (s.ringAt ring).eid ≠ 0 →
    let x := s.ringAt ring
    let p := ring / 4096
    let none_ := (s.part p).cfg.all (fun c => c.colMax == 0)
    let idle := (s.enc x.eid).st = .dying ∧ ∀ y ∈ s.eng.collOps, y.ring ≠ ring
    (idle → exec (.collectiveRetire ring) s = .next s) ∧
    (¬ idle → s.collCancelled o = true → exec (.collectiveRetire ring) s = .next (s.collCancel o)) ∧
    (s.collCancelled o = false → (s.event p x.doorb).toNat ≤ x.consumed → exec (.collectiveRetire ring) s = .next s) ∧
    (s.collCancelled o = false → x.consumed < (s.event p x.doorb).toNat →
      (∀ s' b, none_ = true → s.collRead_ o = (s', .ok b) →
        exec (.collectiveRetire ring) s = .next (s'.collRetire o (some b) { s := s', st := 0x08 })) ∧
      (none_ = false → s.boundTo true p = 0 → exec (.collectiveRetire ring) s = .next s) ∧
      (∀ s' b, none_ = false → s.boundTo true p ≠ 0 → s.collRead_ o = (s', .ok b) →
        (collDesc b = none → exec (.collectiveRetire ring) s = .next (s'.collRetire o (some b) { s := s', st := 0x08 })) ∧
        (∀ d, collDesc b = some d → s.engineOpen (engReq p x.eid) = false → exec (.collectiveRetire ring) s =
          .next (s'.collRetire o (some b) { s := s'.fwBlock (engReq p x.eid) .write d.src, st := 0x01 })) ∧
        (∀ d e, collDesc b = some d → s.engineOpen (engReq p x.eid) = true → collRun s' p x.eid d = some e →
          exec (.collectiveRetire ring) s = .next (s'.collRetire o (some b) e))))) ∧
  (∀ (ps : List Nat), ps ≠ [] → (∀ p ∈ ps, p < 2 ^ 32) → (collReduce .i32 ps).v = ps.sum % 2 ^ 32 ∧ (collReduce .w32 ps).v = ps.sum % 2 ^ 32 ∧
    (collReduce .i32 ps).fl = 0) ∧
  (collReduce .f32 [0x3F800000, 0x4B800000, 0x3F800000, 0xCB800000]).v = 0 ∧
  (∀ (ty : Ty) (x : Nat) (xs : List Nat), ty ∈ [Ty.f32, .bf16] →
    let el : Nat → FOut := fun q => let o := fsrc ty false false false q
      { pat := if ty = .bf16 then o.pat * 65536 else o.pat, fl := o.fl }
    ∃ y : Nat → FOut, y 0 = el x ∧
      (∀ i q, xs[i]? = some q →
        let o := rnd .f32 .exact (addX .rne (Ty.val .f32 (y i).pat) (Ty.val .f32 (el q).pat))
        y (i + 1) = { pat := o.pat, fl := (y i).fl ||| (el q).fl ||| o.fl }) ∧
      let z := y xs.length
      let w := rnd .bf16 .exact (Ty.val .f32 z.pat).toX
      (collReduce ty (x :: xs)).v = (if ty = .bf16 then w.pat else z.pat) ∧
      (collReduce ty (x :: xs)).fl = (if ty = .bf16 then z.fl ||| w.fl else z.fl)) ∧
  (∀ (d : CollDesc) (own : Nat → Nat) (peer : Nat → Nat → Nat), d.rank < d.nmem →
    let at4 := fun (r j : Nat) => if r = d.rank then own j else peer r j
    let out := collOut d own peer
    (d.op = 0 → out.length = d.nmem * d.count ∧ ∀ j < d.nmem * d.count,
      out[j]? = some (collReduce d.ty ((List.range d.nmem).map (fun r => at4 r j)))) ∧
    (d.op = 1 → out.length = d.count ∧ ∀ j < d.count,
      out[j]? = some (collReduce d.ty ((List.range d.nmem).map (fun r => at4 r (d.rank * d.count + j))))) ∧
    (d.op = 2 → out.length = d.nmem * d.count ∧ ∀ r < d.nmem, ∀ j < d.count,
      out[r * d.count + j]? = some { v := at4 r j, fl := 0 })) ∧
  (∀ (s : State) (p e : Nat) (d : CollDesc) (s1 s2 s3 : State) (mb bs : List Byte) (n : Nat),
    let r := engReq p e
    let es := if d.ty = .bf16 then 2 else 4
    let ks := ((List.range d.nmem).filter (fun k => k != d.rank)).map (fun k => bfld mb (2 * k) 2)
    let peer := fun (m j : Nat) => leNat ((List.range es).map (fun i => Config.freeByte (s2.free + 1 + m) (es * j + i)))
    let outs := collOut d (fun j => bfld bs (es * j) es) peer
    d.ty ∈ [Ty.f32, .bf16, .i32, .w32] →
    collRead r s (linesOf d.memb (2 * d.nmem)) [] = (s1, mb, .ok) → collStreams s1 p e ks = some 0x00 →
    collRead r s1 (linesOf d.src (es * (if d.op = 2 then d.count else d.nmem * d.count))) [] = (s2, bs, .ok) →
    collWrite r (collSend { s2 with free := s2.free + 1 + d.nmem } p ks)
      (linesOf d.dst (es * (if d.op = 1 then d.count else d.nmem * d.count))) (outs.flatMap (fun x => leBytes es x.v)) 0 = (s3, n, .ok) →
    collRun s p e d = some (if (Config.freeWord s1.free).getLsbD 0 = true
      then { s := { s1 with free := s1.free + 1 }, st := 0x08, inn := 0, out := 0, fl := 0 }
      else { s := s3, st := 0x00, inn := bs.length, out := n, fl := outs.foldl (fun f x => f ||| x.fl) 0 })) ∧
  (∀ (s : State) (r : Req) (ls : List (Nat × Nat)) (pa : Nat → Nat) (e : Nat → Ipt),
    ((∀ l ∈ ls, ∃ w, trLine s r .none .read none l.1 = (s, .ok w) ∧ placeRead s r .none l.1 w = .at (pa l.1) (e l.1) ∧
        s.goodLines (pa l.1) l.2 (e l.1) = true) → r.cl = none →
      ∃ m, collRead r s ls [] = ({ s with caches := m }, (ls.map (fun l => s.bytes (pa l.1) l.2)).flatten, .ok)) ∧
    (∀ bs : List Byte, bs.length = (ls.map (fun l => l.2)).sum → r.cl = none →
      (∀ l ∈ ls, ∃ w, trLine s r .none .write none l.1 = (s, .ok w) ∧ (e l.1).attr ≠ 2 ∧
        placeWrite s r .none l.1 w = (s, .ok (.at (pa l.1) (e l.1)))) →
      ls.Pairwise (fun l m => pa l.1 + l.2 ≤ pa m.1 ∨ pa m.1 + m.2 ≤ pa l.1) →
      ∃ t, collWrite r s ls bs 0 = (t, bs.length, .ok) ∧
        (ls.map (fun l => t.bytes (pa l.1) l.2)).flatten = bs ∧
        ∀ q, (∀ l ∈ ls, q < pa l.1 ∨ pa l.1 + l.2 ≤ q) → t.byte q = s.byte q))

/-- 05 R113; 18 R458, R459; 22 R480, R481, R485, R486. 02 R37, R38. The model's choices: the rate under discipline is a free value and
rate 0 in holdover log 44; what the throttle events measure and a PLIM out of range log 43; the policy after a module reset log 45. -/
def Obligations.HealthTimeAndLimits : Prop :=
 ((∀ (s : State) (u : UnitName), s.board.power = .on → unitExists u = true →
    (∃ t, exec (.correctedError u) s = .next t ∧ t.score u = min 65535 (s.score u + 1) ∧ t.mem = s.mem ∧ t.teams = s.teams ∧
      ∀ v, unitExists v = true → v ≠ u → t.score v = s.score v) ∧
    (s.unitState u = .draining ∨ s.unitState u = .testing →
      (∃ t, exec (.unitTestComplete u true) s = .next t ∧ t.unitState u = .inService ∧ t.score u = 64) ∧
      ∃ t, exec (.unitTestComplete u false) s = .next t ∧ t.unitState u = .retired ∧ u ∈ t.hold.retiredUnits) ∧
    (s.unitState u = .inService ∨ s.unitState u = .retired → ∀ b, exec (.unitTestComplete u b) s = .next s)) ∧
  (∀ s : State, s.board.power = .on →
    (s.clk.halved + 86400 * 10 ^ 9 ≤ s.clk.ptp → ∃ t, exec .scoreHalving s = .next t ∧ (twf 0 s.health.score = true → ∀ u, t.score u = s.score u / 2) ∧
      t.clk.halved = s.clk.halved + 86400 * 10 ^ 9 ∧ t.mem = s.mem) ∧
    (s.clk.ptp < s.clk.halved + 86400 * 10 ^ 9 → exec .scoreHalving s = .next s) ∧
    (∀ m i, i ∈ [Instr.ptpTimestamp m, .ppsPulse] → ∃ t, exec i s = .next t ∧ t.clk.holdover = false ∧
      -100000 ≤ t.clk.ptpRate ∧ t.clk.ptpRate ≤ 100000 ∧ t = { s with clk := { s.clk with ptpRate := t.clk.ptpRate, holdover := false }, free := t.free }) ∧
    exec .syncLoss s = .next { s with clk := { s.clk with holdover := true, ptpRate := 0 } } ∧
    (∀ target, ∃ t, exec (.timeStep target) s = .next t ∧
      (s.parts.any (fun x => x.2.cal.any (fun y => y.2.armed)) = false → t.clk.ptp = target ∧ t.clk.step = none) ∧
      (s.parts.any (fun x => x.2.cal.any (fun y => y.2.armed)) = true → t.clk.ptp = s.clk.ptp ∧ t.clk.step = some target)) ∧
    (∀ c p d, c ≤ 3 →
      let b := s.board.measured s.clk.now p d
      let hot := (∃ t0, b.overAt = some t0 ∧ t0 + 100000 ≤ s.clk.now) ∨ 105 < d
      let calm := ∃ t0, b.calmAt = some t0 ∧ t0 + 1000000 ≤ s.clk.now
      (∃ t, exec (.throttleDown c p d) s = .next t ∧ t.board = b ∧ t.mem = s.mem ∧ t.teams = s.teams ∧
        (hot → tget 3300 t.clk.mhz c = max 1650 (min 3300 (tget 3300 s.clk.mhz c - 100))) ∧ (¬ hot → t.clk = s.clk)) ∧
      ∃ t, exec (.throttleUp c p d) s = .next t ∧ t.board = b ∧ t.mem = s.mem ∧ t.teams = s.teams ∧
        (calm → tget 3300 t.clk.mhz c = max 1650 (min 3300 (tget 3300 s.clk.mhz c + 100))) ∧ (¬ calm → t.clk = s.clk))) ∧
  (∀ (b : Board) (now p d : Nat),
    let m := b.measured now p d
    m = { b with pkgPower := p, dieTemp := d, overAt := m.overAt, calmAt := m.calmAt } ∧
    (p ≤ b.plim → m.overAt = none) ∧ (b.plim < p → m.overAt = some (b.overAt.getD now)) ∧
    (b.plim < p ∨ 105 < d → m.calmAt = none) ∧ (p ≤ b.plim → d ≤ 105 → m.calmAt = some (b.calmAt.getD now))) ∧
  (∀ s : State, s.board.power = .on ∨ s.board.power = .quiesce ∨ s.board.power = .saving →
    exec .bankLow s = .next { s with board := { s.board with bankReady := false, bankLow := true, bankDown := true } }) ∧
  (∀ (s : State) (v : W32) (w : Nat), s.board.power ≠ .off →
    exec (.modstatWrite v) s = .next { s with board := { s.board with
      thermTrip := s.board.thermTrip && !v.getLsbD 4, bankLow := s.board.bankLow && !v.getLsbD 5 } } ∧
    (1500 ≤ w → w ≤ 4000 → exec (.plimWrite w) s = .next { s with
      board := ({ s.board with plim := w } : Board).measured s.clk.now s.board.pkgPower s.board.dieTemp }) ∧
    (w < 1500 ∨ 4000 < w → exec (.plimWrite w) s = .next s)) ∧
  (∀ s : State, (s.board.power = .off → s.modstat = none) ∧
    (s.board.power ≠ .off → ∃ v, s.modstat = some v ∧
      (v.getLsbD 0 = true ↔ s.board.power = .on ∨ s.board.power = .quiesce ∨ s.board.power = .saving) ∧
      v.getLsbD 1 = s.board.bankReady ∧ (v.getLsbD 2 = true ↔ s.board.power = .quiesce ∨ s.board.power = .saving) ∧
      (v.getLsbD 3 = true ↔ ∃ k, k < 4 ∧ tget 3300 s.clk.mhz k < 3300) ∧ v.getLsbD 4 = s.board.thermTrip ∧
      v.getLsbD 5 = s.board.bankLow ∧ v.extractLsb' 6 2 = 0 ∧ v.extractLsb' 8 8 = s.board.reserve ∧ v.extractLsb' 16 16 = 0))) ∧
 ((∀ (s : State) (i t : Nat), t < 16 →
    s.fwAdmits i t .read = (tget 0 s.fw.fwm i).getLsbD (2 * t) ∧
    s.fwAdmits i t .write = (tget 0 s.fw.fwm i).getLsbD (2 * t + 1) ∧
    s.fwAdmits i t .atomic = (tget 0 s.fw.fwm i).getLsbD (2 * t + 1)) ∧
  (∀ (s : State) (i : Nat) (v : W32), s.board.power = .on → s.fw.lock = false →
    (i ≤ 15 → ∃ t, exec (.fwmWrite 1 i v) s = .next t ∧ tget 0 t.fw.fwm i = v ∧ (∀ j, j ≠ i → tget 0 t.fw.fwm j = tget 0 s.fw.fwm j) ∧
      t = { s with fw := { s.fw with fwm := t.fw.fwm } }) ∧
    (15 < i → exec (.fwmWrite 1 i v) s = .next s) ∧
    exec (.fwlockWrite 1 v) s = .next { s with fw := { s.fw with lock := v.getLsbD 0 } }) ∧
  (∀ (s : State) (w i : Nat) (v : W32), s.fw.lock = true → ∃ t u, exec (.fwmWrite w i v) s = .next t ∧
    exec (.fwlockWrite w v) s = .next u ∧ t.fw = s.fw ∧ u.fw = s.fw ∧ t.mem = s.mem ∧ u.mem = s.mem) ∧
  (∀ s : State, s.moduleReset.fw = Firewall.policy) ∧
  (∀ s : State, s.fw = Firewall.policy → s.fw.lock = true ∧ ∀ i t, i < 16 → t < 16 →
    let ok := i ≤ 1 ∨ (i = 2 ∧ 2 ≤ t) ∨ (i = 3 ∧ (t = 2 ∨ t = 3)) ∨ (4 ≤ i ∧ t = i)
    s.fwAdmits i t .read = decide ok ∧ s.fwAdmits i t .write = decide ok))

/-- 17 R429-R438; 22 R478-R486. The model's choices: the save's progress log 37; the events of the power manager and the time at which
a late bank fails log 43; the module reset log 45; the 100 us bound on entering a handler and BANK_EXHAUSTED before the save log 47. -/
def Obligations.PowerSequence : Prop :=
  (∀ s : State, s.powerOff.board = { State.reset.board with thermTrip := s.board.thermTrip } ∧ s.powerOff.board.power = .off ∧ s.powerOff.hold = s.hold ∧ s.powerOff.mem = State.reset.mem ∧
    s.powerOff.teams = State.reset.teams ∧ s.powerOff.encl = State.reset.encl ∧ s.powerOff.crews = State.reset.crews) ∧
  (∀ (s : State) (mj : Nat), s.board.power = .off →
    (∃ t, exec (.powerUp mj true true) s = .next t ∧ t.board.power = .charging ∧ t.board.capacity =
      (if 60000 ≤ mj then 6 * 2 ^ 30 else if mj ≤ 30000 then 0 else 96 * (mj - 30000) / 30000 * 2 ^ 26) ∧
      t.hold.hss = s.hold.hss ∧ t.hold.gen = s.hold.gen ∧ t.board.thermTrip = false ∧
      t.board.reserve = BitVec.ofNat 8 (min 255 (mj / 1000)) ∧
      t.mem = { State.reset.mem with ipt := State.retiredIpt s.hold.retiredUnits }) ∧
    ∀ a b, (a && b) = false → ∃ t e, exec (.powerUp mj a b) s = .next t ∧ t.board.power = .failed ∧ t.board.bankReady = false ∧
      t.hold.gen = s.hold.gen ∧ t.health.bb = (e :: s.health.bb).take 4096 ∧ (a = false → e.type = 2)) ∧
  (∀ (s : State) (mj : Nat) (a b : Bool), s.board.power ≠ .off → exec (.powerUp mj a b) s = .next s) ∧
  (∀ s : State,
    (s.board.power = .charging →
      (s.clk.now ≤ 3 * 10 ^ 9 → exec .bankCharged s = .next { s with board := { s.board with power := .on, bankReady := true }, fw := Firewall.policy }) ∧
      (3 * 10 ^ 9 < s.clk.now → ∃ t e, exec .bankCharged s = .next t ∧ t.board.power = .failed ∧ t.hold = s.hold ∧ t.mem = s.mem ∧
        t.health.bb = (e :: s.health.bb).take 4096) ∧
      ∀ n, (s.clk.now + n ≤ 3 * 10 ^ 9 → (s.passTime n).board = s.board) ∧
        (3 * 10 ^ 9 < s.clk.now + n → (s.passTime n).board.power = .failed ∧ (s.passTime n).hold = s.hold)) ∧
    (s.board.power = .on → exec .bankCharged s = .next { s with board := { s.board with bankReady := true } }) ∧
    (s.board.power ≠ .charging → s.board.power ≠ .on → exec .bankCharged s = .next s) ∧
    (s.board.power = .off ∨ s.board.power = .failed ∨ s.board.power = .charging → exec .powerFail s = .next s.powerOff) ∧
    (s.board.power = .on → exec .resetN s = .next s.moduleReset) ∧ s.moduleReset.hold = s.hold ∧
    (s.board.power = .on → ∃ t, exec .powerFail s = .next t ∧ t.board.power = .quiesce ∧ t.board.t0 = s.clk.now ∧ t.board.bankReady = false ∧ (∀ k, k < 4 → tget 3300 t.clk.mhz k = 1650) ∧
      t.hold.gen = s.hold.gen + 1 ∧ ∀ g, g < 128 → (t.team g).run = .pfStopped ∨ (t.team g).run = .stopped) ∧
    (∀ d, (s.board.power = .on → ∃ t, exec (.thermalTrip d) s = .next t ∧ t.board.power = .quiesce ∧ t.board.thermTrip = true) ∧
      (s.board.power = .failed ∨ s.board.power = .charging → ∃ t, exec (.thermalTrip d) s = .next t ∧
        t.board = { State.reset.board with thermTrip := true } ∧ t.hold = s.hold) ∧
      (s.board.power = .off ∨ s.board.power = .quiesce ∨ s.board.power = .saving → exec (.thermalTrip d) s = .next s)) ∧
    (s.board.power = .quiesce ∨ s.board.power = .saving → exec .powerFail s = .next s)) ∧
  (∀ (s : State) (g : Nat),
    let t := s.team g
    let d := (s.fixture (s.fxOf g)).desc
    let may := s.board.power = .quiesce ∧ s.pfDue g = true ∧ s.clk.now < s.board.t0 + 100000
    (¬ may → exec (.pfHandlerEntry g) s = .next s) ∧
    (may → t.live &&& ~~~ t.exited &&& laneMask t.width ≠ 0 → ∃ u, exec (.pfHandlerEntry g) s = .next (s.setTeam g u) ∧
      u.run = .pfHandler ∧ u.pc = BitVec.ofNat 64 d.pfh ∧ u.active = (t.live &&& ~~~ t.exited &&& laneMask t.width) ∧ u.stack = [] ∧
      u.trapcause = 0x40 ∧ u.trappc = t.pc ∧ u.pfAt = s.clk.now ∧ u.v = t.v ∧ u.u = t.u ∧ u.p = t.p) ∧
    (t.run = .pfHandler → t.pfAt + 20000 ≤ s.clk.now ∨ s.board.t0 + 100000 ≤ s.clk.now →
      exec (.pfHandlerBudget g) s = .next (s.pfStop g)) ∧
    (t.run ≠ .pfHandler ∨ (s.clk.now < t.pfAt + 20000 ∧ s.clk.now < s.board.t0 + 100000) →
      exec (.pfHandlerBudget g) s = .next s)) ∧
  (∀ s : State,
    (s.board.power = .quiesce → s.handlersOver = true → ∃ t, exec .quiesceComplete s = .next t ∧ t.board.power = .saving ∧
      t.board.toWrite = s.saveItems ∧ t.mem = s.mem ∧ ∃ c, t.hold.cur = some c ∧ c.committed = false ∧ c.gen = s.hold.gen ∧
      (∀ x, x ∈ s.encl → x.2.st = .sealed ∨ x.2.st = .building → ∃ m, m ∈ c.parts ∧ m.eid = x.1 ∧ m.meas = x.2.meas ∧ m.items = x.2.items) ∧
      ∀ m, m ∈ c.parts → ∃ x, x ∈ s.encl ∧ x.1 = m.eid ∧ (x.2.st = .sealed ∨ x.2.st = .building)) ∧
    (s.board.power ≠ .quiesce ∨ s.handlersOver = false → exec .quiesceComplete s = .next s) ∧
    (s.board.power = .saving → (s.board.toWrite.map State.itemSize).sum ≤ s.written → ∃ t, exec .saveComplete s = .next t ∧
      t.board.power = .off ∧ t.hold.cur = none ∧ t.hold.restorable = [] ∧ t.hold.lost = [] ∧ t.hold.area = 1 - s.hold.area ∧
      ∀ g, s.hold.cur = some g → t.hold.newest = some { g with
        committed := true, items := s.board.toWrite, commit := genCommit g.gen s.board.toWrite.length }) ∧
    (s.board.power = .saving → s.written < (s.board.toWrite.map State.itemSize).sum → exec .saveComplete s = .next s) ∧
    (let weak := s.board.bankDown = true ∨ s.board.reserve < 60
     (s.board.power = .saving → weak → ∃ t, exec .bankExhausted s = .next t ∧ t.board.power = .off ∧ t.hold.newest = s.hold.newest ∧
       ∀ g, s.hold.cur = some g → t.hold.cur = some { g with items := State.itemStates s.written s.board.toWrite }) ∧
     (s.board.power = .quiesce → weak → exec .bankExhausted s = .next s.powerOff) ∧
     (¬ weak ∨ (s.board.power ≠ .saving ∧ s.board.power ≠ .quiesce) → exec .bankExhausted s = .next s))) ∧
  (∀ (is : List SavedItem) (n : Nat), (is.map State.itemSize).sum ≤ n → State.itemStates n is = is)

/-- The encoding examples of 06, 07 R196, 09 R260, 12 R305, 13, 14, 16, 21 and 04 R109, 17 R446: a sanity statement. -/
def Obligations.WordsDecodeToTheirInstructions : Prop :=
  let g0 : Guard := { neg := false, p := 0 }
  let vz : Operand := .v 255
  decodeWord 0x004007FBFDFE000000000000 = .ok (.nop { g := g0, d := vz, a := vz, b := vz, pd := 0, sfn := 0 }) ∧
  decodeWord 0x01C007FBFDFE000000050000 = .ok (.split { g := g0, yield := false, d := vz, a := vz, disp := 5 }) ∧
  decodeWord 0x30C60020140C041200000000 = .ok (.ffma
    { g := { neg := false, p := 3 }, yield := false, d := .v 4, a := .v 5,
      b := .v 6, c := .v 4, ty := .f32, rnd := .rne, ftzi := false, ftzo := false, sat := false, na := false, aa := false,
      nb := false, ab := false, nc := false, ac := false, fn := 0 }) ∧
  decodeWord 0x1800004026A2FF0900000116 = .ok (.shfl
    { g := g0, yield := false, d := .v 8, a := .v 9, b := .imm 17, c := vz,
      ty := .b32, rnd := .rne, ftzi := false, ftzo := false, sat := false, na := false, aa := false,
      nb := false, ab := false, nc := false, ac := false, fn := 0x116 }) ∧
  decodeWord 0x364000500806FF1404000012 = .ok (.cvtpk
    { g := g0, yield := false, d := .v 10, a := .v 2, b := .v 3, c := vz,
      ty := .f8e4, rnd := .rne, ftzi := false, ftzo := false, sat := true, na := false, aa := false,
      nb := false, ab := false, nc := false, ac := false, fn := 0x12 }) ∧
  decodeWord 0x508000501DFE401120000020 = .ok (.ld
    { g := g0, cc := 0, yield := false, d := .v 10, a := .v 7, b := vz, br := 2,
      ord := .rlx, scope := .team, vec := .one, ty := .f32, mfn := 0, disp := 0x20 }) ∧
  decodeWord 0x708007FD41FE200008004003 = .ok (.mma
    { g := g0, cc := 0, yield := false, d := vz, a := .imm 16, b := vz, ta := 4,
      tb := 0, acc := 0, ty := some .i8, rnd := .rne, sat := false, br := 0, ftzo := false, tfn := 0x4003 }) ∧
  decodeWord 0x81C007FBFDFE000000000041 = .ok (.wait { g := g0, d := vz, a := vz, b := vz, pd := 0, sfn := 0x41 }) ∧
  decodeWord 0x9000081BFDFE400000000000 = .ok (.tagnew { g := g0, d := .s 3, a := vz, b := vz, pd := 2, sfn := 0 }) ∧
  decodeWord 0xA340086439FE800000000000 = .ok (.enpgin { g := g0, d := .s 12, a := .s 14, b := vz, pd := 4, sfn := 0 }) ∧
  decodeWord 0xA08007FBFDFE000000000001 = .ok (.eretSkip { g := g0, d := vz, a := vz, b := vz, pd := 0, sfn := 1 }) ∧
  decodeWord 0x920007FBFDFE000000000000 = .ok (.pfret { g := g0, d := vz, a := vz, b := vz, pd := 0, sfn := 0 }) ∧
  (∀ w ∈ [(0x30C60020140C0412C0000000 : Word96), 0x30E00020140C041200000000, 0x30C6002016CA041200000000,
    0x508000501DFE481120000020, 0x81C007FBFDFE000000000040], decodeWord w = .error .illenc) ∧
  decodeWord 0xB0060020140C041200000000 = .error .illop

/-- 06 R146-R156, R169; 07 R190. -/
def Obligations.DecodeAndEncodeAgree : Prop :=
  (∀ (i : Instr) (w : Word96), encode i = some w → wellFormed i = true → decodeWord w = .ok i) ∧
  (∀ (w : Word96) (i : Instr), decodeWord w = .ok i → encode i = some w ∧ wellFormed i = true) ∧
  (∀ i : Instr, encode i = none ↔ opcode i = none) ∧
  (∀ (i : Instr) (w : Word96) (op : Nat), encode i = some w → opcode i = some op → (w.toNat / 2 ^ 86) = op)

/-- 06 R136-R141, R165; 07 R186, R187; 05 R135; 16 R422. The agenda is the model's choice (log 3). -/
def Obligations.StepRunsDecodedInstruction : Prop :=
  (∀ (s s0 s' : State) (bs : List Byte),
    let a := s0.cur
    let t := s0.team a
    let k := slotOf t.pc
    let w := blockWord bs k
    let h := blockHeader bs
    let sig0 : BitVec 24 := if t.block = [] ∧ h.sigx = true ∧ k = 0 ∧ t.folded = false then 0 else t.sig
    let u : Team := { t with block := bs, blockAt := if t.block = [] then blockOf t.pc else t.blockAt,
                             sig := if t.folded then sig0 else foldWord sig0 w, folded := true,
                             since := s'.mcyc a, aged := false, notBefore := if flag w 78 = true then s'.mcyc a + 1000 else t.notBefore }
    ((s.agenda = [] ∧ s0 = s) ∨ (∃ rest, s.agenda = .issue a :: rest ∧ s0 = { s with agenda := rest, cur := a })) →
    s0.ready a = true → s0.chosen a = true →
    ((t.block = bs ∧ bs ≠ [] ∧ s' = s0) ∨ (t.block = [] ∧ s0.fetchWalk a = [] ∧ (s0.takeFetched a).fetch a t.pc = (s', .ok bs) ∧ h.ok = true ∧ k < h.slots)) →
    ∃ s1, s1.team a = u ∧ (∀ b, b ≠ a → s1.team b = s'.team b) ∧ s1 = { s' with teams := s1.teams, sched := (s'.takeSlot a w).sched } ∧
      (State.emptyReplay t = true → step s = .next (s1.leave a t.pc .seq)) ∧
      (∀ i, State.emptyReplay t = false → decodeWord w = .ok i → step s = exec i s1) ∧
      (∀ e, State.emptyReplay t = false → decodeWord w = .error e →
        step s = .next (State.complete a t.pc { s := s1, k := trapAll t.width t.cur (State.decodeCause a w e) }))) ∧
  (∀ (s : State) (i : Instr) (rest : List Choice), s.agenda = .event i :: rest → opcode i = none →
    step s = exec i { s with agenda := rest }) ∧
  (∀ (s : State) (ns : Nat) (rest : List Choice), s.agenda = .elapse ns :: rest →
    step s = .next ({ s with agenda := rest }.passTime ns)) ∧
  (∀ s : State, s.agenda = [] → s.ready s.cur = false ∨ s.chosen s.cur = false → step s = .next (s.passTime 1))

/-- 02 R37, 05 R122, 18 R456, 22 R481, R485; logs 1 and 11. -/
def Obligations.ResetStateIsCanonical : Prop :=
  Memory.wf State.reset = true ∧ (∀ a, State.reset.byte a = 0) ∧
  (∀ w, tget 0 State.reset.fw.fwm w = if w = 0 then 0xFFFFFFFF else 0) ∧ State.reset.fw.lock = false ∧
  State.reset.eng.period = 100 ∧ State.reset.board.plim = 4000 ∧ State.reset.board.thermTrip = false ∧
  State.reset.board.bankLow = false ∧ State.reset.health.bb = [] ∧ State.reset.health.bbSeq = 0 ∧
  State.reset.board.power = .off ∧ (∀ a, State.reset.ready a = false) ∧
  (∀ e, State.reset.enc e = Enclave.free) ∧ (∀ p, State.reset.iptOf p = Ipt.home p) ∧ State.reset.nextToken = 0

/-- The form of memory in the model (log 1); 03 R72, R78, 04 R89, 12 R304, R306 are the rules that change bytes. -/
def Obligations.StepKeepsMemoryCanonical : Prop :=
  ∀ s s' : State, Memory.wf s = true → step s = .next s' → Memory.wf s' = true
end

