-- ==== Sys2Proof/Laws/Decode.lean ====
section
/-! SUPPORT. Each instruction format read back: the fields of a packed word are the fields that were packed. -/
namespace Sys2Proof

/-! ## Fields in a row -/

/-- Fields of the given widths from bit 0 up. -/
def packF : List Nat → List Nat → Nat
  | w :: ws, v :: vs => v + 2 ^ w * packF ws vs
  | _, _ => 0

/-- Every value fits its field, and there are as many values as fields. -/
def fits : List Nat → List Nat → Prop
  | w :: ws, v :: vs => v < 2 ^ w ∧ fits ws vs
  | [], [] => True
  | _, _ => False

theorem packF_lt : ∀ ws vs : List Nat, fits ws vs → packF ws vs < 2 ^ ws.sum
  | [], [], _ => by simp [packF]
  | [], _ :: _, h => h.elim
  | _ :: _, [], h => h.elim
  | w :: ws, v :: vs, h => by
    have ht := packF_lt ws vs h.2
    simp only [packF, List.sum_cons, Nat.pow_add]
    calc v + 2 ^ w * packF ws vs < 2 ^ w + 2 ^ w * packF ws vs := by have := h.1; omega
      _ = 2 ^ w * (packF ws vs + 1) := by rw [Nat.mul_add, Nat.mul_one, Nat.add_comm]
      _ ≤ _ := Nat.mul_le_mul_left _ ht

theorem packF_get : ∀ (ws vs : List Nat), fits ws vs → ∀ (i : Nat) {n v : Nat}, ws[i]? = some n → vs[i]? = some v →
    packF ws vs / 2 ^ (ws.take i).sum % 2 ^ n = v
  | [], [], _, _, _, _, hn, _ => by simp at hn
  | [], _ :: _, h, _, _, _, _, _ => h.elim
  | _ :: _, [], h, _, _, _, _, _ => h.elim
  | w :: ws, v :: vs, h, i, n, x, hn, hv => by
    cases i with
    | zero =>
      simp only [List.getElem?_cons_zero, Option.some.injEq] at hn hv
      subst hn hv
      simp [packF, Nat.mod_eq_of_lt h.1]
    | succ i =>
      have ht := packF_get ws vs h.2 i (by simpa using hn) (by simpa using hv)
      have hd : (v + 2 ^ w * packF ws vs) / 2 ^ w = packF ws vs := by
        rw [Nat.add_mul_div_left _ _ (Nat.two_pow_pos w), Nat.div_eq_of_lt h.1, Nat.zero_add]
      rw [List.take_succ_cons, List.sum_cons, Nat.pow_add, ← Nat.div_div_eq_div_mul]
      simp only [packF, hd]
      exact ht

/-- Field i of a 96-bit word packed from the values `vs`. -/
theorem fld_packF {ws vs : List Nat} {w : Word96} (hw : w = BitVec.ofNat 96 (packF ws vs)) (h : fits ws vs)
    (hl : ws.sum = 96) (i : Nat) {lo n v : Nat} (hn : ws[i]? = some n) (hp : (ws.take i).sum = lo)
    (hv : vs[i]? = some v) : fld w lo n = v := by
  have hlt := packF_lt ws vs h
  rw [hl] at hlt
  have hk := packF_get ws vs h i hn hv
  rw [hp] at hk
  rw [hw, fld, fnBits, BitVec.toNat_ofNat, Nat.mod_eq_of_lt hlt]
  exact hk

/-! ## Codes -/

theorem Operand.ofCode_code (o : Operand) : Operand.ofCode o.code = some o := by
  cases o with
  | v r => have := r.isLt; simp [Operand.ofCode, Operand.code, this]
  | s r =>
    have := r.isLt
    show Operand.ofCode (0x100 + r.toNat) = _
    unfold Operand.ofCode
    rw [if_neg (by omega), if_pos (by omega)]; simp
  | imm c =>
    have := c.isLt
    show Operand.ofCode (0x140 + c.toNat) = _
    unfold Operand.ofCode
    rw [if_neg (by omega), if_neg (by omega), if_pos (by omega)]; simp
  | idx k j =>
    have h1 := k.isLt
    have h2 := j.isLt
    show Operand.ofCode (0x1C0 + 8 * k.toNat + j.toNat) = _
    have e1 : (0x1C0 + 8 * k.toNat + j.toNat - 0x1C0) / 8 = k.toNat := by omega
    have e2 : (0x1C0 + 8 * k.toNat + j.toNat - 0x1C0) % 8 = j.toNat := by omega
    unfold Operand.ofCode
    rw [if_neg (by omega), if_neg (by omega), if_neg (by omega), if_neg (by omega), if_pos (by omega), e1, e2]; simp

theorem Operand.code_lt (o : Operand) : o.code < 2 ^ 9 := by
  cases o with
  | v r => have := r.isLt; simp only [Operand.code]; omega
  | s r => have := r.isLt; simp only [Operand.code]; omega
  | imm c => have := c.isLt; simp only [Operand.code]; omega
  | idx k j => have h1 := k.isLt; have h2 := j.isLt; simp only [Operand.code]; omega

theorem Rnd.ofCode_code (r : Rnd) : Rnd.ofCode r.code = some r := by cases r <;> rfl
theorem Rnd.code_lt (r : Rnd) : r.code < 2 ^ 3 := by cases r <;> decide
theorem Ord4.ofCode_code (r : Ord4) : Ord4.ofCode r.code = some r := by cases r <;> rfl
theorem Ord4.code_lt (r : Ord4) : r.code < 2 ^ 3 := by cases r <;> decide
theorem Scope.ofCode_code (r : Scope) : Scope.ofCode r.code = some r := by cases r <;> rfl
theorem Scope.code_lt (r : Scope) : r.code < 2 ^ 3 := by cases r <;> decide
theorem Vec.ofCode_code (r : Vec) : Vec.ofCode r.code = some r := by cases r <;> rfl
theorem Vec.code_lt (r : Vec) : r.code < 2 ^ 3 := by cases r <;> decide
theorem Ty.ofCode_code (t : Ty) : Ty.ofCode t.code = some t := by cases t <;> rfl
theorem Ty.code_lt (t : Ty) : t.code < 2 ^ 8 := by cases t <;> decide
theorem Ty.ofCode?_code? (t : Option Ty) : Ty.ofCode? (Ty.code? t) = some t := by
  cases t with
  | none => rfl
  | some t => cases t <;> rfl
theorem Ty.code?_lt (t : Option Ty) : Ty.code? t < 2 ^ 8 := by
  cases t with
  | none => decide
  | some t => exact Ty.code_lt t

theorem bit_lt (b : Bool) : bit b < 2 ^ 1 := by cases b <;> decide
theorem bit_one (b : Bool) : (bit b == 1) = b := by cases b <;> rfl

/-! ## The fields of each format, from bit 0 up -/

def widthsS : List Nat := [45, 4, 9, 9, 9, 5, 4, 1, 10]

def valuesS (op : Nat) (a : SArgs) : List Nat := [a.sfn.toNat, a.pd.toNat, a.b.code, a.a.code, a.d.code, 0,
   a.g.p.toNat, bit a.g.neg, op]

theorem packS_fields (op : Nat) (a : SArgs) : packS op a = BitVec.ofNat 96 (packF widthsS (valuesS op a)) := by
  refine congrArg (BitVec.ofNat 96) ?_
  have hb : bit false = 0 := rfl
  simp only [widthsS, valuesS, packF, hb]
  omega

theorem fits_S {op : Nat} (a : SArgs) (ho : op < 2 ^ 10) : fits widthsS (valuesS op a) :=
  ⟨a.sfn.isLt, a.pd.isLt, Operand.code_lt a.b, Operand.code_lt a.a, Operand.code_lt a.d, by decide, a.g.p.isLt,
   bit_lt a.g.neg, ho, trivial⟩

/-- Field i of a packed word. -/
theorem fld_packS {op : Nat} (a : SArgs) (ho : op < 2 ^ 10) (i : Nat) {lo n v : Nat}
    (hn : widthsS[i]? = some n) (hp : (widthsS.take i).sum = lo) (hv : (valuesS op a)[i]? = some v) :
    fld (packS op a) lo n = v :=
  fld_packF (packS_fields op a) (fits_S a ho) (by decide) i hn hp hv

theorem op_packS {op : Nat} (a : SArgs) (ho : op < 2 ^ 10) : fld (packS op a) 86 10 = op :=
  fld_packS a ho 8 rfl (by decide) rfl

/-- A word whose fields are those of `a` parses as `a`. -/
theorem parseS_of {w : Word96} {a : SArgs}
    (h0 : fld w 0 45 = a.sfn.toNat) (h1 : fld w 45 4 = a.pd.toNat) (h2 : fld w 49 9 = a.b.code) (h3 : fld w 58 9 =
    a.a.code) (h4 : fld w 67 9 = a.d.code) (h5 : fld w 76 5 = 0) (h6 : fld w 81 4 = a.g.p.toNat) (h7 : fld w 85 1 =
    bit a.g.neg) :
    parseS w = some a := by
  simp [parseS, parseGuard, flag, h0, h1, h2, h3, h4, h5, h6, h7, bit_one, Operand.ofCode_code]

/-- The fields of a packed S word are read back. -/
theorem parseS_packS {op : Nat} (a : SArgs) (ho : op < 2 ^ 10) : parseS (packS op a) = some a :=
  parseS_of
    (fld_packS a ho 0 rfl (by decide) rfl)
    (fld_packS a ho 1 rfl (by decide) rfl)
    (fld_packS a ho 2 rfl (by decide) rfl)
    (fld_packS a ho 3 rfl (by decide) rfl)
    (fld_packS a ho 4 rfl (by decide) rfl)
    (fld_packS a ho 5 rfl (by decide) rfl)
    (fld_packS a ho 6 rfl (by decide) rfl)
    (fld_packS a ho 7 rfl (by decide) rfl)

def widthsB : List Nat := [16, 32, 1, 9, 9, 9, 2, 1, 2, 4, 1, 10]

def valuesB (op : Nat) (a : BArgs) : List Nat := [0, a.disp.toNat, 0, 0xFF, a.a.code, a.d.code, 0, bit a.yield, 0,
   a.g.p.toNat, bit a.g.neg, op]

theorem packB_fields (op : Nat) (a : BArgs) : packB op a = BitVec.ofNat 96 (packF widthsB (valuesB op a)) := by
  refine congrArg (BitVec.ofNat 96) ?_
  simp only [widthsB, valuesB, packF]
  omega

theorem fits_B {op : Nat} (a : BArgs) (ho : op < 2 ^ 10) : fits widthsB (valuesB op a) :=
  ⟨by decide, a.disp.isLt, by decide, by decide, Operand.code_lt a.a, Operand.code_lt a.d, by decide, bit_lt
   a.yield, by decide, a.g.p.isLt, bit_lt a.g.neg, ho, trivial⟩

/-- Field i of a packed word. -/
theorem fld_packB {op : Nat} (a : BArgs) (ho : op < 2 ^ 10) (i : Nat) {lo n v : Nat}
    (hn : widthsB[i]? = some n) (hp : (widthsB.take i).sum = lo) (hv : (valuesB op a)[i]? = some v) :
    fld (packB op a) lo n = v :=
  fld_packF (packB_fields op a) (fits_B a ho) (by decide) i hn hp hv

theorem op_packB {op : Nat} (a : BArgs) (ho : op < 2 ^ 10) : fld (packB op a) 86 10 = op :=
  fld_packB a ho 11 rfl (by decide) rfl

/-- A word whose fields are those of `a` parses as `a`. -/
theorem parseB_of {w : Word96} {a : BArgs}
    (h0 : fld w 0 16 = 0) (h1 : fld w 16 32 = a.disp.toNat) (h2 : fld w 48 1 = 0) (h3 : fld w 49 9 = 0xFF) (h4 : fld
    w 58 9 = a.a.code) (h5 : fld w 67 9 = a.d.code) (h6 : fld w 76 2 = 0) (h7 : fld w 78 1 = bit a.yield) (h8 : fld
    w 79 2 = 0) (h9 : fld w 81 4 = a.g.p.toNat) (h10 : fld w 85 1 = bit a.g.neg) :
    parseB w = some a := by
  simp [parseB, parseGuard, flag, h0, h1, h2, h3, h4, h5, h6, h7, h8, h9, h10, bit_one, Operand.ofCode_code]

/-- The fields of a packed B word are read back. -/
theorem parseB_packB {op : Nat} (a : BArgs) (ho : op < 2 ^ 10) : parseB (packB op a) = some a :=
  parseB_of
    (fld_packB a ho 0 rfl (by decide) rfl)
    (fld_packB a ho 1 rfl (by decide) rfl)
    (fld_packB a ho 2 rfl (by decide) rfl)
    (fld_packB a ho 3 rfl (by decide) rfl)
    (fld_packB a ho 4 rfl (by decide) rfl)
    (fld_packB a ho 5 rfl (by decide) rfl)
    (fld_packB a ho 6 rfl (by decide) rfl)
    (fld_packB a ho 7 rfl (by decide) rfl)
    (fld_packB a ho 8 rfl (by decide) rfl)
    (fld_packB a ho 9 rfl (by decide) rfl)
    (fld_packB a ho 10 rfl (by decide) rfl)

def widthsI : List Nat := [32, 8, 3, 6, 9, 9, 9, 2, 1, 2, 4, 1, 10]

def valuesI (op fn3 : Nat) (a : IArgs) : List Nat := [a.imm.toNat, a.ty.code, fn3, 0, 0x1FF, 0xFF, a.d.code, 0, bit
   a.yield, 0, a.g.p.toNat, bit a.g.neg, op]

theorem packI_fields (op fn3 : Nat) (a : IArgs) : packI op fn3 a = BitVec.ofNat 96 (packF widthsI (valuesI op fn3 a)) := by
  refine congrArg (BitVec.ofNat 96) ?_
  simp only [widthsI, valuesI, packF]
  omega

theorem fits_I {op fn3 : Nat} (a : IArgs) (ho : op < 2 ^ 10) (hf : fn3 < 2 ^ 3) : fits widthsI (valuesI op fn3 a) :=
  ⟨a.imm.isLt, Ty.code_lt a.ty, hf, by decide, by decide, by decide, Operand.code_lt a.d, by decide, bit_lt a.yield,
   by decide, a.g.p.isLt, bit_lt a.g.neg, ho, trivial⟩

/-- Field i of a packed word. -/
theorem fld_packI {op fn3 : Nat} (a : IArgs) (ho : op < 2 ^ 10) (hf : fn3 < 2 ^ 3) (i : Nat) {lo n v : Nat}
    (hn : widthsI[i]? = some n) (hp : (widthsI.take i).sum = lo) (hv : (valuesI op fn3 a)[i]? = some v) :
    fld (packI op fn3 a) lo n = v :=
  fld_packF (packI_fields op fn3 a) (fits_I a ho hf) (by decide) i hn hp hv

theorem op_packI {op fn3 : Nat} (a : IArgs) (ho : op < 2 ^ 10) (hf : fn3 < 2 ^ 3) : fld (packI op fn3 a) 86 10 = op :=
  fld_packI a ho hf 12 rfl (by decide) rfl

/-- A word whose fields are those of `a` parses as `a`. -/
theorem parseI_of {w : Word96} {a : IArgs}
    (h0 : fld w 0 32 = a.imm.toNat) (h1 : fld w 32 8 = a.ty.code) (h3 : fld w 43 6 = 0) (h4 : fld w 49 9 = 0x1FF)
    (h5 : fld w 58 9 = 0xFF) (h6 : fld w 67 9 = a.d.code) (h7 : fld w 76 2 = 0) (h8 : fld w 78 1 = bit a.yield) (h9
    : fld w 79 2 = 0) (h10 : fld w 81 4 = a.g.p.toNat) (h11 : fld w 85 1 = bit a.g.neg) :
    parseI w = some a := by
  simp [parseI, parseGuard, flag, h0, h1, h3, h4, h5, h6, h7, h8, h9, h10, h11, bit_one, Operand.ofCode_code,
    Ty.ofCode_code]

/-- The fields of a packed I word are read back. -/
theorem parseI_packI {op fn3 : Nat} (a : IArgs) (ho : op < 2 ^ 10) (hf : fn3 < 2 ^ 3) : parseI (packI op fn3 a) = some a :=
  parseI_of
    (fld_packI a ho hf 0 rfl (by decide) rfl)
    (fld_packI a ho hf 1 rfl (by decide) rfl)
    (fld_packI a ho hf 3 rfl (by decide) rfl)
    (fld_packI a ho hf 4 rfl (by decide) rfl)
    (fld_packI a ho hf 5 rfl (by decide) rfl)
    (fld_packI a ho hf 6 rfl (by decide) rfl)
    (fld_packI a ho hf 7 rfl (by decide) rfl)
    (fld_packI a ho hf 8 rfl (by decide) rfl)
    (fld_packI a ho hf 9 rfl (by decide) rfl)
    (fld_packI a ho hf 10 rfl (by decide) rfl)
    (fld_packI a ho hf 11 rfl (by decide) rfl)

theorem fn3_packI {op fn3 : Nat} (a : IArgs) (ho : op < 2 ^ 10) (hf : fn3 < 2 ^ 3) : fld (packI op fn3 a) 40 3 = fn3 :=
  fld_packI a ho hf 2 rfl (by decide) rfl

def widthsM : List Nat := [24, 4, 8, 3, 3, 3, 4, 9, 9, 9, 2, 1, 2, 4, 1, 10]

def valuesM (op : Nat) (a : MArgs) : List Nat := [a.disp.toNat, a.mfn.toNat, a.ty.code, a.vec.code, a.scope.code,
   a.ord.code, a.br.toNat, a.b.code, a.a.code, a.d.code, 0, bit a.yield, a.cc.toNat, a.g.p.toNat, bit a.g.neg, op]

theorem packM_fields (op : Nat) (a : MArgs) : packM op a = BitVec.ofNat 96 (packF widthsM (valuesM op a)) := by
  refine congrArg (BitVec.ofNat 96) ?_
  simp only [widthsM, valuesM, packF]
  omega

theorem fits_M {op : Nat} (a : MArgs) (ho : op < 2 ^ 10) : fits widthsM (valuesM op a) :=
  ⟨a.disp.isLt, a.mfn.isLt, Ty.code_lt a.ty, Vec.code_lt a.vec, Scope.code_lt a.scope, Ord4.code_lt a.ord,
   a.br.isLt, Operand.code_lt a.b, Operand.code_lt a.a, Operand.code_lt a.d, by decide, bit_lt a.yield, a.cc.isLt,
   a.g.p.isLt, bit_lt a.g.neg, ho, trivial⟩

/-- Field i of a packed word. -/
theorem fld_packM {op : Nat} (a : MArgs) (ho : op < 2 ^ 10) (i : Nat) {lo n v : Nat}
    (hn : widthsM[i]? = some n) (hp : (widthsM.take i).sum = lo) (hv : (valuesM op a)[i]? = some v) :
    fld (packM op a) lo n = v :=
  fld_packF (packM_fields op a) (fits_M a ho) (by decide) i hn hp hv

theorem op_packM {op : Nat} (a : MArgs) (ho : op < 2 ^ 10) : fld (packM op a) 86 10 = op :=
  fld_packM a ho 15 rfl (by decide) rfl

/-- A word whose fields are those of `a` parses as `a`. -/
theorem parseM_of {w : Word96} {a : MArgs}
    (h0 : fld w 0 24 = a.disp.toNat) (h1 : fld w 24 4 = a.mfn.toNat) (h2 : fld w 28 8 = a.ty.code) (h3 : fld w 36 3
    = a.vec.code) (h4 : fld w 39 3 = a.scope.code) (h5 : fld w 42 3 = a.ord.code) (h6 : fld w 45 4 = a.br.toNat) (h7
    : fld w 49 9 = a.b.code) (h8 : fld w 58 9 = a.a.code) (h9 : fld w 67 9 = a.d.code) (h10 : fld w 76 2 = 0) (h11 :
    fld w 78 1 = bit a.yield) (h12 : fld w 79 2 = a.cc.toNat) (h13 : fld w 81 4 = a.g.p.toNat) (h14 : fld w 85 1 =
    bit a.g.neg) :
    parseM w = some a := by
  simp [parseM, parseGuard, flag, h0, h1, h2, h3, h4, h5, h6, h7, h8, h9, h10, h11, h12, h13, h14, bit_one,
    Operand.ofCode_code, Ty.ofCode_code, Ord4.ofCode_code, Scope.ofCode_code, Vec.ofCode_code]

/-- The fields of a packed M word are read back. -/
theorem parseM_packM {op : Nat} (a : MArgs) (ho : op < 2 ^ 10) : parseM (packM op a) = some a :=
  parseM_of
    (fld_packM a ho 0 rfl (by decide) rfl)
    (fld_packM a ho 1 rfl (by decide) rfl)
    (fld_packM a ho 2 rfl (by decide) rfl)
    (fld_packM a ho 3 rfl (by decide) rfl)
    (fld_packM a ho 4 rfl (by decide) rfl)
    (fld_packM a ho 5 rfl (by decide) rfl)
    (fld_packM a ho 6 rfl (by decide) rfl)
    (fld_packM a ho 7 rfl (by decide) rfl)
    (fld_packM a ho 8 rfl (by decide) rfl)
    (fld_packM a ho 9 rfl (by decide) rfl)
    (fld_packM a ho 10 rfl (by decide) rfl)
    (fld_packM a ho 11 rfl (by decide) rfl)
    (fld_packM a ho 12 rfl (by decide) rfl)
    (fld_packM a ho 13 rfl (by decide) rfl)
    (fld_packM a ho 14 rfl (by decide) rfl)

def widthsT : List Nat := [18, 1, 4, 1, 3, 8, 2, 6, 6, 9, 9, 9, 2, 1, 2, 4, 1, 10]

def valuesT (op : Nat) (a : TArgs) : List Nat := [a.tfn.toNat, bit a.ftzo, a.br.toNat, bit a.sat, a.rnd.code,
   Ty.code? a.ty, a.acc.toNat, a.tb.toNat, a.ta.toNat, a.b.code, a.a.code, a.d.code, 0, bit a.yield, a.cc.toNat,
   a.g.p.toNat, bit a.g.neg, op]

theorem packT_fields (op : Nat) (a : TArgs) : packT op a = BitVec.ofNat 96 (packF widthsT (valuesT op a)) := by
  refine congrArg (BitVec.ofNat 96) ?_
  simp only [widthsT, valuesT, packF]
  omega

theorem fits_T {op : Nat} (a : TArgs) (ho : op < 2 ^ 10) : fits widthsT (valuesT op a) :=
  ⟨a.tfn.isLt, bit_lt a.ftzo, a.br.isLt, bit_lt a.sat, Rnd.code_lt a.rnd, Ty.code?_lt a.ty, a.acc.isLt, a.tb.isLt,
   a.ta.isLt, Operand.code_lt a.b, Operand.code_lt a.a, Operand.code_lt a.d, by decide, bit_lt a.yield, a.cc.isLt,
   a.g.p.isLt, bit_lt a.g.neg, ho, trivial⟩

/-- Field i of a packed word. -/
theorem fld_packT {op : Nat} (a : TArgs) (ho : op < 2 ^ 10) (i : Nat) {lo n v : Nat}
    (hn : widthsT[i]? = some n) (hp : (widthsT.take i).sum = lo) (hv : (valuesT op a)[i]? = some v) :
    fld (packT op a) lo n = v :=
  fld_packF (packT_fields op a) (fits_T a ho) (by decide) i hn hp hv

theorem op_packT {op : Nat} (a : TArgs) (ho : op < 2 ^ 10) : fld (packT op a) 86 10 = op :=
  fld_packT a ho 17 rfl (by decide) rfl

/-- A word whose fields are those of `a` parses as `a`. -/
theorem parseT_of {w : Word96} {a : TArgs}
    (h0 : fld w 0 18 = a.tfn.toNat) (h1 : fld w 18 1 = bit a.ftzo) (h2 : fld w 19 4 = a.br.toNat) (h3 : fld w 23 1 =
    bit a.sat) (h4 : fld w 24 3 = a.rnd.code) (h5 : fld w 27 8 = Ty.code? a.ty) (h6 : fld w 35 2 = a.acc.toNat) (h7
    : fld w 37 6 = a.tb.toNat) (h8 : fld w 43 6 = a.ta.toNat) (h9 : fld w 49 9 = a.b.code) (h10 : fld w 58 9 =
    a.a.code) (h11 : fld w 67 9 = a.d.code) (h12 : fld w 76 2 = 0) (h13 : fld w 78 1 = bit a.yield) (h14 : fld w 79
    2 = a.cc.toNat) (h15 : fld w 81 4 = a.g.p.toNat) (h16 : fld w 85 1 = bit a.g.neg) :
    parseT w = some a := by
  simp [parseT, parseGuard, flag, h0, h1, h2, h3, h4, h5, h6, h7, h8, h9, h10, h11, h12, h13, h14, h15, h16,
    bit_one, Operand.ofCode_code, Ty.ofCode?_code?, Rnd.ofCode_code]

/-- The fields of a packed T word are read back. -/
theorem parseT_packT {op : Nat} (a : TArgs) (ho : op < 2 ^ 10) : parseT (packT op a) = some a :=
  parseT_of
    (fld_packT a ho 0 rfl (by decide) rfl)
    (fld_packT a ho 1 rfl (by decide) rfl)
    (fld_packT a ho 2 rfl (by decide) rfl)
    (fld_packT a ho 3 rfl (by decide) rfl)
    (fld_packT a ho 4 rfl (by decide) rfl)
    (fld_packT a ho 5 rfl (by decide) rfl)
    (fld_packT a ho 6 rfl (by decide) rfl)
    (fld_packT a ho 7 rfl (by decide) rfl)
    (fld_packT a ho 8 rfl (by decide) rfl)
    (fld_packT a ho 9 rfl (by decide) rfl)
    (fld_packT a ho 10 rfl (by decide) rfl)
    (fld_packT a ho 11 rfl (by decide) rfl)
    (fld_packT a ho 12 rfl (by decide) rfl)
    (fld_packT a ho 13 rfl (by decide) rfl)
    (fld_packT a ho 14 rfl (by decide) rfl)
    (fld_packT a ho 15 rfl (by decide) rfl)
    (fld_packT a ho 16 rfl (by decide) rfl)

def widthsR : List Nat := [20, 1, 1, 1, 1, 1, 1, 1, 1, 1, 3, 8, 9, 9, 9, 9, 2, 1, 2, 4, 1, 10]

def valuesR (op : Nat) (a : RArgs) : List Nat := [a.fn.toNat, bit a.ac, bit a.nc, bit a.ab, bit a.nb, bit a.aa, bit
   a.na, bit a.sat, bit a.ftzo, bit a.ftzi, a.rnd.code, a.ty.code, a.c.code, a.b.code, a.a.code, a.d.code, 0, bit
   a.yield, 0, a.g.p.toNat, bit a.g.neg, op]

theorem packR_fields (op : Nat) (a : RArgs) : packR op a = BitVec.ofNat 96 (packF widthsR (valuesR op a)) := by
  refine congrArg (BitVec.ofNat 96) ?_
  simp only [widthsR, valuesR, packF]
  omega

theorem fits_R {op : Nat} (a : RArgs) (ho : op < 2 ^ 10) : fits widthsR (valuesR op a) :=
  ⟨a.fn.isLt, bit_lt a.ac, bit_lt a.nc, bit_lt a.ab, bit_lt a.nb, bit_lt a.aa, bit_lt a.na, bit_lt a.sat, bit_lt
   a.ftzo, bit_lt a.ftzi, Rnd.code_lt a.rnd, Ty.code_lt a.ty, Operand.code_lt a.c, Operand.code_lt a.b,
   Operand.code_lt a.a, Operand.code_lt a.d, by decide, bit_lt a.yield, by decide, a.g.p.isLt, bit_lt a.g.neg, ho,
   trivial⟩

/-- Field i of a packed word. -/
theorem fld_packR {op : Nat} (a : RArgs) (ho : op < 2 ^ 10) (i : Nat) {lo n v : Nat}
    (hn : widthsR[i]? = some n) (hp : (widthsR.take i).sum = lo) (hv : (valuesR op a)[i]? = some v) :
    fld (packR op a) lo n = v :=
  fld_packF (packR_fields op a) (fits_R a ho) (by decide) i hn hp hv

theorem op_packR {op : Nat} (a : RArgs) (ho : op < 2 ^ 10) : fld (packR op a) 86 10 = op :=
  fld_packR a ho 21 rfl (by decide) rfl

/-- A word whose fields are those of `a` parses as `a`. -/
theorem parseR_of {w : Word96} {a : RArgs}
    (h0 : fld w 0 20 = a.fn.toNat) (h1 : fld w 20 1 = bit a.ac) (h2 : fld w 21 1 = bit a.nc) (h3 : fld w 22 1 = bit
    a.ab) (h4 : fld w 23 1 = bit a.nb) (h5 : fld w 24 1 = bit a.aa) (h6 : fld w 25 1 = bit a.na) (h7 : fld w 26 1 =
    bit a.sat) (h8 : fld w 27 1 = bit a.ftzo) (h9 : fld w 28 1 = bit a.ftzi) (h10 : fld w 29 3 = a.rnd.code) (h11 :
    fld w 32 8 = a.ty.code) (h12 : fld w 40 9 = a.c.code) (h13 : fld w 49 9 = a.b.code) (h14 : fld w 58 9 =
    a.a.code) (h15 : fld w 67 9 = a.d.code) (h16 : fld w 76 2 = 0) (h17 : fld w 78 1 = bit a.yield) (h18 : fld w 79
    2 = 0) (h19 : fld w 81 4 = a.g.p.toNat) (h20 : fld w 85 1 = bit a.g.neg) :
    parseR w = some a := by
  simp [parseR, parseGuard, flag, h0, h1, h2, h3, h4, h5, h6, h7, h8, h9, h10, h11, h12, h13, h14, h15, h16, h17,
    h18, h19, h20, bit_one, Operand.ofCode_code, Ty.ofCode_code, Rnd.ofCode_code]

/-- The fields of a packed R word are read back. -/
theorem parseR_packR {op : Nat} (a : RArgs) (ho : op < 2 ^ 10) : parseR (packR op a) = some a :=
  parseR_of
    (fld_packR a ho 0 rfl (by decide) rfl)
    (fld_packR a ho 1 rfl (by decide) rfl)
    (fld_packR a ho 2 rfl (by decide) rfl)
    (fld_packR a ho 3 rfl (by decide) rfl)
    (fld_packR a ho 4 rfl (by decide) rfl)
    (fld_packR a ho 5 rfl (by decide) rfl)
    (fld_packR a ho 6 rfl (by decide) rfl)
    (fld_packR a ho 7 rfl (by decide) rfl)
    (fld_packR a ho 8 rfl (by decide) rfl)
    (fld_packR a ho 9 rfl (by decide) rfl)
    (fld_packR a ho 10 rfl (by decide) rfl)
    (fld_packR a ho 11 rfl (by decide) rfl)
    (fld_packR a ho 12 rfl (by decide) rfl)
    (fld_packR a ho 13 rfl (by decide) rfl)
    (fld_packR a ho 14 rfl (by decide) rfl)
    (fld_packR a ho 15 rfl (by decide) rfl)
    (fld_packR a ho 16 rfl (by decide) rfl)
    (fld_packR a ho 17 rfl (by decide) rfl)
    (fld_packR a ho 18 rfl (by decide) rfl)
    (fld_packR a ho 19 rfl (by decide) rfl)
    (fld_packR a ho 20 rfl (by decide) rfl)

end Sys2Proof
end

