-- ==== Sys2Proof/Laws/Tbl.lean ====
section
/-! SUPPORT. Laws of tables: a read after a write, and the canonical form that every write keeps. -/
namespace Sys2Proof.Machine

variable {β : Type} [DecidableEq β]

omit [DecidableEq β] in
theorem tget_tdel_self (d : β) (t : List (Nat × β)) (k : Nat) : tget d (tdel t k) k = d := by
  induction t with
  | nil => rfl
  | cons x t ih =>
    obtain ⟨k', v⟩ := x
    by_cases h : k = k'
    · simpa [tdel, h] using h ▸ ih
    · simp [tdel, tget, h, ih]

omit [DecidableEq β] in
theorem tget_tdel_ne (d : β) (t : List (Nat × β)) {k j : Nat} (h : j ≠ k) : tget d (tdel t k) j = tget d t j := by
  induction t with
  | nil => rfl
  | cons x t ih =>
    obtain ⟨k', v⟩ := x
    by_cases hk : k = k'
    · subst hk; simp [tdel, tget, h, ih]
    · simp [tdel, tget, hk, ih]

omit [DecidableEq β] in
theorem tget_tins_self (d : β) (t : List (Nat × β)) (k : Nat) (v : β) : tget d (tins (tdel t k) k v) k = v := by
  induction t with
  | nil => simp [tdel, tins, tget]
  | cons x t ih =>
    obtain ⟨k', w⟩ := x
    by_cases hk : k = k'
    · simpa [tdel, hk] using hk ▸ ih
    · by_cases hlt : k < k'
      · simp [tdel, tins, tget, hk, hlt]
      · simp [tdel, tins, tget, hk, hlt, ih]

omit [DecidableEq β] in
theorem tget_tins_ne (d : β) (t : List (Nat × β)) {k j : Nat} (v : β) (h : j ≠ k) :
    tget d (tins t k v) j = tget d t j := by
  induction t with
  | nil => simp [tins, tget, h]
  | cons x t ih =>
    obtain ⟨k', w⟩ := x
    by_cases hlt : k < k'
    · simp [tins, tget, hlt, h]
    · simp [tins, tget, hlt, ih]

/-- A write is read back. -/
@[simp] theorem tget_tset_self (d : β) (t : List (Nat × β)) (k : Nat) (v : β) : tget d (tset d t k v) k = v := by
  by_cases h : v = d
  · simp [tset, h, tget_tdel_self]
  · simp [tset, h, tget_tins_self]

/-- A write leaves every other key. -/
@[simp] theorem tget_tset_ne (d : β) (t : List (Nat × β)) {k j : Nat} (v : β) (h : j ≠ k) :
    tget d (tset d t k v) j = tget d t j := by
  by_cases hv : v = d
  · simp [tset, hv, tget_tdel_ne d t h]
  · simp [tset, hv, tget_tins_ne d _ v h, tget_tdel_ne d t h]

theorem tget_tset (d : β) (t : List (Nat × β)) (k j : Nat) (v : β) :
    tget d (tset d t k v) j = if j = k then v else tget d t j := by
  by_cases h : j = k
  · subst h; simp
  · simp [h]

/-! ## A run of writes -/

omit [DecidableEq β] in
theorem tget_append_right (d : β) (a b : List (Nat × β)) (j : Nat) (h : ∀ x ∈ a, x.1 ≠ j) :
    tget d (a ++ b) j = tget d b j := by
  induction a with
  | nil => rfl
  | cons x a ih =>
    have h0 := h x (by simp)
    simp [tget, Ne.symm h0, ih (fun y hy => h y (by simp [hy]))]

omit [DecidableEq β] in
theorem tget_append_left (d : β) (a b : List (Nat × β)) (j : Nat) (h : ∀ x ∈ b, x.1 ≠ j) :
    tget d (a ++ b) j = tget d a j := by
  induction a with
  | nil => simpa [tget] using tget_append_right d b [] j h
  | cons x a ih => simp [tget, ih]

omit [DecidableEq β] in
theorem tget_filter_key (d : β) (p : Nat → Bool) (t : List (Nat × β)) (j : Nat) (h : p j = true) :
    tget d (t.filter (fun x => p x.1)) j = tget d t j := by
  induction t with
  | nil => rfl
  | cons x t ih =>
    obtain ⟨k, v⟩ := x
    by_cases hp : p k = true
    · simp [List.filter, hp, tget, ih]
    · have : j ≠ k := fun e => hp (e ▸ h)
      simp [List.filter, hp, tget, ih, this]

theorem mem_trun (d : β) (vs : List β) (k : Nat) (x : Nat × β) (h : x ∈ trun d k vs) :
    k ≤ x.1 ∧ x.1 < k + vs.length ∧ x.2 ≠ d := by
  induction vs generalizing k with
  | nil => simp [trun] at h
  | cons v vs ih =>
    by_cases hv : v = d
    · have := ih (k + 1) (by simpa [trun, hv] using h)
      simp only [List.length_cons]; exact ⟨by omega, by omega, this.2.2⟩
    · simp only [trun, hv, if_false, List.mem_cons] at h
      obtain rfl | h := h
      · simpa using hv
      · have := ih (k + 1) h
        simp only [List.length_cons]; exact ⟨by omega, by omega, this.2.2⟩

theorem tget_trun (d : β) (vs : List β) (k i : Nat) (h : i < vs.length) : tget d (trun d k vs) (k + i) = vs[i] := by
  induction vs generalizing k i with
  | nil => simp at h
  | cons v vs ih =>
    cases i with
    | zero =>
      by_cases hv : v = d
      · have h1 := tget_append_right d (trun d (k + 1) vs) [] k (fun x hx => by have := mem_trun d vs (k + 1) x hx; omega)
        simpa [trun, hv, tget] using h1
      · simp [trun, hv, tget]
    | succ i =>
      have := ih (k + 1) i (by simpa using h)
      by_cases hv : v = d
      · simpa [trun, hv, Nat.add_assoc, Nat.add_comm 1 i] using this
      · simpa [trun, hv, tget, Nat.add_assoc, Nat.add_comm 1 i] using this

omit [DecidableEq β] in
theorem mem_tfrom (t : List (Nat × β)) (k : Nat) (x : Nat × β) (h : x ∈ tfrom t k) : k ≤ x.1 := by
  simpa using (List.mem_filter.mp h).2

/-- A key outside the run keeps its value. -/
theorem tget_tputs_out (d : β) (t : List (Nat × β)) (vs : List β) (k j : Nat) (h : j < k ∨ k + vs.length ≤ j) :
    tget d (tputs d t k vs) j = tget d t j := by
  have hr : ∀ x ∈ trun d k vs, x.1 ≠ j := fun x hx => by have := mem_trun d vs k x hx; omega
  obtain h | h := h
  · rw [tputs, tget_append_left, tget_filter_key d (fun a => decide (a < k)) t j (by simpa using h)]
    intro x hx
    obtain hx | hx := List.mem_append.mp hx
    · exact hr x hx
    · have := mem_tfrom t _ x hx
      omega
  · rw [tputs, tget_append_right, tget_append_right _ _ _ _ hr,
      tfrom, tget_filter_key d (fun a => decide (k + vs.length ≤ a)) t j (by simpa using h)]
    intro x hx
    have := (List.mem_filter.mp hx).2
    simp only [decide_eq_true_eq] at this; omega

/-- A key of the run holds the value written. -/
theorem tget_tputs_in (d : β) (t : List (Nat × β)) (vs : List β) (k i : Nat) (h : i < vs.length) :
    tget d (tputs d t k vs) (k + i) = vs[i] := by
  rw [tputs, tget_append_right, tget_append_left, tget_trun d vs k i h]
  · intro x hx
    have := mem_tfrom t _ x hx
    omega
  · intro x hx
    have := (List.mem_filter.mp hx).2
    simp only [decide_eq_true_eq] at this; omega

/-! ## The canonical form -/

omit [DecidableEq β] in
/-- A key below the bound of a table. -/
theorem above_of_lt {k j : Nat} (hk : k < j) (t : List (Nat × β)) (h : above j t = true) : above k t = true := by
  cases t with
  | nil => rfl
  | cons x t => simp only [above, decide_eq_true_eq] at h ⊢; omega

theorem above_tdel (d : β) {k : Nat} (j : Nat) (t : List (Nat × β)) (h : above k t = true) (hw : twf d t = true) :
    above k (tdel t j) = true := by
  induction t with
  | nil => rfl
  | cons x t ih =>
    obtain ⟨k', v⟩ := x
    simp only [twf, Bool.and_eq_true] at hw
    simp only [above, decide_eq_true_eq] at h
    by_cases hj : j = k'
    · simp only [tdel, hj, if_true]
      exact hj ▸ ih (above_of_lt h t hw.1.2) hw.2
    · simp [tdel, hj, above, h]

theorem twf_tdel (d : β) (t : List (Nat × β)) (k : Nat) (h : twf d t = true) : twf d (tdel t k) = true := by
  induction t with
  | nil => rfl
  | cons x t ih =>
    obtain ⟨k', v⟩ := x
    simp only [twf, Bool.and_eq_true] at h
    by_cases hk : k = k'
    · simpa [tdel, hk] using hk ▸ ih h.2
    · simp [tdel, hk, twf, h.1.1, above_tdel d k t h.1.2 h.2, ih h.2]

omit [DecidableEq β] in
theorem above_tins {j k : Nat} (t : List (Nat × β)) (v : β) (hj : j < k) (h : above j t = true) :
    above j (tins t k v) = true := by
  cases t with
  | nil => simpa [tins, above] using hj
  | cons x t =>
    obtain ⟨k', w⟩ := x
    by_cases hlt : k < k'
    · simpa [tins, hlt, above] using hj
    · simpa [tins, hlt, above] using h

theorem twf_tins (d : β) (t : List (Nat × β)) (k : Nat) (v : β) (hv : v ≠ d) (h : twf d t = true) :
    twf d (tins (tdel t k) k v) = true := by
  induction t with
  | nil => simp [tdel, tins, twf, above, hv]
  | cons x t ih =>
    obtain ⟨k', w⟩ := x
    have hw := h
    simp only [twf, Bool.and_eq_true] at h
    by_cases hk : k = k'
    · simpa [tdel, hk] using hk ▸ ih h.2
    · by_cases hlt : k < k'
      · have h0 : above k ((k', w) :: tdel t k) = true := by simpa [above] using hlt
        have h1 := above_tdel d k t h.1.2 h.2
        simp [tdel, hk, tins, hlt, twf, hv, h0, h.1.1, h1, twf_tdel d t k h.2]
      · have : k' < k := by omega
        simp [tdel, hk, tins, hlt, twf, h.1.1, ih h.2, above_tins _ v this (above_tdel d k t h.1.2 h.2)]

/-- Every write keeps the canonical form. -/
theorem twf_tset (d : β) (t : List (Nat × β)) (k : Nat) (v : β) (h : twf d t = true) : twf d (tset d t k v) = true := by
  by_cases hv : v = d
  · simp [tset, hv, twf_tdel d t k h]
  · simp [tset, hv, twf_tins d t k v hv h]

/-- A list of writes keeps it. -/
theorem twf_tsets (d : β) (kvs t : List (Nat × β)) (h : twf d t = true) : twf d (tsets d t kvs) = true := by
  induction kvs generalizing t with
  | nil => exact h
  | cons x kvs ih => exact ih _ (twf_tset d t x.1 x.2 h)

theorem above_filter (d : β) (p : Nat × β → Bool) {k : Nat} (t : List (Nat × β)) (h : above k t = true)
    (hw : twf d t = true) : above k (t.filter p) = true := by
  induction t with
  | nil => rfl
  | cons x t ih =>
    obtain ⟨k', v⟩ := x
    simp only [twf, Bool.and_eq_true] at hw
    simp only [above, decide_eq_true_eq] at h
    by_cases hp : p (k', v) = true
    · simp [List.filter, hp, above, h]
    · simp only [List.filter, hp]
      exact ih (above_of_lt h t hw.1.2) hw.2

/-- Removing entries keeps it. -/
theorem twf_filter (d : β) (p : Nat × β → Bool) (t : List (Nat × β)) (h : twf d t = true) :
    twf d (t.filter p) = true := by
  induction t with
  | nil => rfl
  | cons x t ih =>
    obtain ⟨k', v⟩ := x
    simp only [twf, Bool.and_eq_true] at h
    by_cases hp : p (k', v) = true
    · simp [List.filter, hp, twf, h.1.1, above_filter d p t h.1.2 h.2, ih h.2]
    · simp only [List.filter, hp]
      exact ih h.2

omit [DecidableEq β] in
theorem above_append {k : Nat} (a b : List (Nat × β)) (ha : above k a = true) (hb : above k b = true) :
    above k (a ++ b) = true := by
  cases a with
  | nil => exact hb
  | cons x a => exact ha

omit [DecidableEq β] in
theorem above_of_mem {k : Nat} (t : List (Nat × β)) (h : ∀ x ∈ t, k < x.1) : above k t = true := by
  cases t with
  | nil => rfl
  | cons x t => simpa [above] using h x (by simp)

/-- Two tables with the keys of one below those of the other. -/
theorem twf_append (d : β) (m : Nat) (a b : List (Nat × β)) (ha : twf d a = true) (hb : twf d b = true)
    (hl : ∀ x ∈ a, x.1 < m) (hg : ∀ x ∈ b, m ≤ x.1) : twf d (a ++ b) = true := by
  induction a with
  | nil => exact hb
  | cons x a ih =>
    obtain ⟨k, v⟩ := x
    simp only [twf, Bool.and_eq_true] at ha
    have hk := hl (k, v) (by simp)
    have hab : above k (a ++ b) = true :=
      above_append a b ha.1.2 (above_of_mem b (fun x hx => by have := hg x hx; simp only at hk; omega))
    simp [twf, ha.1.1, hab, ih ha.2 (fun x hx => hl x (by simp [hx]))]

theorem twf_trun (d : β) (vs : List β) (k : Nat) : twf d (trun d k vs) = true := by
  induction vs generalizing k with
  | nil => rfl
  | cons v vs ih =>
    by_cases hv : v = d
    · simpa [trun, hv] using ih (k + 1)
    · have : above k (trun d (k + 1) vs) = true :=
        above_of_mem _ (fun x hx => by have := mem_trun d vs (k + 1) x hx; omega)
      simp [trun, hv, twf, this, ih (k + 1)]

/-- A run of writes keeps it. -/
theorem twf_tputs (d : β) (t : List (Nat × β)) (vs : List β) (k : Nat) (h : twf d t = true) :
    twf d (tputs d t k vs) = true := by
  have hu : ∀ x ∈ tfrom t (k + vs.length), k + vs.length ≤ x.1 := mem_tfrom t _
  refine twf_append d k _ _ (twf_filter d _ t h)
    (twf_append d (k + vs.length) _ _ (twf_trun d vs k) (twf_filter d _ t h) (fun x hx => (mem_trun d vs k x hx).2.1) hu)
    (fun x hx => by simpa using (List.mem_filter.mp hx).2) (fun x hx => ?_)
  obtain hx | hx := List.mem_append.mp hx
  · exact (mem_trun d vs k x hx).1
  · have := hu x hx; omega

/-- A key below every listed one reads as the default. -/
theorem tget_above (d : β) {k : Nat} (t : List (Nat × β)) (h : above k t = true) (hw : twf d t = true) : tget d t k = d := by
  induction t with
  | nil => rfl
  | cons x t ih =>
    obtain ⟨k', v⟩ := x
    simp only [twf, Bool.and_eq_true] at hw
    simp only [above, decide_eq_true_eq] at h
    have : k ≠ k' := by omega
    simp [tget, this, ih (above_of_lt h t hw.1.2) hw.2]

end Sys2Proof.Machine
end

