-- ==== Sys2Proof/Laws/State.lean ====
section
/-! SUPPORT. One lemma per field of the state per named update, and what each table's accessor reads after a write. -/
namespace Sys2Proof.Machine
namespace State

/-! ## setTeam -/

@[simp] theorem setTeam_thr (s : State) (a : Nat) (t : Team) : (s.setTeam a t).thr = s.thr := rfl
@[simp] theorem setTeam_crews (s : State) (a : Nat) (t : Team) : (s.setTeam a t).crews = s.crews := rfl
@[simp] theorem setTeam_nextCrew (s : State) (a : Nat) (t : Team) : (s.setTeam a t).nextCrew = s.nextCrew := rfl
@[simp] theorem setTeam_squads (s : State) (a : Nat) (t : Team) : (s.setTeam a t).squads = s.squads := rfl
@[simp] theorem setTeam_fixtures (s : State) (a : Nat) (t : Team) : (s.setTeam a t).fixtures = s.fixtures := rfl
@[simp] theorem setTeam_nextFx (s : State) (a : Nat) (t : Team) : (s.setTeam a t).nextFx = s.nextFx := rfl
@[simp] theorem setTeam_parts (s : State) (a : Nat) (t : Team) : (s.setTeam a t).parts = s.parts := rfl
@[simp] theorem setTeam_encl (s : State) (a : Nat) (t : Team) : (s.setTeam a t).encl = s.encl := rfl
@[simp] theorem setTeam_posts (s : State) (a : Nat) (t : Team) : (s.setTeam a t).posts = s.posts := rfl
@[simp] theorem setTeam_nextToken (s : State) (a : Nat) (t : Team) : (s.setTeam a t).nextToken = s.nextToken := rfl
@[simp] theorem setTeam_mem (s : State) (a : Nat) (t : Team) : (s.setTeam a t).mem = s.mem := rfl
@[simp] theorem setTeam_caches (s : State) (a : Nat) (t : Team) : (s.setTeam a t).caches = s.caches := rfl
@[simp] theorem setTeam_eng (s : State) (a : Nat) (t : Team) : (s.setTeam a t).eng = s.eng := rfl
@[simp] theorem setTeam_links (s : State) (a : Nat) (t : Team) : (s.setTeam a t).links = s.links := rfl
@[simp] theorem setTeam_fw (s : State) (a : Nat) (t : Team) : (s.setTeam a t).fw = s.fw := rfl
@[simp] theorem setTeam_clk (s : State) (a : Nat) (t : Team) : (s.setTeam a t).clk = s.clk := rfl
@[simp] theorem setTeam_board (s : State) (a : Nat) (t : Team) : (s.setTeam a t).board = s.board := rfl
@[simp] theorem setTeam_hold (s : State) (a : Nat) (t : Team) : (s.setTeam a t).hold = s.hold := rfl
@[simp] theorem setTeam_health (s : State) (a : Nat) (t : Team) : (s.setTeam a t).health = s.health := rfl
@[simp] theorem setTeam_spdm (s : State) (a : Nat) (t : Team) : (s.setTeam a t).spdm = s.spdm := rfl
@[simp] theorem setTeam_pass (s : State) (a : Nat) (t : Team) : (s.setTeam a t).pass = s.pass := rfl
@[simp] theorem setTeam_nextWait (s : State) (a : Nat) (t : Team) : (s.setTeam a t).nextWait = s.nextWait := rfl
@[simp] theorem setTeam_sched (s : State) (a : Nat) (t : Team) : (s.setTeam a t).sched = s.sched := rfl
@[simp] theorem setTeam_agenda (s : State) (a : Nat) (t : Team) : (s.setTeam a t).agenda = s.agenda := rfl
@[simp] theorem setTeam_cur (s : State) (a : Nat) (t : Team) : (s.setTeam a t).cur = s.cur := rfl
@[simp] theorem setTeam_free (s : State) (a : Nat) (t : Team) : (s.setTeam a t).free = s.free := rfl

/-! ## setThread -/

@[simp] theorem setThread_teams (s : State) (a : Nat) (t : Thread) : (s.setThread a t).teams = s.teams := rfl
@[simp] theorem setThread_crews (s : State) (a : Nat) (t : Thread) : (s.setThread a t).crews = s.crews := rfl
@[simp] theorem setThread_nextCrew (s : State) (a : Nat) (t : Thread) : (s.setThread a t).nextCrew = s.nextCrew := rfl
@[simp] theorem setThread_squads (s : State) (a : Nat) (t : Thread) : (s.setThread a t).squads = s.squads := rfl
@[simp] theorem setThread_fixtures (s : State) (a : Nat) (t : Thread) : (s.setThread a t).fixtures = s.fixtures := rfl
@[simp] theorem setThread_nextFx (s : State) (a : Nat) (t : Thread) : (s.setThread a t).nextFx = s.nextFx := rfl
@[simp] theorem setThread_parts (s : State) (a : Nat) (t : Thread) : (s.setThread a t).parts = s.parts := rfl
@[simp] theorem setThread_encl (s : State) (a : Nat) (t : Thread) : (s.setThread a t).encl = s.encl := rfl
@[simp] theorem setThread_posts (s : State) (a : Nat) (t : Thread) : (s.setThread a t).posts = s.posts := rfl
@[simp] theorem setThread_nextToken (s : State) (a : Nat) (t : Thread) : (s.setThread a t).nextToken = s.nextToken := rfl
@[simp] theorem setThread_mem (s : State) (a : Nat) (t : Thread) : (s.setThread a t).mem = s.mem := rfl
@[simp] theorem setThread_caches (s : State) (a : Nat) (t : Thread) : (s.setThread a t).caches = s.caches := rfl
@[simp] theorem setThread_eng (s : State) (a : Nat) (t : Thread) : (s.setThread a t).eng = s.eng := rfl
@[simp] theorem setThread_links (s : State) (a : Nat) (t : Thread) : (s.setThread a t).links = s.links := rfl
@[simp] theorem setThread_fw (s : State) (a : Nat) (t : Thread) : (s.setThread a t).fw = s.fw := rfl
@[simp] theorem setThread_clk (s : State) (a : Nat) (t : Thread) : (s.setThread a t).clk = s.clk := rfl
@[simp] theorem setThread_board (s : State) (a : Nat) (t : Thread) : (s.setThread a t).board = s.board := rfl
@[simp] theorem setThread_hold (s : State) (a : Nat) (t : Thread) : (s.setThread a t).hold = s.hold := rfl
@[simp] theorem setThread_health (s : State) (a : Nat) (t : Thread) : (s.setThread a t).health = s.health := rfl
@[simp] theorem setThread_spdm (s : State) (a : Nat) (t : Thread) : (s.setThread a t).spdm = s.spdm := rfl
@[simp] theorem setThread_pass (s : State) (a : Nat) (t : Thread) : (s.setThread a t).pass = s.pass := rfl
@[simp] theorem setThread_nextWait (s : State) (a : Nat) (t : Thread) : (s.setThread a t).nextWait = s.nextWait := rfl
@[simp] theorem setThread_sched (s : State) (a : Nat) (t : Thread) : (s.setThread a t).sched = s.sched := rfl
@[simp] theorem setThread_agenda (s : State) (a : Nat) (t : Thread) : (s.setThread a t).agenda = s.agenda := rfl
@[simp] theorem setThread_cur (s : State) (a : Nat) (t : Thread) : (s.setThread a t).cur = s.cur := rfl
@[simp] theorem setThread_free (s : State) (a : Nat) (t : Thread) : (s.setThread a t).free = s.free := rfl

/-! ## setCrew -/

@[simp] theorem setCrew_teams (s : State) (n : Nat) (c : Crew) : (s.setCrew n c).teams = s.teams := rfl
@[simp] theorem setCrew_thr (s : State) (n : Nat) (c : Crew) : (s.setCrew n c).thr = s.thr := rfl
@[simp] theorem setCrew_nextCrew (s : State) (n : Nat) (c : Crew) : (s.setCrew n c).nextCrew = s.nextCrew := rfl
@[simp] theorem setCrew_squads (s : State) (n : Nat) (c : Crew) : (s.setCrew n c).squads = s.squads := rfl
@[simp] theorem setCrew_fixtures (s : State) (n : Nat) (c : Crew) : (s.setCrew n c).fixtures = s.fixtures := rfl
@[simp] theorem setCrew_nextFx (s : State) (n : Nat) (c : Crew) : (s.setCrew n c).nextFx = s.nextFx := rfl
@[simp] theorem setCrew_parts (s : State) (n : Nat) (c : Crew) : (s.setCrew n c).parts = s.parts := rfl
@[simp] theorem setCrew_encl (s : State) (n : Nat) (c : Crew) : (s.setCrew n c).encl = s.encl := rfl
@[simp] theorem setCrew_posts (s : State) (n : Nat) (c : Crew) : (s.setCrew n c).posts = s.posts := rfl
@[simp] theorem setCrew_nextToken (s : State) (n : Nat) (c : Crew) : (s.setCrew n c).nextToken = s.nextToken := rfl
@[simp] theorem setCrew_mem (s : State) (n : Nat) (c : Crew) : (s.setCrew n c).mem = s.mem := rfl
@[simp] theorem setCrew_caches (s : State) (n : Nat) (c : Crew) : (s.setCrew n c).caches = s.caches := rfl
@[simp] theorem setCrew_eng (s : State) (n : Nat) (c : Crew) : (s.setCrew n c).eng = s.eng := rfl
@[simp] theorem setCrew_links (s : State) (n : Nat) (c : Crew) : (s.setCrew n c).links = s.links := rfl
@[simp] theorem setCrew_fw (s : State) (n : Nat) (c : Crew) : (s.setCrew n c).fw = s.fw := rfl
@[simp] theorem setCrew_clk (s : State) (n : Nat) (c : Crew) : (s.setCrew n c).clk = s.clk := rfl
@[simp] theorem setCrew_board (s : State) (n : Nat) (c : Crew) : (s.setCrew n c).board = s.board := rfl
@[simp] theorem setCrew_hold (s : State) (n : Nat) (c : Crew) : (s.setCrew n c).hold = s.hold := rfl
@[simp] theorem setCrew_health (s : State) (n : Nat) (c : Crew) : (s.setCrew n c).health = s.health := rfl
@[simp] theorem setCrew_spdm (s : State) (n : Nat) (c : Crew) : (s.setCrew n c).spdm = s.spdm := rfl
@[simp] theorem setCrew_pass (s : State) (n : Nat) (c : Crew) : (s.setCrew n c).pass = s.pass := rfl
@[simp] theorem setCrew_nextWait (s : State) (n : Nat) (c : Crew) : (s.setCrew n c).nextWait = s.nextWait := rfl
@[simp] theorem setCrew_sched (s : State) (n : Nat) (c : Crew) : (s.setCrew n c).sched = s.sched := rfl
@[simp] theorem setCrew_agenda (s : State) (n : Nat) (c : Crew) : (s.setCrew n c).agenda = s.agenda := rfl
@[simp] theorem setCrew_cur (s : State) (n : Nat) (c : Crew) : (s.setCrew n c).cur = s.cur := rfl
@[simp] theorem setCrew_free (s : State) (n : Nat) (c : Crew) : (s.setCrew n c).free = s.free := rfl

/-! ## setFixture -/

@[simp] theorem setFixture_teams (s : State) (n : Nat) (f : Fixture) : (s.setFixture n f).teams = s.teams := rfl
@[simp] theorem setFixture_thr (s : State) (n : Nat) (f : Fixture) : (s.setFixture n f).thr = s.thr := rfl
@[simp] theorem setFixture_crews (s : State) (n : Nat) (f : Fixture) : (s.setFixture n f).crews = s.crews := rfl
@[simp] theorem setFixture_nextCrew (s : State) (n : Nat) (f : Fixture) : (s.setFixture n f).nextCrew = s.nextCrew := rfl
@[simp] theorem setFixture_squads (s : State) (n : Nat) (f : Fixture) : (s.setFixture n f).squads = s.squads := rfl
@[simp] theorem setFixture_nextFx (s : State) (n : Nat) (f : Fixture) : (s.setFixture n f).nextFx = s.nextFx := rfl
@[simp] theorem setFixture_parts (s : State) (n : Nat) (f : Fixture) : (s.setFixture n f).parts = s.parts := rfl
@[simp] theorem setFixture_encl (s : State) (n : Nat) (f : Fixture) : (s.setFixture n f).encl = s.encl := rfl
@[simp] theorem setFixture_posts (s : State) (n : Nat) (f : Fixture) : (s.setFixture n f).posts = s.posts := rfl
@[simp] theorem setFixture_nextToken (s : State) (n : Nat) (f : Fixture) : (s.setFixture n f).nextToken = s.nextToken := rfl
@[simp] theorem setFixture_mem (s : State) (n : Nat) (f : Fixture) : (s.setFixture n f).mem = s.mem := rfl
@[simp] theorem setFixture_caches (s : State) (n : Nat) (f : Fixture) : (s.setFixture n f).caches = s.caches := rfl
@[simp] theorem setFixture_eng (s : State) (n : Nat) (f : Fixture) : (s.setFixture n f).eng = s.eng := rfl
@[simp] theorem setFixture_links (s : State) (n : Nat) (f : Fixture) : (s.setFixture n f).links = s.links := rfl
@[simp] theorem setFixture_fw (s : State) (n : Nat) (f : Fixture) : (s.setFixture n f).fw = s.fw := rfl
@[simp] theorem setFixture_clk (s : State) (n : Nat) (f : Fixture) : (s.setFixture n f).clk = s.clk := rfl
@[simp] theorem setFixture_board (s : State) (n : Nat) (f : Fixture) : (s.setFixture n f).board = s.board := rfl
@[simp] theorem setFixture_hold (s : State) (n : Nat) (f : Fixture) : (s.setFixture n f).hold = s.hold := rfl
@[simp] theorem setFixture_health (s : State) (n : Nat) (f : Fixture) : (s.setFixture n f).health = s.health := rfl
@[simp] theorem setFixture_spdm (s : State) (n : Nat) (f : Fixture) : (s.setFixture n f).spdm = s.spdm := rfl
@[simp] theorem setFixture_pass (s : State) (n : Nat) (f : Fixture) : (s.setFixture n f).pass = s.pass := rfl
@[simp] theorem setFixture_nextWait (s : State) (n : Nat) (f : Fixture) : (s.setFixture n f).nextWait = s.nextWait := rfl
@[simp] theorem setFixture_sched (s : State) (n : Nat) (f : Fixture) : (s.setFixture n f).sched = s.sched := rfl
@[simp] theorem setFixture_agenda (s : State) (n : Nat) (f : Fixture) : (s.setFixture n f).agenda = s.agenda := rfl
@[simp] theorem setFixture_cur (s : State) (n : Nat) (f : Fixture) : (s.setFixture n f).cur = s.cur := rfl
@[simp] theorem setFixture_free (s : State) (n : Nat) (f : Fixture) : (s.setFixture n f).free = s.free := rfl

/-! ## setPart -/

@[simp] theorem setPart_teams (s : State) (n : Nat) (p : Part) : (s.setPart n p).teams = s.teams := rfl
@[simp] theorem setPart_thr (s : State) (n : Nat) (p : Part) : (s.setPart n p).thr = s.thr := rfl
@[simp] theorem setPart_crews (s : State) (n : Nat) (p : Part) : (s.setPart n p).crews = s.crews := rfl
@[simp] theorem setPart_nextCrew (s : State) (n : Nat) (p : Part) : (s.setPart n p).nextCrew = s.nextCrew := rfl
@[simp] theorem setPart_squads (s : State) (n : Nat) (p : Part) : (s.setPart n p).squads = s.squads := rfl
@[simp] theorem setPart_fixtures (s : State) (n : Nat) (p : Part) : (s.setPart n p).fixtures = s.fixtures := rfl
@[simp] theorem setPart_nextFx (s : State) (n : Nat) (p : Part) : (s.setPart n p).nextFx = s.nextFx := rfl
@[simp] theorem setPart_encl (s : State) (n : Nat) (p : Part) : (s.setPart n p).encl = s.encl := rfl
@[simp] theorem setPart_posts (s : State) (n : Nat) (p : Part) : (s.setPart n p).posts = s.posts := rfl
@[simp] theorem setPart_nextToken (s : State) (n : Nat) (p : Part) : (s.setPart n p).nextToken = s.nextToken := rfl
@[simp] theorem setPart_mem (s : State) (n : Nat) (p : Part) : (s.setPart n p).mem = s.mem := rfl
@[simp] theorem setPart_caches (s : State) (n : Nat) (p : Part) : (s.setPart n p).caches = s.caches := rfl
@[simp] theorem setPart_eng (s : State) (n : Nat) (p : Part) : (s.setPart n p).eng = s.eng := rfl
@[simp] theorem setPart_links (s : State) (n : Nat) (p : Part) : (s.setPart n p).links = s.links := rfl
@[simp] theorem setPart_fw (s : State) (n : Nat) (p : Part) : (s.setPart n p).fw = s.fw := rfl
@[simp] theorem setPart_clk (s : State) (n : Nat) (p : Part) : (s.setPart n p).clk = s.clk := rfl
@[simp] theorem setPart_board (s : State) (n : Nat) (p : Part) : (s.setPart n p).board = s.board := rfl
@[simp] theorem setPart_hold (s : State) (n : Nat) (p : Part) : (s.setPart n p).hold = s.hold := rfl
@[simp] theorem setPart_health (s : State) (n : Nat) (p : Part) : (s.setPart n p).health = s.health := rfl
@[simp] theorem setPart_spdm (s : State) (n : Nat) (p : Part) : (s.setPart n p).spdm = s.spdm := rfl
@[simp] theorem setPart_pass (s : State) (n : Nat) (p : Part) : (s.setPart n p).pass = s.pass := rfl
@[simp] theorem setPart_nextWait (s : State) (n : Nat) (p : Part) : (s.setPart n p).nextWait = s.nextWait := rfl
@[simp] theorem setPart_sched (s : State) (n : Nat) (p : Part) : (s.setPart n p).sched = s.sched := rfl
@[simp] theorem setPart_agenda (s : State) (n : Nat) (p : Part) : (s.setPart n p).agenda = s.agenda := rfl
@[simp] theorem setPart_cur (s : State) (n : Nat) (p : Part) : (s.setPart n p).cur = s.cur := rfl
@[simp] theorem setPart_free (s : State) (n : Nat) (p : Part) : (s.setPart n p).free = s.free := rfl

/-! ## setEnc -/

@[simp] theorem setEnc_teams (s : State) (n : Nat) (e : Enclave) : (s.setEnc n e).teams = s.teams := rfl
@[simp] theorem setEnc_thr (s : State) (n : Nat) (e : Enclave) : (s.setEnc n e).thr = s.thr := rfl
@[simp] theorem setEnc_crews (s : State) (n : Nat) (e : Enclave) : (s.setEnc n e).crews = s.crews := rfl
@[simp] theorem setEnc_nextCrew (s : State) (n : Nat) (e : Enclave) : (s.setEnc n e).nextCrew = s.nextCrew := rfl
@[simp] theorem setEnc_squads (s : State) (n : Nat) (e : Enclave) : (s.setEnc n e).squads = s.squads := rfl
@[simp] theorem setEnc_fixtures (s : State) (n : Nat) (e : Enclave) : (s.setEnc n e).fixtures = s.fixtures := rfl
@[simp] theorem setEnc_nextFx (s : State) (n : Nat) (e : Enclave) : (s.setEnc n e).nextFx = s.nextFx := rfl
@[simp] theorem setEnc_parts (s : State) (n : Nat) (e : Enclave) : (s.setEnc n e).parts = s.parts := rfl
@[simp] theorem setEnc_posts (s : State) (n : Nat) (e : Enclave) : (s.setEnc n e).posts = s.posts := rfl
@[simp] theorem setEnc_nextToken (s : State) (n : Nat) (e : Enclave) : (s.setEnc n e).nextToken = s.nextToken := rfl
@[simp] theorem setEnc_mem (s : State) (n : Nat) (e : Enclave) : (s.setEnc n e).mem = s.mem := rfl
@[simp] theorem setEnc_caches (s : State) (n : Nat) (e : Enclave) : (s.setEnc n e).caches = s.caches := rfl
@[simp] theorem setEnc_eng (s : State) (n : Nat) (e : Enclave) : (s.setEnc n e).eng = s.eng := rfl
@[simp] theorem setEnc_links (s : State) (n : Nat) (e : Enclave) : (s.setEnc n e).links = s.links := rfl
@[simp] theorem setEnc_fw (s : State) (n : Nat) (e : Enclave) : (s.setEnc n e).fw = s.fw := rfl
@[simp] theorem setEnc_clk (s : State) (n : Nat) (e : Enclave) : (s.setEnc n e).clk = s.clk := rfl
@[simp] theorem setEnc_board (s : State) (n : Nat) (e : Enclave) : (s.setEnc n e).board = s.board := rfl
@[simp] theorem setEnc_hold (s : State) (n : Nat) (e : Enclave) : (s.setEnc n e).hold = s.hold := rfl
@[simp] theorem setEnc_health (s : State) (n : Nat) (e : Enclave) : (s.setEnc n e).health = s.health := rfl
@[simp] theorem setEnc_spdm (s : State) (n : Nat) (e : Enclave) : (s.setEnc n e).spdm = s.spdm := rfl
@[simp] theorem setEnc_pass (s : State) (n : Nat) (e : Enclave) : (s.setEnc n e).pass = s.pass := rfl
@[simp] theorem setEnc_nextWait (s : State) (n : Nat) (e : Enclave) : (s.setEnc n e).nextWait = s.nextWait := rfl
@[simp] theorem setEnc_sched (s : State) (n : Nat) (e : Enclave) : (s.setEnc n e).sched = s.sched := rfl
@[simp] theorem setEnc_agenda (s : State) (n : Nat) (e : Enclave) : (s.setEnc n e).agenda = s.agenda := rfl
@[simp] theorem setEnc_cur (s : State) (n : Nat) (e : Enclave) : (s.setEnc n e).cur = s.cur := rfl
@[simp] theorem setEnc_free (s : State) (n : Nat) (e : Enclave) : (s.setEnc n e).free = s.free := rfl

/-! ## setSquad -/

@[simp] theorem setSquad_teams (s : State) (k : Nat) (b : Barrier) : (s.setSquad k b).teams = s.teams := rfl
@[simp] theorem setSquad_thr (s : State) (k : Nat) (b : Barrier) : (s.setSquad k b).thr = s.thr := rfl
@[simp] theorem setSquad_crews (s : State) (k : Nat) (b : Barrier) : (s.setSquad k b).crews = s.crews := rfl
@[simp] theorem setSquad_nextCrew (s : State) (k : Nat) (b : Barrier) : (s.setSquad k b).nextCrew = s.nextCrew := rfl
@[simp] theorem setSquad_fixtures (s : State) (k : Nat) (b : Barrier) : (s.setSquad k b).fixtures = s.fixtures := rfl
@[simp] theorem setSquad_nextFx (s : State) (k : Nat) (b : Barrier) : (s.setSquad k b).nextFx = s.nextFx := rfl
@[simp] theorem setSquad_parts (s : State) (k : Nat) (b : Barrier) : (s.setSquad k b).parts = s.parts := rfl
@[simp] theorem setSquad_encl (s : State) (k : Nat) (b : Barrier) : (s.setSquad k b).encl = s.encl := rfl
@[simp] theorem setSquad_posts (s : State) (k : Nat) (b : Barrier) : (s.setSquad k b).posts = s.posts := rfl
@[simp] theorem setSquad_nextToken (s : State) (k : Nat) (b : Barrier) : (s.setSquad k b).nextToken = s.nextToken := rfl
@[simp] theorem setSquad_mem (s : State) (k : Nat) (b : Barrier) : (s.setSquad k b).mem = s.mem := rfl
@[simp] theorem setSquad_caches (s : State) (k : Nat) (b : Barrier) : (s.setSquad k b).caches = s.caches := rfl
@[simp] theorem setSquad_eng (s : State) (k : Nat) (b : Barrier) : (s.setSquad k b).eng = s.eng := rfl
@[simp] theorem setSquad_links (s : State) (k : Nat) (b : Barrier) : (s.setSquad k b).links = s.links := rfl
@[simp] theorem setSquad_fw (s : State) (k : Nat) (b : Barrier) : (s.setSquad k b).fw = s.fw := rfl
@[simp] theorem setSquad_clk (s : State) (k : Nat) (b : Barrier) : (s.setSquad k b).clk = s.clk := rfl
@[simp] theorem setSquad_board (s : State) (k : Nat) (b : Barrier) : (s.setSquad k b).board = s.board := rfl
@[simp] theorem setSquad_hold (s : State) (k : Nat) (b : Barrier) : (s.setSquad k b).hold = s.hold := rfl
@[simp] theorem setSquad_health (s : State) (k : Nat) (b : Barrier) : (s.setSquad k b).health = s.health := rfl
@[simp] theorem setSquad_spdm (s : State) (k : Nat) (b : Barrier) : (s.setSquad k b).spdm = s.spdm := rfl
@[simp] theorem setSquad_pass (s : State) (k : Nat) (b : Barrier) : (s.setSquad k b).pass = s.pass := rfl
@[simp] theorem setSquad_nextWait (s : State) (k : Nat) (b : Barrier) : (s.setSquad k b).nextWait = s.nextWait := rfl
@[simp] theorem setSquad_sched (s : State) (k : Nat) (b : Barrier) : (s.setSquad k b).sched = s.sched := rfl
@[simp] theorem setSquad_agenda (s : State) (k : Nat) (b : Barrier) : (s.setSquad k b).agenda = s.agenda := rfl
@[simp] theorem setSquad_cur (s : State) (k : Nat) (b : Barrier) : (s.setSquad k b).cur = s.cur := rfl
@[simp] theorem setSquad_free (s : State) (k : Nat) (b : Barrier) : (s.setSquad k b).free = s.free := rfl

/-! ## setIpt -/

@[simp] theorem setIpt_teams (s : State) (n : Nat) (i : Ipt) : (s.setIpt n i).teams = s.teams := rfl
@[simp] theorem setIpt_thr (s : State) (n : Nat) (i : Ipt) : (s.setIpt n i).thr = s.thr := rfl
@[simp] theorem setIpt_crews (s : State) (n : Nat) (i : Ipt) : (s.setIpt n i).crews = s.crews := rfl
@[simp] theorem setIpt_nextCrew (s : State) (n : Nat) (i : Ipt) : (s.setIpt n i).nextCrew = s.nextCrew := rfl
@[simp] theorem setIpt_squads (s : State) (n : Nat) (i : Ipt) : (s.setIpt n i).squads = s.squads := rfl
@[simp] theorem setIpt_fixtures (s : State) (n : Nat) (i : Ipt) : (s.setIpt n i).fixtures = s.fixtures := rfl
@[simp] theorem setIpt_nextFx (s : State) (n : Nat) (i : Ipt) : (s.setIpt n i).nextFx = s.nextFx := rfl
@[simp] theorem setIpt_parts (s : State) (n : Nat) (i : Ipt) : (s.setIpt n i).parts = s.parts := rfl
@[simp] theorem setIpt_encl (s : State) (n : Nat) (i : Ipt) : (s.setIpt n i).encl = s.encl := rfl
@[simp] theorem setIpt_posts (s : State) (n : Nat) (i : Ipt) : (s.setIpt n i).posts = s.posts := rfl
@[simp] theorem setIpt_nextToken (s : State) (n : Nat) (i : Ipt) : (s.setIpt n i).nextToken = s.nextToken := rfl
@[simp] theorem setIpt_caches (s : State) (n : Nat) (i : Ipt) : (s.setIpt n i).caches = s.caches := rfl
@[simp] theorem setIpt_eng (s : State) (n : Nat) (i : Ipt) : (s.setIpt n i).eng = s.eng := rfl
@[simp] theorem setIpt_links (s : State) (n : Nat) (i : Ipt) : (s.setIpt n i).links = s.links := rfl
@[simp] theorem setIpt_fw (s : State) (n : Nat) (i : Ipt) : (s.setIpt n i).fw = s.fw := rfl
@[simp] theorem setIpt_clk (s : State) (n : Nat) (i : Ipt) : (s.setIpt n i).clk = s.clk := rfl
@[simp] theorem setIpt_board (s : State) (n : Nat) (i : Ipt) : (s.setIpt n i).board = s.board := rfl
@[simp] theorem setIpt_hold (s : State) (n : Nat) (i : Ipt) : (s.setIpt n i).hold = s.hold := rfl
@[simp] theorem setIpt_health (s : State) (n : Nat) (i : Ipt) : (s.setIpt n i).health = s.health := rfl
@[simp] theorem setIpt_spdm (s : State) (n : Nat) (i : Ipt) : (s.setIpt n i).spdm = s.spdm := rfl
@[simp] theorem setIpt_pass (s : State) (n : Nat) (i : Ipt) : (s.setIpt n i).pass = s.pass := rfl
@[simp] theorem setIpt_nextWait (s : State) (n : Nat) (i : Ipt) : (s.setIpt n i).nextWait = s.nextWait := rfl
@[simp] theorem setIpt_sched (s : State) (n : Nat) (i : Ipt) : (s.setIpt n i).sched = s.sched := rfl
@[simp] theorem setIpt_agenda (s : State) (n : Nat) (i : Ipt) : (s.setIpt n i).agenda = s.agenda := rfl
@[simp] theorem setIpt_cur (s : State) (n : Nat) (i : Ipt) : (s.setIpt n i).cur = s.cur := rfl
@[simp] theorem setIpt_free (s : State) (n : Nat) (i : Ipt) : (s.setIpt n i).free = s.free := rfl

/-! ## setByte -/

@[simp] theorem setByte_teams (s : State) (n : Nat) (b : Byte) : (s.setByte n b).teams = s.teams := rfl
@[simp] theorem setByte_thr (s : State) (n : Nat) (b : Byte) : (s.setByte n b).thr = s.thr := rfl
@[simp] theorem setByte_crews (s : State) (n : Nat) (b : Byte) : (s.setByte n b).crews = s.crews := rfl
@[simp] theorem setByte_nextCrew (s : State) (n : Nat) (b : Byte) : (s.setByte n b).nextCrew = s.nextCrew := rfl
@[simp] theorem setByte_squads (s : State) (n : Nat) (b : Byte) : (s.setByte n b).squads = s.squads := rfl
@[simp] theorem setByte_fixtures (s : State) (n : Nat) (b : Byte) : (s.setByte n b).fixtures = s.fixtures := rfl
@[simp] theorem setByte_nextFx (s : State) (n : Nat) (b : Byte) : (s.setByte n b).nextFx = s.nextFx := rfl
@[simp] theorem setByte_parts (s : State) (n : Nat) (b : Byte) : (s.setByte n b).parts = s.parts := rfl
@[simp] theorem setByte_encl (s : State) (n : Nat) (b : Byte) : (s.setByte n b).encl = s.encl := rfl
@[simp] theorem setByte_posts (s : State) (n : Nat) (b : Byte) : (s.setByte n b).posts = s.posts := rfl
@[simp] theorem setByte_nextToken (s : State) (n : Nat) (b : Byte) : (s.setByte n b).nextToken = s.nextToken := rfl
@[simp] theorem setByte_caches (s : State) (n : Nat) (b : Byte) : (s.setByte n b).caches = s.caches := rfl
@[simp] theorem setByte_eng (s : State) (n : Nat) (b : Byte) : (s.setByte n b).eng = s.eng := rfl
@[simp] theorem setByte_links (s : State) (n : Nat) (b : Byte) : (s.setByte n b).links = s.links := rfl
@[simp] theorem setByte_fw (s : State) (n : Nat) (b : Byte) : (s.setByte n b).fw = s.fw := rfl
@[simp] theorem setByte_clk (s : State) (n : Nat) (b : Byte) : (s.setByte n b).clk = s.clk := rfl
@[simp] theorem setByte_board (s : State) (n : Nat) (b : Byte) : (s.setByte n b).board = s.board := rfl
@[simp] theorem setByte_hold (s : State) (n : Nat) (b : Byte) : (s.setByte n b).hold = s.hold := rfl
@[simp] theorem setByte_health (s : State) (n : Nat) (b : Byte) : (s.setByte n b).health = s.health := rfl
@[simp] theorem setByte_spdm (s : State) (n : Nat) (b : Byte) : (s.setByte n b).spdm = s.spdm := rfl
@[simp] theorem setByte_pass (s : State) (n : Nat) (b : Byte) : (s.setByte n b).pass = s.pass := rfl
@[simp] theorem setByte_nextWait (s : State) (n : Nat) (b : Byte) : (s.setByte n b).nextWait = s.nextWait := rfl
@[simp] theorem setByte_sched (s : State) (n : Nat) (b : Byte) : (s.setByte n b).sched = s.sched := rfl
@[simp] theorem setByte_agenda (s : State) (n : Nat) (b : Byte) : (s.setByte n b).agenda = s.agenda := rfl
@[simp] theorem setByte_cur (s : State) (n : Nat) (b : Byte) : (s.setByte n b).cur = s.cur := rfl
@[simp] theorem setByte_free (s : State) (n : Nat) (b : Byte) : (s.setByte n b).free = s.free := rfl

/-! ## zeroRange -/

@[simp] theorem zeroRange_teams (s : State) (p n : Nat) : (s.zeroRange p n).teams = s.teams := rfl
@[simp] theorem zeroRange_thr (s : State) (p n : Nat) : (s.zeroRange p n).thr = s.thr := rfl
@[simp] theorem zeroRange_crews (s : State) (p n : Nat) : (s.zeroRange p n).crews = s.crews := rfl
@[simp] theorem zeroRange_nextCrew (s : State) (p n : Nat) : (s.zeroRange p n).nextCrew = s.nextCrew := rfl
@[simp] theorem zeroRange_squads (s : State) (p n : Nat) : (s.zeroRange p n).squads = s.squads := rfl
@[simp] theorem zeroRange_fixtures (s : State) (p n : Nat) : (s.zeroRange p n).fixtures = s.fixtures := rfl
@[simp] theorem zeroRange_nextFx (s : State) (p n : Nat) : (s.zeroRange p n).nextFx = s.nextFx := rfl
@[simp] theorem zeroRange_parts (s : State) (p n : Nat) : (s.zeroRange p n).parts = s.parts := rfl
@[simp] theorem zeroRange_encl (s : State) (p n : Nat) : (s.zeroRange p n).encl = s.encl := rfl
@[simp] theorem zeroRange_posts (s : State) (p n : Nat) : (s.zeroRange p n).posts = s.posts := rfl
@[simp] theorem zeroRange_nextToken (s : State) (p n : Nat) : (s.zeroRange p n).nextToken = s.nextToken := rfl
@[simp] theorem zeroRange_caches (s : State) (p n : Nat) : (s.zeroRange p n).caches = s.caches := rfl
@[simp] theorem zeroRange_eng (s : State) (p n : Nat) : (s.zeroRange p n).eng = s.eng := rfl
@[simp] theorem zeroRange_links (s : State) (p n : Nat) : (s.zeroRange p n).links = s.links := rfl
@[simp] theorem zeroRange_fw (s : State) (p n : Nat) : (s.zeroRange p n).fw = s.fw := rfl
@[simp] theorem zeroRange_clk (s : State) (p n : Nat) : (s.zeroRange p n).clk = s.clk := rfl
@[simp] theorem zeroRange_board (s : State) (p n : Nat) : (s.zeroRange p n).board = s.board := rfl
@[simp] theorem zeroRange_hold (s : State) (p n : Nat) : (s.zeroRange p n).hold = s.hold := rfl
@[simp] theorem zeroRange_health (s : State) (p n : Nat) : (s.zeroRange p n).health = s.health := rfl
@[simp] theorem zeroRange_spdm (s : State) (p n : Nat) : (s.zeroRange p n).spdm = s.spdm := rfl
@[simp] theorem zeroRange_pass (s : State) (p n : Nat) : (s.zeroRange p n).pass = s.pass := rfl
@[simp] theorem zeroRange_nextWait (s : State) (p n : Nat) : (s.zeroRange p n).nextWait = s.nextWait := rfl
@[simp] theorem zeroRange_sched (s : State) (p n : Nat) : (s.zeroRange p n).sched = s.sched := rfl
@[simp] theorem zeroRange_agenda (s : State) (p n : Nat) : (s.zeroRange p n).agenda = s.agenda := rfl
@[simp] theorem zeroRange_cur (s : State) (p n : Nat) : (s.zeroRange p n).cur = s.cur := rfl
@[simp] theorem zeroRange_free (s : State) (p n : Nat) : (s.zeroRange p n).free = s.free := rfl

/-! ## bump -/

@[simp] theorem bump_teams (s : State) (p n : Nat) : (s.bump p n).teams = s.teams := rfl
@[simp] theorem bump_thr (s : State) (p n : Nat) : (s.bump p n).thr = s.thr := rfl
@[simp] theorem bump_crews (s : State) (p n : Nat) : (s.bump p n).crews = s.crews := rfl
@[simp] theorem bump_nextCrew (s : State) (p n : Nat) : (s.bump p n).nextCrew = s.nextCrew := rfl
@[simp] theorem bump_squads (s : State) (p n : Nat) : (s.bump p n).squads = s.squads := rfl
@[simp] theorem bump_fixtures (s : State) (p n : Nat) : (s.bump p n).fixtures = s.fixtures := rfl
@[simp] theorem bump_nextFx (s : State) (p n : Nat) : (s.bump p n).nextFx = s.nextFx := rfl
@[simp] theorem bump_parts (s : State) (p n : Nat) : (s.bump p n).parts = s.parts := rfl
@[simp] theorem bump_encl (s : State) (p n : Nat) : (s.bump p n).encl = s.encl := rfl
@[simp] theorem bump_posts (s : State) (p n : Nat) : (s.bump p n).posts = s.posts := rfl
@[simp] theorem bump_nextToken (s : State) (p n : Nat) : (s.bump p n).nextToken = s.nextToken := rfl
@[simp] theorem bump_caches (s : State) (p n : Nat) : (s.bump p n).caches = s.caches := rfl
@[simp] theorem bump_eng (s : State) (p n : Nat) : (s.bump p n).eng = s.eng := rfl
@[simp] theorem bump_links (s : State) (p n : Nat) : (s.bump p n).links = s.links := rfl
@[simp] theorem bump_fw (s : State) (p n : Nat) : (s.bump p n).fw = s.fw := rfl
@[simp] theorem bump_clk (s : State) (p n : Nat) : (s.bump p n).clk = s.clk := rfl
@[simp] theorem bump_board (s : State) (p n : Nat) : (s.bump p n).board = s.board := rfl
@[simp] theorem bump_hold (s : State) (p n : Nat) : (s.bump p n).hold = s.hold := rfl
@[simp] theorem bump_health (s : State) (p n : Nat) : (s.bump p n).health = s.health := rfl
@[simp] theorem bump_spdm (s : State) (p n : Nat) : (s.bump p n).spdm = s.spdm := rfl
@[simp] theorem bump_pass (s : State) (p n : Nat) : (s.bump p n).pass = s.pass := rfl
@[simp] theorem bump_nextWait (s : State) (p n : Nat) : (s.bump p n).nextWait = s.nextWait := rfl
@[simp] theorem bump_sched (s : State) (p n : Nat) : (s.bump p n).sched = s.sched := rfl
@[simp] theorem bump_agenda (s : State) (p n : Nat) : (s.bump p n).agenda = s.agenda := rfl
@[simp] theorem bump_cur (s : State) (p n : Nat) : (s.bump p n).cur = s.cur := rfl
@[simp] theorem bump_free (s : State) (p n : Nat) : (s.bump p n).free = s.free := rfl

/-! ## log -/

@[simp] theorem log_teams (s : State) (ty uc w u e : Nat) (d : W64) : (s.log ty uc w u e d).teams = s.teams := rfl
@[simp] theorem log_thr (s : State) (ty uc w u e : Nat) (d : W64) : (s.log ty uc w u e d).thr = s.thr := rfl
@[simp] theorem log_crews (s : State) (ty uc w u e : Nat) (d : W64) : (s.log ty uc w u e d).crews = s.crews := rfl
@[simp] theorem log_nextCrew (s : State) (ty uc w u e : Nat) (d : W64) : (s.log ty uc w u e d).nextCrew = s.nextCrew := rfl
@[simp] theorem log_squads (s : State) (ty uc w u e : Nat) (d : W64) : (s.log ty uc w u e d).squads = s.squads := rfl
@[simp] theorem log_fixtures (s : State) (ty uc w u e : Nat) (d : W64) : (s.log ty uc w u e d).fixtures = s.fixtures := rfl
@[simp] theorem log_nextFx (s : State) (ty uc w u e : Nat) (d : W64) : (s.log ty uc w u e d).nextFx = s.nextFx := rfl
@[simp] theorem log_parts (s : State) (ty uc w u e : Nat) (d : W64) : (s.log ty uc w u e d).parts = s.parts := rfl
@[simp] theorem log_encl (s : State) (ty uc w u e : Nat) (d : W64) : (s.log ty uc w u e d).encl = s.encl := rfl
@[simp] theorem log_posts (s : State) (ty uc w u e : Nat) (d : W64) : (s.log ty uc w u e d).posts = s.posts := rfl
@[simp] theorem log_nextToken (s : State) (ty uc w u e : Nat) (d : W64) : (s.log ty uc w u e d).nextToken = s.nextToken := rfl
@[simp] theorem log_mem (s : State) (ty uc w u e : Nat) (d : W64) : (s.log ty uc w u e d).mem = s.mem := rfl
@[simp] theorem log_caches (s : State) (ty uc w u e : Nat) (d : W64) : (s.log ty uc w u e d).caches = s.caches := rfl
@[simp] theorem log_eng (s : State) (ty uc w u e : Nat) (d : W64) : (s.log ty uc w u e d).eng = s.eng := rfl
@[simp] theorem log_links (s : State) (ty uc w u e : Nat) (d : W64) : (s.log ty uc w u e d).links = s.links := rfl
@[simp] theorem log_fw (s : State) (ty uc w u e : Nat) (d : W64) : (s.log ty uc w u e d).fw = s.fw := rfl
@[simp] theorem log_clk (s : State) (ty uc w u e : Nat) (d : W64) : (s.log ty uc w u e d).clk = s.clk := rfl
@[simp] theorem log_board (s : State) (ty uc w u e : Nat) (d : W64) : (s.log ty uc w u e d).board = s.board := rfl
@[simp] theorem log_hold (s : State) (ty uc w u e : Nat) (d : W64) : (s.log ty uc w u e d).hold = s.hold := rfl
@[simp] theorem log_spdm (s : State) (ty uc w u e : Nat) (d : W64) : (s.log ty uc w u e d).spdm = s.spdm := rfl
@[simp] theorem log_pass (s : State) (ty uc w u e : Nat) (d : W64) : (s.log ty uc w u e d).pass = s.pass := rfl
@[simp] theorem log_nextWait (s : State) (ty uc w u e : Nat) (d : W64) : (s.log ty uc w u e d).nextWait = s.nextWait := rfl
@[simp] theorem log_sched (s : State) (ty uc w u e : Nat) (d : W64) : (s.log ty uc w u e d).sched = s.sched := rfl
@[simp] theorem log_agenda (s : State) (ty uc w u e : Nat) (d : W64) : (s.log ty uc w u e d).agenda = s.agenda := rfl
@[simp] theorem log_cur (s : State) (ty uc w u e : Nat) (d : W64) : (s.log ty uc w u e d).cur = s.cur := rfl
@[simp] theorem log_free (s : State) (ty uc w u e : Nat) (d : W64) : (s.log ty uc w u e d).free = s.free := rfl

/-! ## setUnitState -/

@[simp] theorem setUnitState_teams (s : State) (u : UnitName) (x : UnitState) : (s.setUnitState u x).teams = s.teams := rfl
@[simp] theorem setUnitState_thr (s : State) (u : UnitName) (x : UnitState) : (s.setUnitState u x).thr = s.thr := rfl
@[simp] theorem setUnitState_crews (s : State) (u : UnitName) (x : UnitState) : (s.setUnitState u x).crews = s.crews := rfl
@[simp] theorem setUnitState_nextCrew (s : State) (u : UnitName) (x : UnitState) : (s.setUnitState u x).nextCrew = s.nextCrew := rfl
@[simp] theorem setUnitState_squads (s : State) (u : UnitName) (x : UnitState) : (s.setUnitState u x).squads = s.squads := rfl
@[simp] theorem setUnitState_fixtures (s : State) (u : UnitName) (x : UnitState) : (s.setUnitState u x).fixtures = s.fixtures := rfl
@[simp] theorem setUnitState_nextFx (s : State) (u : UnitName) (x : UnitState) : (s.setUnitState u x).nextFx = s.nextFx := rfl
@[simp] theorem setUnitState_parts (s : State) (u : UnitName) (x : UnitState) : (s.setUnitState u x).parts = s.parts := rfl
@[simp] theorem setUnitState_encl (s : State) (u : UnitName) (x : UnitState) : (s.setUnitState u x).encl = s.encl := rfl
@[simp] theorem setUnitState_posts (s : State) (u : UnitName) (x : UnitState) : (s.setUnitState u x).posts = s.posts := rfl
@[simp] theorem setUnitState_nextToken (s : State) (u : UnitName) (x : UnitState) : (s.setUnitState u x).nextToken = s.nextToken := rfl
@[simp] theorem setUnitState_mem (s : State) (u : UnitName) (x : UnitState) : (s.setUnitState u x).mem = s.mem := rfl
@[simp] theorem setUnitState_caches (s : State) (u : UnitName) (x : UnitState) : (s.setUnitState u x).caches = s.caches := rfl
@[simp] theorem setUnitState_eng (s : State) (u : UnitName) (x : UnitState) : (s.setUnitState u x).eng = s.eng := rfl
@[simp] theorem setUnitState_links (s : State) (u : UnitName) (x : UnitState) : (s.setUnitState u x).links = s.links := rfl
@[simp] theorem setUnitState_fw (s : State) (u : UnitName) (x : UnitState) : (s.setUnitState u x).fw = s.fw := rfl
@[simp] theorem setUnitState_clk (s : State) (u : UnitName) (x : UnitState) : (s.setUnitState u x).clk = s.clk := rfl
@[simp] theorem setUnitState_board (s : State) (u : UnitName) (x : UnitState) : (s.setUnitState u x).board = s.board := rfl
@[simp] theorem setUnitState_hold (s : State) (u : UnitName) (x : UnitState) : (s.setUnitState u x).hold = s.hold := rfl
@[simp] theorem setUnitState_spdm (s : State) (u : UnitName) (x : UnitState) : (s.setUnitState u x).spdm = s.spdm := rfl
@[simp] theorem setUnitState_pass (s : State) (u : UnitName) (x : UnitState) : (s.setUnitState u x).pass = s.pass := rfl
@[simp] theorem setUnitState_nextWait (s : State) (u : UnitName) (x : UnitState) : (s.setUnitState u x).nextWait = s.nextWait := rfl
@[simp] theorem setUnitState_sched (s : State) (u : UnitName) (x : UnitState) : (s.setUnitState u x).sched = s.sched := rfl
@[simp] theorem setUnitState_agenda (s : State) (u : UnitName) (x : UnitState) : (s.setUnitState u x).agenda = s.agenda := rfl
@[simp] theorem setUnitState_cur (s : State) (u : UnitName) (x : UnitState) : (s.setUnitState u x).cur = s.cur := rfl
@[simp] theorem setUnitState_free (s : State) (u : UnitName) (x : UnitState) : (s.setUnitState u x).free = s.free := rfl

/-! ## setScore -/

@[simp] theorem setScore_teams (s : State) (u : UnitName) (n : Nat) : (s.setScore u n).teams = s.teams := rfl
@[simp] theorem setScore_thr (s : State) (u : UnitName) (n : Nat) : (s.setScore u n).thr = s.thr := rfl
@[simp] theorem setScore_crews (s : State) (u : UnitName) (n : Nat) : (s.setScore u n).crews = s.crews := rfl
@[simp] theorem setScore_nextCrew (s : State) (u : UnitName) (n : Nat) : (s.setScore u n).nextCrew = s.nextCrew := rfl
@[simp] theorem setScore_squads (s : State) (u : UnitName) (n : Nat) : (s.setScore u n).squads = s.squads := rfl
@[simp] theorem setScore_fixtures (s : State) (u : UnitName) (n : Nat) : (s.setScore u n).fixtures = s.fixtures := rfl
@[simp] theorem setScore_nextFx (s : State) (u : UnitName) (n : Nat) : (s.setScore u n).nextFx = s.nextFx := rfl
@[simp] theorem setScore_parts (s : State) (u : UnitName) (n : Nat) : (s.setScore u n).parts = s.parts := rfl
@[simp] theorem setScore_encl (s : State) (u : UnitName) (n : Nat) : (s.setScore u n).encl = s.encl := rfl
@[simp] theorem setScore_posts (s : State) (u : UnitName) (n : Nat) : (s.setScore u n).posts = s.posts := rfl
@[simp] theorem setScore_nextToken (s : State) (u : UnitName) (n : Nat) : (s.setScore u n).nextToken = s.nextToken := rfl
@[simp] theorem setScore_mem (s : State) (u : UnitName) (n : Nat) : (s.setScore u n).mem = s.mem := rfl
@[simp] theorem setScore_caches (s : State) (u : UnitName) (n : Nat) : (s.setScore u n).caches = s.caches := rfl
@[simp] theorem setScore_eng (s : State) (u : UnitName) (n : Nat) : (s.setScore u n).eng = s.eng := rfl
@[simp] theorem setScore_links (s : State) (u : UnitName) (n : Nat) : (s.setScore u n).links = s.links := rfl
@[simp] theorem setScore_fw (s : State) (u : UnitName) (n : Nat) : (s.setScore u n).fw = s.fw := rfl
@[simp] theorem setScore_clk (s : State) (u : UnitName) (n : Nat) : (s.setScore u n).clk = s.clk := rfl
@[simp] theorem setScore_board (s : State) (u : UnitName) (n : Nat) : (s.setScore u n).board = s.board := rfl
@[simp] theorem setScore_hold (s : State) (u : UnitName) (n : Nat) : (s.setScore u n).hold = s.hold := rfl
@[simp] theorem setScore_spdm (s : State) (u : UnitName) (n : Nat) : (s.setScore u n).spdm = s.spdm := rfl
@[simp] theorem setScore_pass (s : State) (u : UnitName) (n : Nat) : (s.setScore u n).pass = s.pass := rfl
@[simp] theorem setScore_nextWait (s : State) (u : UnitName) (n : Nat) : (s.setScore u n).nextWait = s.nextWait := rfl
@[simp] theorem setScore_sched (s : State) (u : UnitName) (n : Nat) : (s.setScore u n).sched = s.sched := rfl
@[simp] theorem setScore_agenda (s : State) (u : UnitName) (n : Nat) : (s.setScore u n).agenda = s.agenda := rfl
@[simp] theorem setScore_cur (s : State) (u : UnitName) (n : Nat) : (s.setScore u n).cur = s.cur := rfl
@[simp] theorem setScore_free (s : State) (u : UnitName) (n : Nat) : (s.setScore u n).free = s.free := rfl

/-! ## Reads after writes -/

@[simp] theorem team_setTeam_self (s : State) (a : Nat) (x : Team) : (s.setTeam a x).team a = x := by
  simp [team, setTeam]
theorem team_setTeam (s : State) (a b : Nat) (x : Team) : (s.setTeam a x).team b = if b = a then x else s.team b := by
  simp [team, setTeam, tget_tset]
@[simp] theorem team_setTeam_ne (s : State) {a b : Nat} (x : Team) (h : b ≠ a) : (s.setTeam a x).team b = s.team b := by
  simp [team_setTeam, h]
@[simp] theorem thread_setThread_self (s : State) (a : Nat) (x : Thread) : (s.setThread a x).thread a = x := by
  simp [thread, setThread]
theorem thread_setThread (s : State) (a b : Nat) (x : Thread) : (s.setThread a x).thread b = if b = a then x else s.thread b := by
  simp [thread, setThread, tget_tset]
@[simp] theorem thread_setThread_ne (s : State) {a b : Nat} (x : Thread) (h : b ≠ a) : (s.setThread a x).thread b = s.thread b := by
  simp [thread_setThread, h]
@[simp] theorem crew_setCrew_self (s : State) (a : Nat) (x : Crew) : (s.setCrew a x).crew a = x := by
  simp [crew, setCrew]
theorem crew_setCrew (s : State) (a b : Nat) (x : Crew) : (s.setCrew a x).crew b = if b = a then x else s.crew b := by
  simp [crew, setCrew, tget_tset]
@[simp] theorem crew_setCrew_ne (s : State) {a b : Nat} (x : Crew) (h : b ≠ a) : (s.setCrew a x).crew b = s.crew b := by
  simp [crew_setCrew, h]
@[simp] theorem fixture_setFixture_self (s : State) (a : Nat) (x : Fixture) : (s.setFixture a x).fixture a = x := by
  simp [fixture, setFixture]
theorem fixture_setFixture (s : State) (a b : Nat) (x : Fixture) : (s.setFixture a x).fixture b = if b = a then x else s.fixture b := by
  simp [fixture, setFixture, tget_tset]
@[simp] theorem fixture_setFixture_ne (s : State) {a b : Nat} (x : Fixture) (h : b ≠ a) : (s.setFixture a x).fixture b = s.fixture b := by
  simp [fixture_setFixture, h]
@[simp] theorem part_setPart_self (s : State) (a : Nat) (x : Part) : (s.setPart a x).part a = x := by
  simp [part, setPart]
theorem part_setPart (s : State) (a b : Nat) (x : Part) : (s.setPart a x).part b = if b = a then x else s.part b := by
  simp [part, setPart, tget_tset]
@[simp] theorem part_setPart_ne (s : State) {a b : Nat} (x : Part) (h : b ≠ a) : (s.setPart a x).part b = s.part b := by
  simp [part_setPart, h]
@[simp] theorem enc_setEnc_self (s : State) (a : Nat) (x : Enclave) : (s.setEnc a x).enc a = x := by
  simp [enc, setEnc]
theorem enc_setEnc (s : State) (a b : Nat) (x : Enclave) : (s.setEnc a x).enc b = if b = a then x else s.enc b := by
  simp [enc, setEnc, tget_tset]
@[simp] theorem enc_setEnc_ne (s : State) {a b : Nat} (x : Enclave) (h : b ≠ a) : (s.setEnc a x).enc b = s.enc b := by
  simp [enc_setEnc, h]
@[simp] theorem squad_setSquad_self (s : State) (a : Nat) (x : Barrier) : (s.setSquad a x).squad a = x := by
  simp [squad, setSquad]
theorem squad_setSquad (s : State) (a b : Nat) (x : Barrier) : (s.setSquad a x).squad b = if b = a then x else s.squad b := by
  simp [squad, setSquad, tget_tset]
@[simp] theorem squad_setSquad_ne (s : State) {a b : Nat} (x : Barrier) (h : b ≠ a) : (s.setSquad a x).squad b = s.squad b := by
  simp [squad_setSquad, h]
@[simp] theorem thread_setTeam (s : State) (a b : Nat) (x : Team) : (s.setTeam a x).thread b = s.thread b := rfl
@[simp] theorem crew_setTeam (s : State) (a b : Nat) (x : Team) : (s.setTeam a x).crew b = s.crew b := rfl
@[simp] theorem fixture_setTeam (s : State) (a b : Nat) (x : Team) : (s.setTeam a x).fixture b = s.fixture b := rfl
@[simp] theorem part_setTeam (s : State) (a b : Nat) (x : Team) : (s.setTeam a x).part b = s.part b := rfl
@[simp] theorem enc_setTeam (s : State) (a b : Nat) (x : Team) : (s.setTeam a x).enc b = s.enc b := rfl
@[simp] theorem squad_setTeam (s : State) (a b : Nat) (x : Team) : (s.setTeam a x).squad b = s.squad b := rfl
@[simp] theorem team_setThread (s : State) (a b : Nat) (x : Thread) : (s.setThread a x).team b = s.team b := rfl
@[simp] theorem crew_setThread (s : State) (a b : Nat) (x : Thread) : (s.setThread a x).crew b = s.crew b := rfl
@[simp] theorem fixture_setThread (s : State) (a b : Nat) (x : Thread) : (s.setThread a x).fixture b = s.fixture b := rfl
@[simp] theorem part_setThread (s : State) (a b : Nat) (x : Thread) : (s.setThread a x).part b = s.part b := rfl
@[simp] theorem enc_setThread (s : State) (a b : Nat) (x : Thread) : (s.setThread a x).enc b = s.enc b := rfl
@[simp] theorem squad_setThread (s : State) (a b : Nat) (x : Thread) : (s.setThread a x).squad b = s.squad b := rfl
@[simp] theorem team_setCrew (s : State) (a b : Nat) (x : Crew) : (s.setCrew a x).team b = s.team b := rfl
@[simp] theorem thread_setCrew (s : State) (a b : Nat) (x : Crew) : (s.setCrew a x).thread b = s.thread b := rfl
@[simp] theorem fixture_setCrew (s : State) (a b : Nat) (x : Crew) : (s.setCrew a x).fixture b = s.fixture b := rfl
@[simp] theorem part_setCrew (s : State) (a b : Nat) (x : Crew) : (s.setCrew a x).part b = s.part b := rfl
@[simp] theorem enc_setCrew (s : State) (a b : Nat) (x : Crew) : (s.setCrew a x).enc b = s.enc b := rfl
@[simp] theorem squad_setCrew (s : State) (a b : Nat) (x : Crew) : (s.setCrew a x).squad b = s.squad b := rfl
@[simp] theorem team_setFixture (s : State) (a b : Nat) (x : Fixture) : (s.setFixture a x).team b = s.team b := rfl
@[simp] theorem thread_setFixture (s : State) (a b : Nat) (x : Fixture) : (s.setFixture a x).thread b = s.thread b := rfl
@[simp] theorem crew_setFixture (s : State) (a b : Nat) (x : Fixture) : (s.setFixture a x).crew b = s.crew b := rfl
@[simp] theorem part_setFixture (s : State) (a b : Nat) (x : Fixture) : (s.setFixture a x).part b = s.part b := rfl
@[simp] theorem enc_setFixture (s : State) (a b : Nat) (x : Fixture) : (s.setFixture a x).enc b = s.enc b := rfl
@[simp] theorem squad_setFixture (s : State) (a b : Nat) (x : Fixture) : (s.setFixture a x).squad b = s.squad b := rfl
@[simp] theorem team_setPart (s : State) (a b : Nat) (x : Part) : (s.setPart a x).team b = s.team b := rfl
@[simp] theorem thread_setPart (s : State) (a b : Nat) (x : Part) : (s.setPart a x).thread b = s.thread b := rfl
@[simp] theorem crew_setPart (s : State) (a b : Nat) (x : Part) : (s.setPart a x).crew b = s.crew b := rfl
@[simp] theorem fixture_setPart (s : State) (a b : Nat) (x : Part) : (s.setPart a x).fixture b = s.fixture b := rfl
@[simp] theorem enc_setPart (s : State) (a b : Nat) (x : Part) : (s.setPart a x).enc b = s.enc b := rfl
@[simp] theorem squad_setPart (s : State) (a b : Nat) (x : Part) : (s.setPart a x).squad b = s.squad b := rfl
@[simp] theorem team_setEnc (s : State) (a b : Nat) (x : Enclave) : (s.setEnc a x).team b = s.team b := rfl
@[simp] theorem thread_setEnc (s : State) (a b : Nat) (x : Enclave) : (s.setEnc a x).thread b = s.thread b := rfl
@[simp] theorem crew_setEnc (s : State) (a b : Nat) (x : Enclave) : (s.setEnc a x).crew b = s.crew b := rfl
@[simp] theorem fixture_setEnc (s : State) (a b : Nat) (x : Enclave) : (s.setEnc a x).fixture b = s.fixture b := rfl
@[simp] theorem part_setEnc (s : State) (a b : Nat) (x : Enclave) : (s.setEnc a x).part b = s.part b := rfl
@[simp] theorem squad_setEnc (s : State) (a b : Nat) (x : Enclave) : (s.setEnc a x).squad b = s.squad b := rfl
@[simp] theorem team_setSquad (s : State) (a b : Nat) (x : Barrier) : (s.setSquad a x).team b = s.team b := rfl
@[simp] theorem thread_setSquad (s : State) (a b : Nat) (x : Barrier) : (s.setSquad a x).thread b = s.thread b := rfl
@[simp] theorem crew_setSquad (s : State) (a b : Nat) (x : Barrier) : (s.setSquad a x).crew b = s.crew b := rfl
@[simp] theorem fixture_setSquad (s : State) (a b : Nat) (x : Barrier) : (s.setSquad a x).fixture b = s.fixture b := rfl
@[simp] theorem part_setSquad (s : State) (a b : Nat) (x : Barrier) : (s.setSquad a x).part b = s.part b := rfl
@[simp] theorem enc_setSquad (s : State) (a b : Nat) (x : Barrier) : (s.setSquad a x).enc b = s.enc b := rfl

@[simp] theorem mcyc_setTeam (s : State) (a b : Nat) (t : Team) : (s.setTeam a t).mcyc b = s.mcyc b := rfl
@[simp] theorem eidOf_setTeam (s : State) (a b : Nat) (t : Team) : (s.setTeam a t).eidOf b = s.eidOf b := rfl
@[simp] theorem partOf_setTeam (s : State) (a b : Nat) (t : Team) : (s.setTeam a t).partOf b = s.partOf b := rfl
@[simp] theorem worldOf_setTeam (s : State) (a b : Nat) (t : Team) : (s.setTeam a t).worldOf b = s.worldOf b := rfl
@[simp] theorem coreOf_setTeam (s : State) (a b : Nat) (t : Team) : (s.setTeam a t).coreOf b = s.coreOf b := rfl
@[simp] theorem levelOf_setTeam (s : State) (a b : Nat) (t : Team) : (s.setTeam a t).levelOf b = s.levelOf b := rfl
@[simp] theorem byte_setTeam (s : State) (a b : Nat) (t : Team) : (s.setTeam a t).byte b = s.byte b := rfl

end State
end Sys2Proof.Machine
end

