-- ==== Sys2Proof/Laws/Issue.lean ====
section
/-! SUPPORT. What issue and completion do: an instruction that meets no trap leaves its slot with its body's state; one that
fails a check of 06 R165 traps in every lane of the active mask. -/
namespace Sys2Proof.Machine

@[simp] theorem maskOf_nil : maskOf [] = 0 := rfl
@[simp] theorem trapMask_nil : trapMask [] = 0 := rfl

/-- No lane is taken away by an empty list. -/
theorem and_not_maskOf_nil (m : Mask) : m &&& ~~~ maskOf [] = m := by
  show m &&& ~~~0#1024 = m
  rw [BitVec.not_zero, BitVec.and_allOnes]

/-- A team's instruction without traps and stops. -/
theorem finishTeam_plain (a : Nat) (pc : W64) (s : State) (fl : Flow) (h : fl ≠ .gone) :
    State.finishTeam a pc { s := s, flow := fl } = s.leave a pc fl := by
  cases fl <;> first | exact absurd rfl h | simp [State.finishTeam, -BitVec.not_zero]

/-- A body that traps and stops nowhere and ends at the next slot. -/
theorem complete_plain (a : Nat) (pc : W64) (s : State) : State.complete a pc (Res.plain s) = s.leave a pc .seq := by
  by_cases h : isThread a = true
  · simp [State.complete, Res.plain, h]
  · simpa [State.complete, Res.plain, h] using finishTeam_plain a pc s .seq (by simp)

/-- The same at another place. -/
theorem complete_jump (a : Nat) (pc p : W64) (s : State) :
    State.complete a pc { s := s, flow := .jump p } = s.leave a pc (.jump p) := by
  by_cases h : isThread a = true
  · simp [State.complete, h]
  · simpa [State.complete, h] using finishTeam_plain a pc s (.jump p) (by simp)

/-- A body that has placed the agent itself. -/
theorem complete_gone (a : Nat) (pc : W64) (s : State) : State.complete a pc { s := s, flow := .gone } = s := by
  by_cases h : isThread a = true
  · simp [State.complete, h]
  · simp [State.complete, h, State.finishTeam]

/-- A body that waits. -/
theorem complete_wait (a : Nat) (pc : W64) (r : Res) (h : r.flow = .wait) : State.complete a pc r = r.s := by
  simp [State.complete, h]

/-- An instruction that issues normally: the body decides. -/
theorem issue_body {i : Instr} {r : Rule} {s : State} (h : Issues i r s) (body : Ctx → Res) :
    issue i r s body = State.complete s.cur s.me.pc (body (s.ctx r)) := by
  obtain ⟨hc, hu, ha⟩ := h
  have hb : (r.banned && (s.team s.cur).run == .pfHandler) = false := by
    rcases ha with ha | ha
    · rw [ha]; rfl
    · rw [beq_eq_false_iff_ne.mpr ha, Bool.and_false]
  simp only [State.me, State.mask] at hu
  unfold issue
  have hf : ∀ k : Traps, k.filter (fun _ => !false) = k := fun k => by simp
  simp only [hc, hu, and_not_maskOf_nil, hb, hf, List.contains_nil, Bool.and_false, List.map_nil, List.nil_append,
    Bool.false_eq_true, if_false]

/-- An instruction whose body meets no trap completes at the next slot. -/
theorem issues_plain {i : Instr} {r : Rule} {s s' : State} {body : Ctx → Res} (h : Issues i r s)
    (hb : body (s.ctx r) = Res.plain s') : issues i r s body = .next (s.after s') := by
  rw [issues, issue_body h, hb, complete_plain]

/-- An instruction that fails a check of 06 R165 traps with that cause in every lane of the active mask. -/
theorem issues_refused {i : Instr} {r : Rule} {s : State} {c : Cause} (body : Ctx → Res)
    (h : issueCheck s s.cur i r = some c) :
    issues i r s body = .next (State.complete s.cur s.me.pc { s := s, k := trapAll s.me.width s.me.cur c }) := by
  simp only [issues, issue, h]

end Sys2Proof.Machine
end

