-- ==== Sys2Proof/Laws/Lanes.lean ====
section
/-! SUPPORT. What the per-lane execution of `Operands.lean` leaves: `runLanes_wrote` says once everything that a
register-only instruction without a trap does. -/
namespace Sys2Proof.Machine

/-! ## Fields under the register writes -/

namespace Team

@[simp] theorem vreg_raise (t : Team) (f d : W32) (l r : Nat) : (t.raise f d).vreg l r = t.vreg l r := rfl
@[simp] theorem ureg_raise (t : Team) (f d : W32) (r : Nat) : (t.raise f d).ureg r = t.ureg r := rfl
@[simp] theorem xreg_raise (t : Team) (f d : W32) (l k : Nat) : (t.raise f d).xreg l k = t.xreg l k := rfl
@[simp] theorem pred_raise (t : Team) (f d : W32) (k : Nat) : (t.raise f d).pred k = t.pred k := rfl

@[simp] theorem setPred_v (t : Team) (k : Nat) (m : Mask) : (t.setPred k m).v = t.v := by unfold setPred; split <;> rfl
@[simp] theorem setPred_u (t : Team) (k : Nat) (m : Mask) : (t.setPred k m).u = t.u := by unfold setPred; split <;> rfl
@[simp] theorem setPred_x (t : Team) (k : Nat) (m : Mask) : (t.setPred k m).x = t.x := by unfold setPred; split <;> rfl

/-- The team but for its predicates. -/
theorem setPred_rest (t : Team) (k : Nat) (m : Mask) : t.setPred k m = { t with p := (t.setPred k m).p } := by
  unfold setPred; split <;> rfl

/-- The team but for one predicate. -/
theorem setPredLane_rest (t : Team) (k l : Nat) (b : Bool) :
    t.setPredLane k l b = { t with p := (t.setPredLane k l b).p, badP := (t.setPredLane k l b).badP } := by
  unfold setPredLane
  rw [setPred_rest]

/-- The team but for its predicates and index registers. -/
theorem putSide_rest (t : Team) (l : Nat) (o : LaneRes) :
    t.putSide l o = { t with p := (t.putSide l o).p, badP := (t.putSide l o).badP
                             x := (t.putSide l o).x, badX := (t.putSide l o).badX } := by
  have hf : ∀ (ws : List (Nat × Bool)) (t : Team),
      ws.foldl (fun t (kb : Nat × Bool) => t.setPredLane kb.1 l kb.2) t =
        { t with p := (ws.foldl (fun t (kb : Nat × Bool) => t.setPredLane kb.1 l kb.2) t).p
                 badP := (ws.foldl (fun t (kb : Nat × Bool) => t.setPredLane kb.1 l kb.2) t).badP } := by
    intro ws
    induction ws with
    | nil => intro t; rfl
    | cons w ws ih =>
      intro t
      rw [List.foldl_cons, ih (t.setPredLane w.1 l w.2), setPredLane_rest]
  unfold putSide
  dsimp only
  cases o.xw with
  | none => dsimp only; rw [hf o.pw t]
  | some kv => obtain ⟨k, v⟩ := kv; dsimp only [setX]; rw [hf o.pw t]

theorem vreg_putSide (t : Team) (l : Nat) (o : LaneRes) (l' r : Nat) : (t.putSide l o).vreg l' r = t.vreg l' r := by
  rw [putSide_rest]; rfl

theorem ureg_putSide (t : Team) (l : Nat) (o : LaneRes) (r : Nat) : (t.putSide l o).ureg r = t.ureg r := by
  rw [putSide_rest]; rfl

theorem pred_setV (t : Team) (l r : Nat) (v : W32) (k : Nat) : (t.setV l r v).pred k = t.pred k := rfl

/-- The team but for its per-lane registers. -/
theorem putLane_rest (t : Team) (l : Nat) (w : Bool) (q : Option Nat) (v : W64) :
    t.putLane l w q v = { t with v := (t.putLane l w q v).v, badV := (t.putLane l w q v).badV } := by
  cases q with
  | none => rfl
  | some q => cases w <;> rfl

theorem putUni_rest (t : Team) (w : Bool) (d : Operand) (v : W64) :
    t.putUni w d v = { t with u := (t.putUni w d v).u, badU := (t.putUni w d v).badU } := by
  cases d <;> rfl

/-! ## One register -/

theorem vreg_setV (t : Team) {l r l' r' : Nat} (v : W32) (h : r < 256) (h' : r' < 256) :
    (t.setV l r v).vreg l' r' = if l' = l ∧ r' = r then v else t.vreg l' r' := by
  have key : l' * 256 + r' = l * 256 + r ↔ l' = l ∧ r' = r := by omega
  simp [vreg, setV, tget_tset, key]

/-- The registers after a lane's result. -/
theorem vreg_putLane (t : Team) {l l' r q : Nat} (w : Bool) (v : W64) (hq : q + (if w then 2 else 1) ≤ 255)
    (hr : r < 256) :
    (t.putLane l w (some q) v).vreg l' r =
      if l' = l then
        if r = q then v.setWidth 32
        else if w ∧ r = q + 1 then (v >>> 32).setWidth 32
        else t.vreg l' r
      else t.vreg l' r := by
  cases w
  · simp only [putLane, Bool.false_eq_true, if_false, false_and]
    rw [vreg_setV t _ (by simp at hq; omega) hr]
    by_cases h : l' = l <;> by_cases h2 : r = q <;> simp [h, h2]
  · simp only [if_true] at hq
    simp only [putLane, if_true, true_and]
    rw [vreg_setV _ _ (by omega) hr, vreg_setV t _ (by omega) hr]
    by_cases h : l' = l <;> by_cases h2 : r = q <;> by_cases h3 : r = q + 1 <;> simp [h, h2, h3]

/-- A register that a lane names is below 255. -/
theorem regOf_lt (t : Team) {l n al q : Nat} {d : Operand} (h : t.regOf l n al d = .ok (some q)) : q + n ≤ 255 := by
  have hb : t.nregs ≤ 255 := Nat.min_le_right _ _
  cases d with
  | v r => simp only [regOf] at h; split at h <;> [skip; split at h] <;> simp_all; omega
  | idx k o =>
    simp only [regOf] at h
    split at h
    · simp at h
    · simp only [Except.ok.injEq, Option.some.injEq] at h; omega
  | s r => simp [regOf] at h
  | imm c => simp [regOf] at h

end Team

/-! ## Predicates and index registers of one lane -/

theorem oneLane_bit (l j : Nat) (h : j < 1024) : (oneLane l).getLsbD j = decide (j = l) := by
  unfold oneLane
  rw [BitVec.getLsbD_shiftLeft]
  by_cases hj : j = l
  · subst hj; simp [h]
  · by_cases hlt : j < l
    · simp [hj, hlt]
    · have h0 : j - l ≠ 0 := by omega
      have h1 : (1#1024).getLsbD (j - l) = false := by
        rw [BitVec.getLsbD_one]; simp [h0]
      rw [h1]; simp [hj]

namespace Team

theorem pred_setPred (t : Team) (k j : Nat) (m : Mask) :
    (t.setPred k m).pred j = if k ≠ 0 ∧ j = k then m else t.pred j := by
  unfold setPred
  by_cases hk : k = 0
  · simp [hk]
  · simp only [hk, if_false, ne_eq, not_false_eq_true, true_and]
    unfold pred
    by_cases hj : j = k
    · subst hj; simp [hk]
    · simp [hj]

theorem predLane_setPredLane (t : Team) (k j l l' : Nat) (b : Bool) (h : l' < 1024) :
    (t.setPredLane k l b).predLane j l' = if k ≠ 0 ∧ j = k ∧ l' = l then b else t.predLane j l' := by
  unfold setPredLane predLane
  dsimp only
  rw [show ∀ m b, ({ t.setPred k m with badP := b } : Team).pred j = (t.setPred k m).pred j from fun _ _ => rfl,
    pred_setPred]
  by_cases hk : k ≠ 0 ∧ j = k
  · obtain ⟨hk0, rfl⟩ := hk
    simp only [hk0, ne_eq, not_false_eq_true, true_and, and_self, if_true]
    cases b
    · simp only [Bool.false_eq_true, if_false, BitVec.getLsbD_and, BitVec.getLsbD_not, oneLane_bit _ _ h, h]
      by_cases hl : l' = l <;> simp [hl]
    · simp only [if_true, BitVec.getLsbD_or, oneLane_bit _ _ h]
      by_cases hl : l' = l <;> simp [hl]
  · rw [if_neg hk, if_neg (by tauto)]

/-- The predicates after a lane's writes. -/
theorem predLane_writes (ws : List (Nat × Bool)) (t : Team) (l k l' : Nat) (h : l' < 1024) :
    (ws.foldl (fun t (kb : Nat × Bool) => t.setPredLane kb.1 l kb.2) t).predLane k l' =
      if k ≠ 0 ∧ l' = l then ws.foldl (fun b w => if w.1 = k then w.2 else b) (t.predLane k l') else t.predLane k l' := by
  induction ws generalizing t with
  | nil => simp
  | cons w ws ih =>
    rw [List.foldl_cons, List.foldl_cons, ih, predLane_setPredLane _ _ _ _ _ _ h]
    by_cases hk : k ≠ 0 ∧ l' = l
    · obtain ⟨hk0, rfl⟩ := hk
      by_cases hw : w.1 = k
      · subst hw; simp [hk0]
      · have : ¬ k = w.1 := fun e => hw e.symm
        simp [hk0, hw, this]
    · rw [if_neg hk, if_neg hk, if_neg (by rintro ⟨h1, h2, h3⟩; exact hk ⟨h2 ▸ h1, h3⟩)]

theorem predLane_setX (t : Team) (l k : Nat) (v : BitVec 16) (j l' : Nat) : (t.setX l k v).predLane j l' = t.predLane j l' :=
  rfl

theorem predLane_putSide (t : Team) (l : Nat) (o : LaneRes) (k l' : Nat) (h : l' < 1024) :
    (t.putSide l o).predLane k l' = if k ≠ 0 ∧ l' = l then o.predOf k (t.predLane k l') else t.predLane k l' := by
  unfold putSide LaneRes.predOf
  dsimp only
  cases o.xw with
  | none => exact predLane_writes o.pw t l k l' h
  | some kv => exact predLane_writes o.pw t l k l' h

theorem xreg_writes (ws : List (Nat × Bool)) (t : Team) (l l' k : Nat) :
    (ws.foldl (fun t (kb : Nat × Bool) => t.setPredLane kb.1 l kb.2) t).xreg l' k = t.xreg l' k := by
  induction ws generalizing t with
  | nil => rfl
  | cons w ws ih => rw [List.foldl_cons, ih]; simp [xreg, setPredLane]

theorem xreg_putSide (t : Team) (l : Nat) (o : LaneRes) (l' k : Nat) (hk : k < 8) (ho : ∀ w, o.xw = some w → w.1 < 8) :
    (t.putSide l o).xreg l' k = if l' = l then o.xOf k (t.xreg l' k) else t.xreg l' k := by
  unfold putSide LaneRes.xOf
  dsimp only
  cases hx : o.xw with
  | none => rw [xreg_writes]; simp
  | some w =>
    obtain ⟨k', v⟩ := w
    have hk' : k' < 8 := ho _ hx
    have key : l' * 8 + k = l * 8 + k' ↔ l' = l ∧ k' = k := by omega
    have := xreg_writes o.pw t l l' k
    simp only [xreg] at this
    simp only [xreg, setX, tget_tset, key, this]
    by_cases h1 : l' = l <;> by_cases h2 : k' = k <;> simp [h1, h2]

end Team

/-! ## All lanes -/

/-- What the lane step does when nothing traps. -/
theorem runLane_ok {t0 : Team} {d : Operand} {w : Bool} {f : Nat → Except Cause LaneRes} {acc : Team × Traps} {l : Nat}
    {o : LaneRes} {q : Option Nat} (hq : t0.regOf l (if w then 2 else 1) (if w then 2 else 1) d = .ok q)
    (hf : f l = .ok o) (hx : o.fl &&& t0.ten = 0) :
    runLane t0 d w f acc l = (((acc.1.raise o.fl o.dfl).putLane l w q o.val).putSide l o, acc.2) := by
  simp only [runLane, hq, hf, hx, ne_eq, not_true_eq_false, if_false]

/-- One lane's writes. -/
def laneStep (t0 : Team) (d : Operand) (w : Bool) (res : Nat → LaneRes) (t : Team) (l : Nat) : Team :=
  ((t.raise (res l).fl (res l).dfl).putLane l w (t0.destReg d w l) (res l).val).putSide l (res l)

theorem runLane_fold {t0 : Team} {d : Operand} {w : Bool} {f : Nat → Except Cause LaneRes} {res : Nat → LaneRes}
    (ls : List Nat) (hd : ∀ l ∈ ls, (t0.regOf l (if w then 2 else 1) (if w then 2 else 1) d).isOk = true)
    (hf : ∀ l ∈ ls, f l = .ok (res l)) (hx : ∀ l ∈ ls, (res l).fl &&& t0.ten = 0) (acc : Team × Traps) :
    ls.foldl (runLane t0 d w f) acc = (ls.foldl (laneStep t0 d w res) acc.1, acc.2) := by
  induction ls generalizing acc with
  | nil => rfl
  | cons l ls ih =>
    have hd' := hd l (by simp)
    obtain ⟨q, hq⟩ : ∃ q, t0.regOf l (if w then 2 else 1) (if w then 2 else 1) d = .ok q := by
      cases h : t0.regOf l (if w then 2 else 1) (if w then 2 else 1) d with
      | error e => rw [h] at hd'; cases hd'
      | ok q => exact ⟨q, rfl⟩
    have hdest : t0.destReg d w l = q := by simp [Team.destReg, hq, Except.toOption]
    rw [List.foldl_cons, List.foldl_cons, runLane_ok hq (hf l (by simp)) (hx l (by simp)),
      ih (fun l h => hd l (by simp [h])) (fun l h => hf l (by simp [h])) (fun l h => hx l (by simp [h]))]
    simp only [laneStep, hdest]

theorem destReg_lt {t0 : Team} {d : Operand} {w : Bool} {l q : Nat} (h : t0.destReg d w l = some q) :
    q + (if w then 2 else 1) ≤ 255 := by
  unfold Team.destReg at h
  cases hr : t0.regOf l (if w then 2 else 1) (if w then 2 else 1) d with
  | error e => simp [hr, Except.toOption] at h
  | ok q' =>
    rw [hr] at h
    cases q' with
    | none => simp [Except.toOption] at h
    | some q' => simp [Except.toOption] at h; subst h; exact Team.regOf_lt t0 hr

theorem vreg_laneStep {t0 : Team} {d : Operand} {w : Bool} {res : Nat → LaneRes} (t : Team) (l l' r : Nat) (hr : r < 256) :
    (laneStep t0 d w res t l).vreg l' r =
      if l' = l then
        match t0.destReg d w l with
        | none => t.vreg l' r
        | some q =>
          if r = q then (res l).val.setWidth 32
          else if w ∧ r = q + 1 then ((res l).val >>> 32).setWidth 32
          else t.vreg l' r
      else t.vreg l' r := by
  unfold laneStep
  rw [Team.vreg_putSide]
  cases hq : t0.destReg d w l with
  | none => simp [Team.putLane]
  | some q => rw [Team.vreg_putLane _ _ _ (destReg_lt hq) hr]; simp

theorem vreg_fold {t0 : Team} {d : Operand} {w : Bool} {res : Nat → LaneRes} (ls : List Nat) (t : Team) (l r : Nat)
    (hr : r < 256) : (ls.foldl (laneStep t0 d w res) t).vreg l r =
      if l ∈ ls then
        match t0.destReg d w l with
        | none => t.vreg l r
        | some q =>
          if r = q then (res l).val.setWidth 32
          else if w ∧ r = q + 1 then ((res l).val >>> 32).setWidth 32
          else t.vreg l r
      else t.vreg l r := by
  induction ls generalizing t with
  | nil => simp
  | cons k ls ih =>
    rw [List.foldl_cons, ih, vreg_laneStep t k l r hr]
    by_cases hk : l = k
    · subst hk
      cases t0.destReg d w l with
      | none => simp
      | some q => by_cases h1 : r = q <;> by_cases h2 : w = true ∧ r = q + 1 <;> simp [h1, h2]
    · simp [hk]

theorem predLane_laneStep {t0 : Team} {d : Operand} {w : Bool} {res : Nat → LaneRes} (t : Team) (l k l' : Nat)
    (h : l' < 1024) : (laneStep t0 d w res t l).predLane k l' =
      if k ≠ 0 ∧ l' = l then (res l).predOf k (t.predLane k l') else t.predLane k l' := by
  unfold laneStep
  rw [Team.predLane_putSide _ _ _ _ _ h, Team.putLane_rest]; rfl

theorem predOf_idem (o : LaneRes) (k : Nat) (b : Bool) : o.predOf k (o.predOf k b) = o.predOf k b := by
  have hc : ∀ (ws : List (Nat × Bool)) (b c : Bool), (∃ w ∈ ws, w.1 = k) →
      ws.foldl (fun b w => if w.1 = k then w.2 else b) b = ws.foldl (fun b w => if w.1 = k then w.2 else b) c := by
    intro ws
    induction ws with
    | nil => rintro b c ⟨w, hw, -⟩; simp at hw
    | cons x ws ih =>
      rintro b c ⟨w, hw, hk⟩
      rw [List.foldl_cons, List.foldl_cons]
      by_cases hx : x.1 = k
      · simp [hx]
      · simp only [hx, if_false]
        rcases List.mem_cons.mp hw with e | e
        · exact absurd (e ▸ hk) hx
        · exact ih b c ⟨w, e, hk⟩
  have hn : ∀ (ws : List (Nat × Bool)) (b : Bool), (¬ ∃ w ∈ ws, w.1 = k) →
      ws.foldl (fun b w => if w.1 = k then w.2 else b) b = b := by
    intro ws
    induction ws with
    | nil => intro b _; rfl
    | cons x ws ih =>
      intro b h
      have hx : x.1 ≠ k := fun e => h ⟨x, by simp, e⟩
      rw [List.foldl_cons, if_neg hx]
      exact ih b (fun ⟨w, hw, e⟩ => h ⟨w, by simp [hw], e⟩)
  by_cases h : ∃ w ∈ o.pw, w.1 = k
  · exact hc o.pw _ b h
  · have e : o.predOf k b = b := hn o.pw b h
    rw [e, e]

theorem predLane_fold {t0 : Team} {d : Operand} {w : Bool} {res : Nat → LaneRes} (ls : List Nat) (t : Team) (k l : Nat)
    (h : l < 1024) : (ls.foldl (laneStep t0 d w res) t).predLane k l =
      if k ≠ 0 ∧ l ∈ ls then (res l).predOf k (t.predLane k l) else t.predLane k l := by
  induction ls generalizing t with
  | nil => simp
  | cons j ls ih =>
    rw [List.foldl_cons, ih, predLane_laneStep t j k l h]
    by_cases hk : k = 0
    · simp [hk]
    · by_cases hj : l = j
      · subst hj
        by_cases hm : l ∈ ls <;> simp [hk, hm, predOf_idem]
      · by_cases hm : l ∈ ls <;> simp [hk, hm, hj]

theorem xreg_laneStep {t0 : Team} {d : Operand} {w : Bool} {res : Nat → LaneRes} (t : Team) (l l' k : Nat) (hk : k < 8)
    (ho : ∀ w, (res l).xw = some w → w.1 < 8) : (laneStep t0 d w res t l).xreg l' k =
      if l' = l then (res l).xOf k (t.xreg l' k) else t.xreg l' k := by
  unfold laneStep
  rw [Team.xreg_putSide _ _ _ _ _ hk ho, Team.putLane_rest]; rfl

theorem xOf_idem (o : LaneRes) (k : Nat) (v : BitVec 16) : o.xOf k (o.xOf k v) = o.xOf k v := by
  unfold LaneRes.xOf
  cases o.xw with
  | none => rfl
  | some w => dsimp only; split <;> rfl

theorem xreg_fold {t0 : Team} {d : Operand} {w : Bool} {res : Nat → LaneRes} (ls : List Nat) (t : Team) (l k : Nat)
    (hk : k < 8) (ho : ∀ l ∈ ls, ∀ w, (res l).xw = some w → w.1 < 8) : (ls.foldl (laneStep t0 d w res) t).xreg l k =
      if l ∈ ls then (res l).xOf k (t.xreg l k) else t.xreg l k := by
  induction ls generalizing t with
  | nil => simp
  | cons j ls ih =>
    rw [List.foldl_cons, ih _ (fun l h => ho l (by simp [h])), xreg_laneStep t j l k hk (ho j (by simp))]
    by_cases hj : l = j
    · subst hj
      by_cases hm : l ∈ ls <;> simp [hm, xOf_idem]
    · simp [hj]

/-- The lane steps but for the registers and flags. -/
theorem laneStep_rest {t0 : Team} {d : Operand} {w : Bool} {res : Nat → LaneRes} (t : Team) (l : Nat) :
    laneStep t0 d w res t l = { t with
      v := (laneStep t0 d w res t l).v, badV := (laneStep t0 d w res t l).badV, p := (laneStep t0 d w res t l).p,
      badP := (laneStep t0 d w res t l).badP, x := (laneStep t0 d w res t l).x,
      badX := (laneStep t0 d w res t l).badX, fpflags := t.fpflags ||| (res l).fl, devflags := t.devflags ||| (res l).dfl,
      sum := { t.sum with fpf := t.sum.fpf ||| (res l).fl, dvf := t.sum.dvf ||| (res l).dfl } } := by
  unfold laneStep
  rw [Team.putSide_rest, Team.putLane_rest]
  rfl

theorem orAll_cons (l : Nat) (ls : List Nat) (f : Nat → W32) (x : W32) :
    (l :: ls).foldl (fun x l => x ||| f l) x = x ||| orAll (l :: ls) f := by
  have h : ∀ (ls : List Nat) (x : W32), ls.foldl (fun x l => x ||| f l) x = x ||| ls.foldl (fun x l => x ||| f l) 0 := by
    intro ls
    induction ls with
    | nil => intro x; simp
    | cons l ls ih =>
      intro x
      rw [List.foldl_cons, List.foldl_cons, ih (x ||| f l), ih (0 ||| f l), BitVec.or_assoc]
      congr 2; exact BitVec.zero_or.symm
  exact h _ x

theorem or_orAll_cons (l : Nat) (ls : List Nat) (f : Nat → W32) (x : W32) :
    x ||| orAll (l :: ls) f = (x ||| f l) ||| orAll ls f := by
  rw [← orAll_cons, List.foldl_cons]
  cases ls with
  | nil => simp [orAll]
  | cons j ls => exact orAll_cons j ls f _

theorem fold_rest {t0 : Team} {d : Operand} {w : Bool} {res : Nat → LaneRes} (ls : List Nat) (t : Team) :
    ls.foldl (laneStep t0 d w res) t = { t with
      v := (ls.foldl (laneStep t0 d w res) t).v, badV := (ls.foldl (laneStep t0 d w res) t).badV
      p := (ls.foldl (laneStep t0 d w res) t).p, badP := (ls.foldl (laneStep t0 d w res) t).badP
      x := (ls.foldl (laneStep t0 d w res) t).x, badX := (ls.foldl (laneStep t0 d w res) t).badX
      fpflags := t.fpflags ||| orAll ls (fun l => (res l).fl)
      devflags := t.devflags ||| orAll ls (fun l => (res l).dfl)
      sum := { t.sum with fpf := t.sum.fpf ||| orAll ls (fun l => (res l).fl)
                          dvf := t.sum.dvf ||| orAll ls (fun l => (res l).dfl) } } := by
  induction ls generalizing t with
  | nil => simp [orAll]
  | cons l ls ih =>
    rw [List.foldl_cons, ih, laneStep_rest]
    simp only [or_orAll_cons]

/-- The lanes of T are among the first 1,024. -/
theorem mem_lanes_lt {w : Nat} {m : Mask} {l : Nat} (h : l ∈ lanes w m) : l < 1024 := by
  simp only [lanes, List.mem_filter] at h
  exact BitVec.lt_of_getLsbD h.2

/-- A register-only instruction in which no lane traps. -/
theorem runLanes_wrote {t : Team} {m : Mask} {d : Operand} {w : Bool} {f : Nat → Except Cause LaneRes}
    {res : Nat → LaneRes} (hd : t.DestOk m d w) (hf : ∀ l ∈ t.lanesOf m, f l = .ok (res l)) (hx : t.NoFpx m res)
    (ho : ∀ l ∈ t.lanesOf m, ∀ w, (res l).xw = some w → w.1 < 8) :
    (runLanes t m d w f).2 = [] ∧ Wrote t (runLanes t m d w f).1 m d w res := by
  by_cases hu : d.isUni = true
  · obtain ⟨q, rfl⟩ : ∃ q, d = .s q := by cases d <;> simp_all [Operand.isUni]
    have hg : ∀ l, t.giver m (.s q) l = (t.lanesOf m).headD 0 := fun l => by simp [Team.giver, Operand.isUni]
    have hdest : ∀ l, t.destReg (.s q) w l = none := fun l => by simp [Team.destReg, Team.regOf, Except.toOption]
    simp only [runLanes, Operand.isUni, if_true]
    cases hl : lanes t.width m with
    | nil =>
      refine ⟨rfl, ?_⟩
      constructor <;> simp [runUniform, Team.lanesOf, Team.vregAfter, Team.uregAfter, hl, orAll]
    | cons l0 ls =>
      have hl0 : l0 ∈ t.lanesOf m := by simp [Team.lanesOf, hl]
      have hF := hf l0 hl0
      have hX := hx l0 hl0
      have hX' : ¬ (res l0).fl &&& t.ten ≠ 0 := by simp [hX]
      let u := (t.raise (res l0).fl (res l0).dfl).putUni w (.s q) (res l0).val
      have hrun : runUniform t (.s q) w f (l0 :: ls) = ((l0 :: ls).foldl (fun t l => t.putSide l (res l0)) u, []) := by
        simp only [runUniform, hF, hX', if_false]; rfl
      have hside : ∀ (js : List Nat) (u : Team), js.foldl (fun t l => t.putSide l (res l0)) u =
          { u with p := (js.foldl (fun t l => t.putSide l (res l0)) u).p
                   badP := (js.foldl (fun t l => t.putSide l (res l0)) u).badP
                   x := (js.foldl (fun t l => t.putSide l (res l0)) u).x
                   badX := (js.foldl (fun t l => t.putSide l (res l0)) u).badX } := by
        intro js
        induction js with
        | nil => intro u; rfl
        | cons j js ih => intro u; rw [List.foldl_cons, ih, Team.putSide_rest]
      have hpred : ∀ (js : List Nat) (u : Team) (k l : Nat), l < 1024 →
          (js.foldl (fun t l => t.putSide l (res l0)) u).predLane k l =
            if k ≠ 0 ∧ l ∈ js then (res l0).predOf k (u.predLane k l) else u.predLane k l := by
        intro js
        induction js with
        | nil => intro u k l _; simp
        | cons j js ih =>
          intro u k l h
          rw [List.foldl_cons, ih _ _ _ h, Team.predLane_putSide _ _ _ _ _ h]
          by_cases hk : k = 0
          · simp [hk]
          · by_cases hj : l = j
            · subst hj; by_cases hm : l ∈ js <;> simp [hk, hm, predOf_idem]
            · by_cases hm : l ∈ js <;> simp [hk, hm, hj]
      have hxr : ∀ (js : List Nat) (u : Team) (l k : Nat), k < 8 →
          (js.foldl (fun t l => t.putSide l (res l0)) u).xreg l k =
            if l ∈ js then (res l0).xOf k (u.xreg l k) else u.xreg l k := by
        intro js
        induction js with
        | nil => intro u l k _; simp
        | cons j js ih =>
          intro u l k h
          rw [List.foldl_cons, ih _ _ _ h, Team.xreg_putSide _ _ _ _ _ h (ho l0 hl0)]
          by_cases hj : l = j
          · subst hj; by_cases hm : l ∈ js <;> simp [hm, xOf_idem]
          · simp [hj]
      have hor : ∀ (g : Nat → W32) (js : List Nat) (x : W32), js ≠ [] → x ||| orAll js (fun _ => g l0) = x ||| g l0 := by
        intro g js
        induction js with
        | nil => intro x h; exact absurd rfl h
        | cons j js ih =>
          intro x _
          rw [or_orAll_cons]
          cases js with
          | nil => simp [orAll]
          | cons j' js => rw [ih _ (by simp), BitVec.or_assoc, BitVec.or_self]
      rw [hrun]
      refine ⟨rfl, ?_⟩
      have hmem : t.lanesOf m = l0 :: ls := hl
      constructor
      · intro l r hr
        rw [hside]
        simp only [Team.vregAfter, hdest]
        rw [ite_self]
        show (u.vreg l r) = _
        simp only [u]; rw [Team.putUni_rest]; rfl
      · intro r
        rw [hside]
        show u.ureg r = _
        simp only [Team.uregAfter, hg, hmem, List.headD_cons]
        by_cases hr : r = q.toNat
        · subst hr; simp [u, Team.putUni, Team.setU, Team.ureg]
        · simp [u, Team.putUni, Team.setU, Team.ureg, hr, Team.raise]
      · intro k l h
        rw [hpred _ _ _ _ h, hmem, hg, hmem]
        have : ∀ k l, u.predLane k l = t.predLane k l := by intro k l; simp only [u]; rw [Team.putUni_rest]; rfl
        simp [this]
      · intro l k h
        rw [hxr _ _ _ _ h, hmem, hg, hmem]
        have : ∀ l k, u.xreg l k = t.xreg l k := by intro k l; simp only [u]; rw [Team.putUni_rest]; rfl
        simp [this]
      · rw [hside, hmem]
        simp only [hg, hmem, List.headD_cons]
        rw [hor (fun l => (res l).fl) _ _ (by simp)]
        show u.fpflags = _
        simp only [u]; rw [Team.putUni_rest]; rfl
      · rw [hside, hmem]
        simp only [hg, hmem, List.headD_cons]
        rw [hor (fun l => (res l).dfl) _ _ (by simp)]
        show u.devflags = _
        simp only [u]; rw [Team.putUni_rest]; rfl
      · rw [hside, hmem]
        simp only [hg, hmem, List.headD_cons]
        rw [hor (fun l => (res l).fl) _ _ (by simp), hor (fun l => (res l).dfl) _ _ (by simp)]
        show u.sum = _
        simp only [u]; rw [Team.putUni_rest]; rfl
      · rw [hside]
        simp only [u]; rw [Team.putUni_rest]; rfl
  · have hg : ∀ l, t.giver m d l = l := fun l => by simp [Team.giver, hu]
    have hfold : runLanes t m d w f = ((t.lanesOf m).foldl (laneStep t d w res) t, []) := by
      simp only [runLanes, hu, Bool.false_eq_true, if_false]
      exact runLane_fold _ hd hf hx (t, [])
    rw [hfold]
    refine ⟨rfl, ?_⟩
    constructor
    · intro l r hr; exact vreg_fold _ _ _ _ hr
    · intro r
      rw [fold_rest]
      cases d <;> simp_all [Operand.isUni, Team.ureg, Team.uregAfter]
    · intro k l h; rw [predLane_fold _ _ _ _ h, hg]
    · intro l k h; rw [xreg_fold _ _ _ _ h ho, hg]
    · rw [fold_rest]; simp only [hg]
    · rw [fold_rest]; simp only [hg]
    · rw [fold_rest]; simp only [hg]
    · rw [fold_rest]

end Sys2Proof.Machine
end

