-- ==== Sys2Proof/Laws/Memory.lean ====
section
/-! SUPPORT. The bytes of HBM: a read after a write, what a write leaves alone, and the canonical form that every memory
operation keeps. -/
namespace Sys2Proof.Machine
namespace State

@[simp] theorem byte_setByte_self (s : State) (a : Nat) (b : Byte) : (s.setByte a b).byte a = b := by
  simp [byte, setByte]

@[simp] theorem byte_setByte_ne (s : State) {a c : Nat} (b : Byte) (h : c ≠ a) : (s.setByte a b).byte c = s.byte c := by
  simp [byte, setByte, h]

/-- A read of several bytes reads each of them. -/
theorem bytes_eq (s : State) (pa n : Nat) : s.bytes pa n = (List.range n).map (fun i => s.byte (pa + i)) := by
  apply List.map_congr_left
  intro i hi
  have hi := List.mem_range.mp hi
  exact tget_filter_key 0 (fun k => decide (pa ≤ k) && decide (k < pa + n)) _ _ (by simp; omega)

/-- Every byte outside [pa, pa + n) is as it was. -/
theorem byte_setBytes_out (s : State) (bs : List Byte) (pa a : Nat) (h : a < pa ∨ pa + bs.length ≤ a) :
    (s.setBytes pa bs).byte a = s.byte a :=
  tget_tputs_out 0 _ bs pa a h

/-- The byte at place i of a write. -/
theorem byte_setBytes_in (s : State) (bs : List Byte) (pa i : Nat) (h : i < bs.length) :
    (s.setBytes pa bs).byte (pa + i) = bs[i] :=
  tget_tputs_in 0 _ bs pa i h

/-- What is written is read back. -/
theorem bytes_setBytes (s : State) (bs : List Byte) (pa : Nat) : (s.setBytes pa bs).bytes pa bs.length = bs := by
  apply List.ext_getElem
  · simp [bytes_eq]
  · intro i h1 h2; simp [bytes_eq, byte_setBytes_in s bs pa i h2]

end State

/-! ## The canonical form -/

theorem wf_setByte (s : State) (a : Nat) (b : Byte) (h : Memory.wf s = true) : Memory.wf (s.setByte a b) = true :=
  twf_tset 0 _ a b h

theorem wf_setBytes (s : State) (bs : List Byte) (a : Nat) (h : Memory.wf s = true) : Memory.wf (s.setBytes a bs) = true :=
  twf_tputs 0 _ bs a h

theorem wf_zeroRange (s : State) (a n : Nat) (h : Memory.wf s = true) : Memory.wf (s.zeroRange a n) = true :=
  twf_filter 0 _ _ h

theorem wf_copyRange (s : State) (a b n : Nat) (h : Memory.wf s = true) : Memory.wf (s.copyRange a b n) = true :=
  twf_tsets 0 _ _ (wf_zeroRange s b n h)

/-- A charge changes no byte of memory. -/
theorem hbm_charge (s : State) (u : UnitName) (n : Nat) : (s.charge u n).mem.hbm = s.mem.hbm := by
  unfold State.charge
  dsimp only
  repeat' split
  all_goals first | rfl | (unfold State.dropGroup; split <;> rfl)

/-- A record of what cannot be read changes no byte of memory. -/
theorem hbm_ueAt (s : State) (pa n : Nat) (i : Ipt) : (s.ueAt pa n i).mem.hbm = s.mem.hbm := by
  unfold State.ueAt
  dsimp only
  split <;> split <;> first | rfl | exact hbm_charge _ _ _

theorem hbm_inheritBad (s : State) (base slot : Nat) (i : Ipt) : (s.inheritBad base slot i).mem.hbm = s.mem.hbm := by
  unfold State.inheritBad
  split
  · rfl
  · exact hbm_ueAt s base 4096 i

theorem wf_materialise (s : State) (p f g : Nat) (tag : BitVec 16) (slot : Nat) (i : Ipt) (h : Memory.wf s = true) :
    Memory.wf (s.materialise p f g tag slot i) = true := by
  have hb : Memory.wf (if i.attr = 2 then s.bump slot 4096 else s) = true := by split <;> exact h
  unfold State.materialise
  dsimp only
  cases i.zeroFb
  · have h' := wf_copyRange _ (f * 65536 + g * 4096) slot 4096 hb
    simpa [Memory.wf, hbm_inheritBad] using h'
  · exact wf_zeroRange _ _ _ hb

/-- Only the bytes of memory matter. -/
theorem wf_of_hbm {s s' : State} (e : s'.mem.hbm = s.mem.hbm) (h : Memory.wf s = true) : Memory.wf s' = true := by
  simpa [Memory.wf, e] using h

/-- A fold of operations that keep the form keeps it. -/
theorem wf_foldl {α : Type} (f : State → α → State) (hf : ∀ s x, Memory.wf s = true → Memory.wf (f s x) = true)
    (l : List α) (s : State) (h : Memory.wf s = true) : Memory.wf (l.foldl f s) = true := by
  induction l generalizing s with
  | nil => exact h
  | cons x l ih => exact ih _ (hf s x h)

theorem wf_reset : Memory.wf State.reset = true := rfl

theorem wf_setTeam (s : State) (a : Nat) (t : Team) (h : Memory.wf s = true) : Memory.wf (s.setTeam a t) = true := h
theorem wf_setThread (s : State) (a : Nat) (t : Thread) (h : Memory.wf s = true) : Memory.wf (s.setThread a t) = true := h
theorem wf_setCrew (s : State) (a : Nat) (c : Crew) (h : Memory.wf s = true) : Memory.wf (s.setCrew a c) = true := h
theorem wf_setFixture (s : State) (a : Nat) (f : Fixture) (h : Memory.wf s = true) : Memory.wf (s.setFixture a f) = true := h
theorem wf_setPart (s : State) (a : Nat) (p : Part) (h : Memory.wf s = true) : Memory.wf (s.setPart a p) = true := h
theorem wf_setEnc (s : State) (a : Nat) (e : Enclave) (h : Memory.wf s = true) : Memory.wf (s.setEnc a e) = true := h
theorem wf_setSquad (s : State) (a : Nat) (b : Barrier) (h : Memory.wf s = true) : Memory.wf (s.setSquad a b) = true := h
theorem wf_setIpt (s : State) (a : Nat) (i : Ipt) (h : Memory.wf s = true) : Memory.wf (s.setIpt a i) = true := h
theorem wf_bump (s : State) (a n : Nat) (h : Memory.wf s = true) : Memory.wf (s.bump a n) = true := h
theorem wf_log (s : State) (ty uc w u e : Nat) (d : W64) (h : Memory.wf s = true) :
    Memory.wf (s.log ty uc w u e d) = true := h

/-- A score event touches no memory. -/
theorem mem_charge (s : State) (u : UnitName) (n : Nat) : (s.charge u n).mem = s.mem := by
  unfold State.charge
  dsimp only
  split
  · cases u <;> first | rfl | (dsimp only [State.dropGroup]; split <;> rfl)
  · rfl

theorem wf_charge (s : State) (u : UnitName) (n : Nat) (h : Memory.wf s = true) : Memory.wf (s.charge u n) = true :=
  wf_of_hbm (congrArg Mem.hbm (mem_charge s u n)) h

end Sys2Proof.Machine
end

