-- ==== Sys2Proof/Laws/PerInstr.lean ====
section
/-! SUPPORT. The family `Encoding`: the word of every instruction of the opcode map carries its opcode in bits [95:86]
(06 R146, R169), and an event has no word. -/
namespace Sys2Proof.Laws.Encoding

/-- The word that encodes `i` holds `i`'s opcode in bits [95:86]; an instruction without a word has no opcode. -/
def Statement (i : Instr) : Prop := (encode i).map (fun w => fld w 86 10) = opcode i

theorem nop (a : SArgs) : Statement (.nop a) := congrArg some (op_packS a (by decide))
theorem bra (a : BArgs) : Statement (.bra a) := congrArg some (op_packB a (by decide))
theorem brx (a : BArgs) : Statement (.brx a) := congrArg some (op_packB a (by decide))
theorem call (a : BArgs) : Statement (.call a) := congrArg some (op_packB a (by decide))
theorem callx (a : BArgs) : Statement (.callx a) := congrArg some (op_packB a (by decide))
theorem ret (a : BArgs) : Statement (.ret a) := congrArg some (op_packB a (by decide))
theorem split (a : BArgs) : Statement (.split a) := congrArg some (op_packB a (by decide))
theorem join (a : BArgs) : Statement (.join a) := congrArg some (op_packB a (by decide))
theorem exit (a : BArgs) : Statement (.exit a) := congrArg some (op_packB a (by decide))
theorem yield (a : SArgs) : Statement (.yield a) := congrArg some (op_packS a (by decide))
theorem pcmpi (a : RArgs) : Statement (.pcmpi a) := congrArg some (op_packR a (by decide))
theorem pcmpf (a : RArgs) : Statement (.pcmpf a) := congrArg some (op_packR a (by decide))
theorem plog (a : RArgs) : Statement (.plog a) := congrArg some (op_packR a (by decide))
theorem pmovPack (a : RArgs) : Statement (.pmovPack a) := congrArg some (op_packR a (by decide))
theorem pmovUnpack (a : RArgs) : Statement (.pmovUnpack a) := congrArg some (op_packR a (by decide))
theorem pmovSet (a : RArgs) : Statement (.pmovSet a) := congrArg some (op_packR a (by decide))
theorem voteAll (a : RArgs) : Statement (.voteAll a) := congrArg some (op_packR a (by decide))
theorem voteAny (a : RArgs) : Statement (.voteAny a) := congrArg some (op_packR a (by decide))
theorem voteUni (a : RArgs) : Statement (.voteUni a) := congrArg some (op_packR a (by decide))
theorem voteBallot (a : RArgs) : Statement (.voteBallot a) := congrArg some (op_packR a (by decide))
theorem voteCount (a : RArgs) : Statement (.voteCount a) := congrArg some (op_packR a (by decide))
theorem rdsr (a : SArgs) : Statement (.rdsr a) := congrArg some (op_packS a (by decide))
theorem wrsr (a : SArgs) : Statement (.wrsr a) := congrArg some (op_packS a (by decide))
theorem grow (a : SArgs) : Statement (.grow a) := congrArg some (op_packS a (by decide))
theorem growGrant : ∀ x0, Statement (.growGrant x0) := fun _ => rfl
theorem shrink (a : SArgs) : Statement (.shrink a) := congrArg some (op_packS a (by decide))
theorem clock (a : SArgs) : Statement (.clock a) := congrArg some (op_packS a (by decide))
theorem bpt (a : SArgs) : Statement (.bpt a) := congrArg some (op_packS a (by decide))
theorem mov (a : RArgs) : Statement (.mov a) := congrArg some (op_packR a (by decide))
theorem movi (a : IArgs) : Statement (.movi a) := congrArg some (op_packI a (by decide) (by decide))
theorem moviHi (a : IArgs) : Statement (.moviHi a) := congrArg some (op_packI a (by decide) (by decide))
theorem sel (a : RArgs) : Statement (.sel a) := congrArg some (op_packR a (by decide))
theorem iadd (a : RArgs) : Statement (.iadd a) := congrArg some (op_packR a (by decide))
theorem isub (a : RArgs) : Statement (.isub a) := congrArg some (op_packR a (by decide))
theorem imul (a : RArgs) : Statement (.imul a) := congrArg some (op_packR a (by decide))
theorem imulh (a : RArgs) : Statement (.imulh a) := congrArg some (op_packR a (by decide))
theorem imad (a : RArgs) : Statement (.imad a) := congrArg some (op_packR a (by decide))
theorem imin (a : RArgs) : Statement (.imin a) := congrArg some (op_packR a (by decide))
theorem imax (a : RArgs) : Statement (.imax a) := congrArg some (op_packR a (by decide))
theorem iabs (a : RArgs) : Statement (.iabs a) := congrArg some (op_packR a (by decide))
theorem idiv (a : RArgs) : Statement (.idiv a) := congrArg some (op_packR a (by decide))
theorem irem (a : RArgs) : Statement (.irem a) := congrArg some (op_packR a (by decide))
theorem lop3 (a : RArgs) : Statement (.lop3 a) := congrArg some (op_packR a (by decide))
theorem and (a : RArgs) : Statement (.and a) := congrArg some (op_packR a (by decide))
theorem or (a : RArgs) : Statement (.or a) := congrArg some (op_packR a (by decide))
theorem xor (a : RArgs) : Statement (.xor a) := congrArg some (op_packR a (by decide))
theorem not (a : RArgs) : Statement (.not a) := congrArg some (op_packR a (by decide))
theorem shl (a : RArgs) : Statement (.shl a) := congrArg some (op_packR a (by decide))
theorem shr (a : RArgs) : Statement (.shr a) := congrArg some (op_packR a (by decide))
theorem sar (a : RArgs) : Statement (.sar a) := congrArg some (op_packR a (by decide))
theorem rotl (a : RArgs) : Statement (.rotl a) := congrArg some (op_packR a (by decide))
theorem funsh (a : RArgs) : Statement (.funsh a) := congrArg some (op_packR a (by decide))
theorem bfx (a : RArgs) : Statement (.bfx a) := congrArg some (op_packR a (by decide))
theorem bfi (a : RArgs) : Statement (.bfi a) := congrArg some (op_packR a (by decide))
theorem popc (a : RArgs) : Statement (.popc a) := congrArg some (op_packR a (by decide))
theorem clz (a : RArgs) : Statement (.clz a) := congrArg some (op_packR a (by decide))
theorem brev (a : RArgs) : Statement (.brev a) := congrArg some (op_packR a (by decide))
theorem idot4 (a : RArgs) : Statement (.idot4 a) := congrArg some (op_packR a (by decide))
theorem prmt (a : RArgs) : Statement (.prmt a) := congrArg some (op_packR a (by decide))
theorem xset (a : RArgs) : Statement (.xset a) := congrArg some (op_packR a (by decide))
theorem xadd (a : RArgs) : Statement (.xadd a) := congrArg some (op_packR a (by decide))
theorem xget (a : RArgs) : Statement (.xget a) := congrArg some (op_packR a (by decide))
theorem shfl (a : RArgs) : Statement (.shfl a) := congrArg some (op_packR a (by decide))
theorem redux (a : RArgs) : Statement (.redux a) := congrArg some (op_packR a (by decide))
theorem scan (a : RArgs) : Statement (.scan a) := congrArg some (op_packR a (by decide))
theorem matchLanes (a : RArgs) : Statement (.matchLanes a) := congrArg some (op_packR a (by decide))
theorem fadd (a : RArgs) : Statement (.fadd a) := congrArg some (op_packR a (by decide))
theorem fsub (a : RArgs) : Statement (.fsub a) := congrArg some (op_packR a (by decide))
theorem fmul (a : RArgs) : Statement (.fmul a) := congrArg some (op_packR a (by decide))
theorem ffma (a : RArgs) : Statement (.ffma a) := congrArg some (op_packR a (by decide))
theorem fmin (a : RArgs) : Statement (.fmin a) := congrArg some (op_packR a (by decide))
theorem fmax (a : RArgs) : Statement (.fmax a) := congrArg some (op_packR a (by decide))
theorem fclass (a : RArgs) : Statement (.fclass a) := congrArg some (op_packR a (by decide))
theorem frcp (a : RArgs) : Statement (.frcp a) := congrArg some (op_packR a (by decide))
theorem frsq (a : RArgs) : Statement (.frsq a) := congrArg some (op_packR a (by decide))
theorem fsqrt (a : RArgs) : Statement (.fsqrt a) := congrArg some (op_packR a (by decide))
theorem fdiv (a : RArgs) : Statement (.fdiv a) := congrArg some (op_packR a (by decide))
theorem fexp2 (a : RArgs) : Statement (.fexp2 a) := congrArg some (op_packR a (by decide))
theorem flog2 (a : RArgs) : Statement (.flog2 a) := congrArg some (op_packR a (by decide))
theorem fsin (a : RArgs) : Statement (.fsin a) := congrArg some (op_packR a (by decide))
theorem fcos (a : RArgs) : Statement (.fcos a) := congrArg some (op_packR a (by decide))
theorem ftanh (a : RArgs) : Statement (.ftanh a) := congrArg some (op_packR a (by decide))
theorem hadd2 (a : RArgs) : Statement (.hadd2 a) := congrArg some (op_packR a (by decide))
theorem hmul2 (a : RArgs) : Statement (.hmul2 a) := congrArg some (op_packR a (by decide))
theorem hfma2 (a : RArgs) : Statement (.hfma2 a) := congrArg some (op_packR a (by decide))
theorem hmin2 (a : RArgs) : Statement (.hmin2 a) := congrArg some (op_packR a (by decide))
theorem hmax2 (a : RArgs) : Statement (.hmax2 a) := congrArg some (op_packR a (by decide))
theorem dadd (a : RArgs) : Statement (.dadd a) := congrArg some (op_packR a (by decide))
theorem dmul (a : RArgs) : Statement (.dmul a) := congrArg some (op_packR a (by decide))
theorem dfma (a : RArgs) : Statement (.dfma a) := congrArg some (op_packR a (by decide))
theorem cvt (a : RArgs) : Statement (.cvt a) := congrArg some (op_packR a (by decide))
theorem cvtpk (a : RArgs) : Statement (.cvtpk a) := congrArg some (op_packR a (by decide))
theorem frnd (a : RArgs) : Statement (.frnd a) := congrArg some (op_packR a (by decide))
theorem fscl (a : RArgs) : Statement (.fscl a) := congrArg some (op_packR a (by decide))
theorem fdot2 (a : RArgs) : Statement (.fdot2 a) := congrArg some (op_packR a (by decide))
theorem brset (a : SArgs) : Statement (.brset a) := congrArg some (op_packS a (by decide))
theorem brget (a : SArgs) : Statement (.brget a) := congrArg some (op_packS a (by decide))
theorem ld (a : MArgs) : Statement (.ld a) := congrArg some (op_packM a (by decide))
theorem st (a : MArgs) : Statement (.st a) := congrArg some (op_packM a (by decide))
theorem ldx (a : MArgs) : Statement (.ldx a) := congrArg some (op_packM a (by decide))
theorem atom (a : MArgs) : Statement (.atom a) := congrArg some (op_packM a (by decide))
theorem atomc (a : MArgs) : Statement (.atomc a) := congrArg some (op_packM a (by decide))
theorem red (a : MArgs) : Statement (.red a) := congrArg some (op_packM a (by decide))
theorem cellSlotGrant : ∀ x0, Statement (.cellSlotGrant x0) := fun _ => rfl
theorem tagexhTimeout : ∀ x0, Statement (.tagexhTimeout x0) := fun _ => rfl
theorem lds (a : MArgs) : Statement (.lds a) := congrArg some (op_packM a (by decide))
theorem sts (a : MArgs) : Statement (.sts a) := congrArg some (op_packM a (by decide))
theorem atoms (a : MArgs) : Statement (.atoms a) := congrArg some (op_packM a (by decide))
theorem ldq (a : MArgs) : Statement (.ldq a) := congrArg some (op_packM a (by decide))
theorem stq (a : MArgs) : Statement (.stq a) := congrArg some (op_packM a (by decide))
theorem pref (a : MArgs) : Statement (.pref a) := congrArg some (op_packM a (by decide))
theorem pin (a : MArgs) : Statement (.pin a) := congrArg some (op_packM a (by decide))
theorem unpin (a : MArgs) : Statement (.unpin a) := congrArg some (op_packM a (by decide))
theorem cinv (a : MArgs) : Statement (.cinv a) := congrArg some (op_packM a (by decide))
theorem cflush (a : MArgs) : Statement (.cflush a) := congrArg some (op_packM a (by decide))
theorem icinv (a : MArgs) : Statement (.icinv a) := congrArg some (op_packM a (by decide))
theorem tdecl (a : TArgs) : Statement (.tdecl a) := congrArg some (op_packT a (by decide))
theorem tfree (a : TArgs) : Statement (.tfree a) := congrArg some (op_packT a (by decide))
theorem tfill (a : TArgs) : Statement (.tfill a) := congrArg some (op_packT a (by decide))
theorem tmcast (a : TArgs) : Statement (.tmcast a) := congrArg some (op_packT a (by decide))
theorem tdrain (a : TArgs) : Statement (.tdrain a) := congrArg some (op_packT a (by decide))
theorem tstat (a : TArgs) : Statement (.tstat a) := congrArg some (op_packT a (by decide))
theorem tileStateWaitEnd : ∀ x0, Statement (.tileStateWaitEnd x0) := fun _ => rfl
theorem tfillComplete : ∀ x0, Statement (.tfillComplete x0) := fun _ => rfl
theorem tdrainComplete : ∀ x0, Statement (.tdrainComplete x0) := fun _ => rfl
theorem tmcastDelivery : ∀ x0 x1, Statement (.tmcastDelivery x0 x1) := fun _ _ => rfl
theorem tmcastRetire : ∀ x0, Statement (.tmcastRetire x0) := fun _ => rfl
theorem cpyt (a : TArgs) : Statement (.cpyt a) := congrArg some (op_packT a (by decide))
theorem cpyz (a : TArgs) : Statement (.cpyz a) := congrArg some (op_packT a (by decide))
theorem copyOpRetire : ∀ x0, Statement (.copyOpRetire x0) := fun _ => rfl
theorem wsld (a : TArgs) : Statement (.wsld a) := congrArg some (op_packT a (by decide))
theorem wswin (a : SArgs) : Statement (.wswin a) := congrArg some (op_packS a (by decide))
theorem weightStoreRefresh : ∀ x0, Statement (.weightStoreRefresh x0) := fun _ => rfl
theorem ldw (a : TArgs) : Statement (.ldw a) := congrArg some (op_packT a (by decide))
theorem ldwWs (a : TArgs) : Statement (.ldwWs a) := congrArg some (op_packT a (by decide))
theorem swpw (a : TArgs) : Statement (.swpw a) := congrArg some (op_packT a (by decide))
theorem mma (a : TArgs) : Statement (.mma a) := congrArg some (op_packT a (by decide))
theorem mmas (a : TArgs) : Statement (.mmas a) := congrArg some (op_packT a (by decide))
theorem aclr (a : TArgs) : Statement (.aclr a) := congrArg some (op_packT a (by decide))
theorem ald (a : TArgs) : Statement (.ald a) := congrArg some (op_packT a (by decide))
theorem amov (a : TArgs) : Statement (.amov a) := congrArg some (op_packT a (by decide))
theorem amovTile (a : TArgs) : Statement (.amovTile a) := congrArg some (op_packT a (by decide))
theorem scacc (a : TArgs) : Statement (.scacc a) := congrArg some (op_packT a (by decide))
theorem wstat (a : TArgs) : Statement (.wstat a) := congrArg some (op_packT a (by decide))
theorem matrixOpRetire : ∀ x0, Statement (.matrixOpRetire x0) := fun _ => rfl
theorem fence (a : SArgs) : Statement (.fence a) := congrArg some (op_packS a (by decide))
theorem bar (a : SArgs) : Statement (.bar a) := congrArg some (op_packS a (by decide))
theorem barq (a : SArgs) : Statement (.barq a) := congrArg some (op_packS a (by decide))
theorem arrive (a : SArgs) : Statement (.arrive a) := congrArg some (op_packS a (by decide))
theorem await (a : SArgs) : Statement (.await a) := congrArg some (op_packS a (by decide))
theorem awaitWake : ∀ x0, Statement (.awaitWake x0) := fun _ => rfl
theorem stgrel (a : SArgs) : Statement (.stgrel a) := congrArg some (op_packS a (by decide))
theorem stgacq (a : SArgs) : Statement (.stgacq a) := congrArg some (op_packS a (by decide))
theorem stgacqWake : ∀ x0, Statement (.stgacqWake x0) := fun _ => rfl
theorem wait (a : SArgs) : Statement (.wait a) := congrArg some (op_packS a (by decide))
theorem waitWake : ∀ x0, Statement (.waitWake x0) := fun _ => rfl
theorem cntrd (a : SArgs) : Statement (.cntrd a) := congrArg some (op_packS a (by decide))
theorem sleep (a : SArgs) : Statement (.sleep a) := congrArg some (op_packS a (by decide))
theorem sleepEnd : ∀ x0, Statement (.sleepEnd x0) := fun _ => rfl
theorem tagnew (a : SArgs) : Statement (.tagnew a) := congrArg some (op_packS a (by decide))
theorem tagnewGrant : ∀ x0, Statement (.tagnewGrant x0) := fun _ => rfl
theorem tagnewTimeout : ∀ x0, Statement (.tagnewTimeout x0) := fun _ => rfl
theorem tagset (a : SArgs) : Statement (.tagset a) := congrArg some (op_packS a (by decide))
theorem tagget (a : SArgs) : Statement (.tagget a) := congrArg some (op_packS a (by decide))
theorem tagret (a : SArgs) : Statement (.tagret a) := congrArg some (op_packS a (by decide))
theorem tagCellFree : ∀ x0 x1, Statement (.tagCellFree x0 x1) := fun _ _ => rfl
theorem tagqryFree (a : SArgs) : Statement (.tagqryFree a) := congrArg some (op_packS a (by decide))
theorem tagqryTag (a : SArgs) : Statement (.tagqryTag a) := congrArg some (op_packS a (by decide))
theorem tagqryPool (a : SArgs) : Statement (.tagqryPool a) := congrArg some (op_packS a (by decide))
theorem msdecl (a : SArgs) : Statement (.msdecl a) := congrArg some (op_packS a (by decide))
theorem msdeclRec (a : SArgs) : Statement (.msdeclRec a) := congrArg some (op_packS a (by decide))
theorem msdrop (a : SArgs) : Statement (.msdrop a) := congrArg some (op_packS a (by decide))
theorem msqryCap (a : SArgs) : Statement (.msqryCap a) := congrArg some (op_packS a (by decide))
theorem msqryItem (a : SArgs) : Statement (.msqryItem a) := congrArg some (op_packS a (by decide))
theorem msqryRst (a : SArgs) : Statement (.msqryRst a) := congrArg some (op_packS a (by decide))
theorem msqryLost (a : SArgs) : Statement (.msqryLost a) := congrArg some (op_packS a (by decide))
theorem pfret (a : SArgs) : Statement (.pfret a) := congrArg some (op_packS a (by decide))
theorem syscall (a : SArgs) : Statement (.syscall a) := congrArg some (op_packS a (by decide))
theorem queueTailPoll : ∀ x0, Statement (.queueTailPoll x0) := fun _ => rfl
theorem trap (a : SArgs) : Statement (.trap a) := congrArg some (op_packS a (by decide))
theorem eretRetry (a : SArgs) : Statement (.eretRetry a) := congrArg some (op_packS a (by decide))
theorem eretSkip (a : SArgs) : Statement (.eretSkip a) := congrArg some (op_packS a (by decide))
theorem eretKill (a : SArgs) : Statement (.eretKill a) := congrArg some (op_packS a (by decide))
theorem eretResume (a : SArgs) : Statement (.eretResume a) := congrArg some (op_packS a (by decide))
theorem eretDecline (a : SArgs) : Statement (.eretDecline a) := congrArg some (op_packS a (by decide))
theorem eretAbort (a : SArgs) : Statement (.eretAbort a) := congrArg some (op_packS a (by decide))
theorem launch (a : SArgs) : Statement (.launch a) := congrArg some (op_packS a (by decide))
theorem evsig (a : SArgs) : Statement (.evsig a) := congrArg some (op_packS a (by decide))
theorem evsigClr (a : SArgs) : Statement (.evsigClr a) := congrArg some (op_packS a (by decide))
theorem evwait (a : SArgs) : Statement (.evwait a) := congrArg some (op_packS a (by decide))
theorem evwaitTry (a : SArgs) : Statement (.evwaitTry a) := congrArg some (op_packS a (by decide))
theorem evwaitWake : ∀ x0, Statement (.evwaitWake x0) := fun _ => rfl
theorem lease (a : SArgs) : Statement (.lease a) := congrArg some (op_packS a (by decide))
theorem unlease (a : SArgs) : Statement (.unlease a) := congrArg some (op_packS a (by decide))
theorem tlbinv (a : SArgs) : Statement (.tlbinv a) := congrArg some (op_packS a (by decide))
theorem tlbinvAll (a : SArgs) : Statement (.tlbinvAll a) := congrArg some (op_packS a (by decide))
theorem tlbinvAp (a : SArgs) : Statement (.tlbinvAp a) := congrArg some (op_packS a (by decide))
theorem encreate (a : SArgs) : Statement (.encreate a) := congrArg some (op_packS a (by decide))
theorem enadd (a : SArgs) : Statement (.enadd a) := congrArg some (op_packS a (by decide))
theorem enseal (a : SArgs) : Statement (.enseal a) := congrArg some (op_packS a (by decide))
theorem enenter (a : SArgs) : Statement (.enenter a) := congrArg some (op_packS a (by decide))
theorem enexit (a : SArgs) : Statement (.enexit a) := congrArg some (op_packS a (by decide))
theorem enpgout (a : SArgs) : Statement (.enpgout a) := congrArg some (op_packS a (by decide))
theorem enpgin (a : SArgs) : Statement (.enpgin a) := congrArg some (op_packS a (by decide))
theorem enkill (a : SArgs) : Statement (.enkill a) := congrArg some (op_packS a (by decide))
theorem enclaveDeparture : ∀ x0, Statement (.enclaveDeparture x0) := fun _ => rfl
theorem tsavePart (a : SArgs) : Statement (.tsavePart a) := congrArg some (op_packS a (by decide))
theorem tsaveExport (a : SArgs) : Statement (.tsaveExport a) := congrArg some (op_packS a (by decide))
theorem trestPart (a : SArgs) : Statement (.trestPart a) := congrArg some (op_packS a (by decide))
theorem trestImport (a : SArgs) : Statement (.trestImport a) := congrArg some (op_packS a (by decide))
theorem crewPlacement : ∀ x0, Statement (.crewPlacement x0) := fun _ => rfl
theorem placementAged : ∀ x0, Statement (.placementAged x0) := fun _ => rfl
theorem teamAged : ∀ x0, Statement (.teamAged x0) := fun _ => rfl
theorem teamRetire : ∀ x0, Statement (.teamRetire x0) := fun _ => rfl
theorem fixtureRetire : ∀ x0, Statement (.fixtureRetire x0) := fun _ => rfl
theorem deadlineExpiry : ∀ x0, Statement (.deadlineExpiry x0) := fun _ => rfl
theorem calendarSlotStart : ∀ x0 x1, Statement (.calendarSlotStart x0 x1) := fun _ _ => rfl
theorem leasePeriodBoundary : Statement (.leasePeriodBoundary) := rfl
theorem walkBatchAged : ∀ x0, Statement (.walkBatchAged x0) := fun _ => rfl
theorem collectiveRetire : ∀ x0, Statement (.collectiveRetire x0) := fun _ => rfl
theorem uwcAck : ∀ x0, Statement (.uwcAck x0) := fun _ => rfl
theorem apertureRequestFail : ∀ x0 x1, Statement (.apertureRequestFail x0 x1) := fun _ _ => rfl
theorem controlThreadNotice : ∀ x0, Statement (.controlThreadNotice x0) := fun _ => rfl
theorem correctedError : ∀ x0, Statement (.correctedError x0) := fun _ => rfl
theorem unitTestComplete : ∀ x0 x1, Statement (.unitTestComplete x0 x1) := fun _ _ => rfl
theorem scoreHalving : Statement (.scoreHalving) := rfl
theorem pcfg : ∀ x0, Statement (.pcfg x0) := fun _ => rfl
theorem prel : ∀ x0, Statement (.prel x0) := fun _ => rfl
theorem pqry : ∀ x0, Statement (.pqry x0) := fun _ => rfl
theorem spdmx : ∀ x0, Statement (.spdmx x0) := fun _ => rfl
theorem pmapMap : ∀ x0, Statement (.pmapMap x0) := fun _ => rfl
theorem pmapUnmap : ∀ x0, Statement (.pmapUnmap x0) := fun _ => rfl
theorem pmapAddAlias : ∀ x0, Statement (.pmapAddAlias x0) := fun _ => rfl
theorem pmapRemoveAlias : ∀ x0, Statement (.pmapRemoveAlias x0) := fun _ => rfl
theorem apset : ∀ x0, Statement (.apset x0) := fun _ => rfl
theorem cpoolAdd : ∀ x0, Statement (.cpoolAdd x0) := fun _ => rfl
theorem cpoolRemove : ∀ x0, Statement (.cpoolRemove x0) := fun _ => rfl
theorem calsetArm : ∀ x0, Statement (.calsetArm x0) := fun _ => rfl
theorem calsetDisarm : ∀ x0, Statement (.calsetDisarm x0) := fun _ => rfl
theorem lpset : ∀ x0, Statement (.lpset x0) := fun _ => rfl
theorem cqset : ∀ x0, Statement (.cqset x0) := fun _ => rfl
theorem pdbindBind : ∀ x0, Statement (.pdbindBind x0) := fun _ => rfl
theorem pdbindUnbind : ∀ x0, Statement (.pdbindUnbind x0) := fun _ => rfl
theorem bssetCreate : ∀ x0, Statement (.bssetCreate x0) := fun _ => rfl
theorem bssetDestroy : ∀ x0, Statement (.bssetDestroy x0) := fun _ => rfl
theorem crset : ∀ x0, Statement (.crset x0) := fun _ => rfl
theorem fqset : ∀ x0, Statement (.fqset x0) := fun _ => rfl
theorem ctset : ∀ x0, Statement (.ctset x0) := fun _ => rfl
theorem osfatal : ∀ x0, Statement (.osfatal x0) := fun _ => rfl
theorem bbrd : ∀ x0, Statement (.bbrd x0) := fun _ => rfl
theorem hqry : ∀ x0, Statement (.hqry x0) := fun _ => rfl
theorem monitorRequestUnknown : ∀ x0 x1, Statement (.monitorRequestUnknown x0 x1) := fun _ _ => rfl
theorem getVersion : ∀ x0, Statement (.getVersion x0) := fun _ => rfl
theorem getCapabilities : ∀ x0, Statement (.getCapabilities x0) := fun _ => rfl
theorem negotiateAlgorithms : ∀ x0, Statement (.negotiateAlgorithms x0) := fun _ => rfl
theorem getDigests : ∀ x0, Statement (.getDigests x0) := fun _ => rfl
theorem getCertificate : ∀ x0 x1 x2 x3, Statement (.getCertificate x0 x1 x2 x3) := fun _ _ _ _ => rfl
theorem challenge : ∀ x0 x1 x2, Statement (.challenge x0 x1 x2) := fun _ _ _ => rfl
theorem getMeasurements : ∀ x0 x1 x2 x3, Statement (.getMeasurements x0 x1 x2 x3) := fun _ _ _ _ => rfl
theorem keyExchange : ∀ x0 x1, Statement (.keyExchange x0 x1) := fun _ _ => rfl
theorem finish : ∀ x0 x1, Statement (.finish x0 x1) := fun _ _ => rfl
theorem endSession : ∀ x0 x1, Statement (.endSession x0 x1) := fun _ _ => rfl
theorem chunkSend : ∀ x0 x1 x2 x3 x4, Statement (.chunkSend x0 x1 x2 x3 x4) := fun _ _ _ _ _ => rfl
theorem chunkGet : ∀ x0 x1 x2, Statement (.chunkGet x0 x1 x2) := fun _ _ _ => rfl
theorem encreport : ∀ x0 x1 x2, Statement (.encreport x0 x1 x2) := fun _ _ _ => rfl
theorem spdmUnsupported : ∀ x0 x1, Statement (.spdmUnsupported x0 x1) := fun _ _ => rfl
theorem fwmWrite : ∀ x0 x1 x2, Statement (.fwmWrite x0 x1 x2) := fun _ _ _ => rfl
theorem fwlockWrite : ∀ x0 x1, Statement (.fwlockWrite x0 x1) := fun _ _ => rfl
theorem pcieInboundRead : ∀ x0 x1 x2 x3, Statement (.pcieInboundRead x0 x1 x2 x3) := fun _ _ _ _ => rfl
theorem pcieInboundWrite : ∀ x0 x1 x2 x3, Statement (.pcieInboundWrite x0 x1 x2 x3) := fun _ _ _ _ => rfl
theorem pcieInboundAtomic : ∀ x0 x1 x2 x3, Statement (.pcieInboundAtomic x0 x1 x2 x3) := fun _ _ _ _ => rfl
theorem portUHotReset : Statement (.portUHotReset) := rfl
theorem vfFlr : ∀ x0, Statement (.vfFlr x0) := fun _ => rfl
theorem tdiLeaveRun : ∀ x0 x1, Statement (.tdiLeaveRun x0 x1) := fun _ _ => rfl
theorem burraFlitReceive : ∀ x0 x1, Statement (.burraFlitReceive x0 x1) := fun _ _ => rfl
theorem burraInboundRequest : ∀ x0 x1 x2 x3, Statement (.burraInboundRequest x0 x1 x2 x3) := fun _ _ _ _ => rfl
theorem burraLaneGroupFail : ∀ x0, Statement (.burraLaneGroupFail x0) := fun _ => rfl
theorem burraRekeyRequest : ∀ x0 x1, Statement (.burraRekeyRequest x0 x1) := fun _ _ => rfl
theorem burraSendStop : ∀ x0 x1, Statement (.burraSendStop x0 x1) := fun _ _ => rfl
theorem burraKeyInstalled : ∀ x0 x1, Statement (.burraKeyInstalled x0 x1) := fun _ _ => rfl
theorem burraStreamFail : ∀ x0 x1, Statement (.burraStreamFail x0 x1) := fun _ _ => rfl
theorem ptpTimestamp : ∀ x0, Statement (.ptpTimestamp x0) := fun _ => rfl
theorem ppsPulse : Statement (.ppsPulse) := rfl
theorem timeStep : ∀ x0, Statement (.timeStep x0) := fun _ => rfl
theorem syncLoss : Statement (.syncLoss) := rfl
theorem powerUp : ∀ x0 x1 x2, Statement (.powerUp x0 x1 x2) := fun _ _ _ => rfl
theorem bankCharged : Statement (.bankCharged) := rfl
theorem resetN : Statement (.resetN) := rfl
theorem powerFail : Statement (.powerFail) := rfl
theorem pfHandlerEntry : ∀ x0, Statement (.pfHandlerEntry x0) := fun _ => rfl
theorem pfHandlerBudget : ∀ x0, Statement (.pfHandlerBudget x0) := fun _ => rfl
theorem quiesceComplete : Statement (.quiesceComplete) := rfl
theorem saveComplete : Statement (.saveComplete) := rfl
theorem bankExhausted : Statement (.bankExhausted) := rfl
theorem thermalTrip : ∀ x0, Statement (.thermalTrip x0) := fun _ => rfl
theorem throttleDown : ∀ x0 x1 x2, Statement (.throttleDown x0 x1 x2) := fun _ _ _ => rfl
theorem throttleUp : ∀ x0 x1 x2, Statement (.throttleUp x0 x1 x2) := fun _ _ _ => rfl
theorem bankLow : Statement (.bankLow) := rfl
theorem modstatWrite : ∀ x0, Statement (.modstatWrite x0) := fun _ => rfl
theorem plimWrite : ∀ x0, Statement (.plimWrite x0) := fun _ => rfl
theorem yieldEnd : ∀ x0, Statement (.yieldEnd x0) := fun _ => rfl
theorem portULinkDown : Statement (.portULinkDown) := rfl
theorem tdispRequest : ∀ x0 x1 x2, Statement (.tdispRequest x0 x1 x2) := fun _ _ _ => rfl
theorem ideKmRequest : ∀ x0 x1 x2, Statement (.ideKmRequest x0 x1 x2) := fun _ _ _ => rfl
theorem controlThreadRestart : ∀ x0 x1, Statement (.controlThreadRestart x0 x1) := fun _ _ => rfl

end Sys2Proof.Laws.Encoding
end

