-- ==== Sys2Proof/Tests/Slice0.lean ====
section
/-! SUPPORT. Tests: ill-formed terms that the checks refuse, words decoded, single steps, and for each statement a state
that meets its hypotheses. Expected results are from the spec's tables and worked examples, or computed by hand from its
rules; the comment beside a test names them. -/
set_option maxRecDepth 100000
set_option exponentiation.threshold 1100
namespace Sys2Proof.Tests
open Sys2Proof.Machine

/-! ## Helpers -/

def g0 : Guard := { neg := false, p := 0 }
/-- p1, which is false in every lane of a fresh team. -/
def gF : Guard := { neg := false, p := 1 }
def vz : Operand := .v 255

/-- R format: D v4, A 3 and B 2 as immediates. -/
def ra (ty : Ty) (fn : BitVec 20 := 0) (d : Operand := .v 4) (a : Operand := .imm 19) (b : Operand := .imm 18)
    (c : Operand := vz) (g : Guard := g0) : RArgs :=
  { g := g, yield := false, d := d, a := a, b := b, c := c, ty := ty, rnd := .rne, ftzi := false, ftzo := false, sat := false,
    na := false, aa := false, nb := false, ab := false, nc := false, ac := false, fn := fn }
def ia (ty : Ty) (imm : W32) (d : Operand := .v 4) : IArgs := { g := g0, yield := false, d := d, ty := ty, imm := imm }
def ba (disp : W32) (d : Operand := vz) (a : Operand := vz) (g : Guard := g0) : BArgs :=
  { g := g, yield := false, d := d, a := a, disp := disp }
def sa (sfn : BitVec 45 := 0) (d : Operand := vz) (a : Operand := vz) (b : Operand := vz) (pd : BitVec 4 := 0)
    (g : Guard := g0) : SArgs := { g := g, d := d, a := a, b := b, pd := pd, sfn := sfn }
def ma (ty : Ty) (d : Operand := .v 4) (a : Operand := .imm 16) (b : Operand := vz) (mfn : BitVec 4 := 0)
    (br : BitVec 4 := 0) (disp : BitVec 24 := 0) (ord : Ord4 := .rlx) (scope : Scope := .team) (vec : Vec := .one)
    (g : Guard := g0) : MArgs :=
  { g := g, cc := 0, yield := false, d := d, a := a, b := b, br := br, ord := ord, scope := scope, vec := vec, ty := ty,
    mfn := mfn, disp := disp }
def ta (ty : Option Ty := none) (tfn : BitVec 18 := 0) (d : Operand := vz) (a : Operand := vz) (b : Operand := vz)
    (t0 t1 : BitVec 6 := 0) (acc : BitVec 2 := 0) (br : BitVec 4 := 0) (g : Guard := g0) : TArgs :=
  { g := g, cc := 0, yield := false, d := d, a := a, b := b, ta := t0, tb := t1, acc := acc, ty := ty, rnd := .rne, sat := false,
    br := br, ftzo := false, tfn := tfn }

/-- A team of 32 lanes with lane 0 live, at slot 0 of a held block of one slot. -/
def t1 : Team := { Team.blank 32 64 with
  run := .running, active := 1, live := 1, pc := 0x10000, block := mkBlock [0], blockAt := 0x10000 }
/-- The machine with the team `t` as team 0 of crew 0, in enclave 1 of partition 0 on core 0. -/
def onTeam (t : Team) : State := (State.reset.placeWord (BitVec.ofNat 96 (0x1C0 * 2 ^ 86))).setTeam 128 t
def sS : State := onTeam t1
/-- Two lanes, p1 true in lane 0 alone. -/
def t2 : Team := { t1 with active := 3, live := 3, p := [(1, 1)] }
def sD : State := onTeam t2
/-- Control thread 0 outside every enclave, at slot 0 of a held block of one slot. -/
def th1 : Team := { Team.idle with run := .running, pc := 0x10000, block := mkBlock [0], blockAt := 0x10000 }
def onThread (t : Team) : State := (State.reset.placeWord (BitVec.ofNat 96 (1 * 2 ^ 86))).setTeam 0 t
def sT : State := onThread th1
/-- Control thread 0 inside enclave 1 of partition 0. -/
def sE : State := ((onThread th1).setEnc 1 { Enclave.free with st := .sealed, part := 0, threads := 1 }).setThread 0
  { Thread.idle with eid := 1 }

/-- The next state of a step, or reset where there is none. -/
def nx : Host.Outcome State Fault Refusal → State
  | .next s => s
  | _ => State.reset

/-! ## The issue conditions of the statements as a Bool -/

def issB (i : Instr) (r : Rule) (s : State) : Bool :=
  (issueCheck s s.cur i r).isNone && (s.me.ueLanes (s.mask r.guard) i r).isEmpty && (!r.banned || s.me.run != .pfHandler)

theorem iss {i : Instr} {r : Rule} {s : State} (h : issB i r s = true) : Issues i r s := by
  simp only [issB, Bool.and_eq_true, Option.isNone_iff_eq_none, List.isEmpty_iff, Bool.or_eq_true, Bool.not_eq_true',
    bne_iff_ne] at h
  exact ⟨h.1.1, h.1.2, h.2⟩

def rdyB (i : Instr) (r : Rule) (s : State) (d : Operand) (wide : Bool) : Bool :=
  issB i r s && s.me.ten == 0 &&
    (s.me.lanesOf (s.mask r.guard)).all (fun l => (s.me.regOf l (if wide then 2 else 1) (if wide then 2 else 1) d).isOk)

theorem rdy {i : Instr} {r : Rule} {s : State} {d : Operand} {wide : Bool} (h : rdyB i r s d wide = true)
    (res : Nat → LaneRes) : Ready i r s d wide res := by
  simp only [rdyB, Bool.and_eq_true, beq_iff_eq, List.all_eq_true] at h
  exact ⟨iss h.1.1, h.2, fun l _ => by rw [h.1.2]; exact BitVec.and_zero⟩


theorem rdyl {r : Rule} {s : State} {d : Operand} {wide : Bool} {l : List Instr}
    (h : l.all (fun i => rdyB i r s d wide) = true) : ∀ i ∈ l, ∀ res, Ready i r s d wide res :=
  fun i hi => rdy (List.all_eq_true.mp h i hi)

theorem issl {r : Rule} {s : State} {l : List Instr} (h : l.all (fun i => issB i r s) = true) : ∀ i ∈ l, Issues i r s :=
  fun i hi => iss (List.all_eq_true.mp h i hi)

/-! ## Witnesses: the register-only families

A and B read 3 and 2 in lane 0, C reads 1 where it is used, no flag is enabled, so a completion's hypotheses hold whatever
the results are. -/

/-- The operands of `ra`, read as integers, patterns, words and data. -/
theorem wit_reads :
    (sS.me.ReadsI (sS.mask g0) .i32 (.imm 19) (fun _ => 3) ∧ sS.me.ReadsI (sS.mask g0) .i32 (.imm 18) (fun _ => 2) ∧
      sS.me.ReadsI (sS.mask g0) .i32 (.imm 17) (fun _ => 1)) ∧
    (∀ ty ∈ [Ty.b32, .f32, .f64, .w64, .i32], sS.me.ReadsP (sS.mask g0) ty (.imm 19) (fun _ => 3) ∧
      sS.me.ReadsP (sS.mask g0) ty (.imm 18) (fun _ => 2) ∧ sS.me.ReadsP (sS.mask g0) ty (.imm 17) (fun _ => 1)) ∧
    (sS.me.Reads32 (sS.mask g0) (.imm 19) (fun _ => 3) ∧ sS.me.Reads32 (sS.mask g0) (.imm 18) (fun _ => 2) ∧
      sS.me.Reads32 (sS.mask g0) (.imm 17) (fun _ => 1) ∧ sS.me.Reads32 (sS.mask g0) vz (fun _ => 0)) ∧
    (∀ wide, sS.me.ReadsD (sS.mask g0) wide (.imm 19) (fun _ => 3) ∧ sS.me.ReadsD (sS.mask g0) wide (.imm 18) (fun _ => 2) ∧
      sS.me.ReadsD (sS.mask g0) wide (.v 4) (fun _ => 0)) := by
  unfold Team.ReadsI Team.ReadsP Team.Reads32 Team.ReadsD
  exact ⟨by decide, by decide, by decide, by decide⟩

def c1 (ty : Ty) (fn : BitVec 20 := 0) : RArgs := ra ty fn (.v 4) (.imm 19) (.imm 18) (.imm 17)
def u1 (ty : Ty) (fn : BitVec 20 := 0) (d : Operand := .v 4) : RArgs := ra ty fn d (.imm 19) vz
def n0 (ty : Ty) (fn : BitVec 20 := 0) (d : Operand := vz) : RArgs := ra ty fn d vz vz

theorem wit_IntegerAddAndSubtract : ∀ i ∈ [Instr.iadd (ra .i32), .isub (ra .i32)], ∀ res,
    Ready i (ruleR (ra .i32) 1 1 1) sS (.v 4) false res := rdyl (by decide)

theorem wit_IntegerMultiplyAndCompare :
    (∀ i ∈ [Instr.imul (ra .i32), .imulh (ra .i32), .imin (ra .i32), .imax (ra .i32)], ∀ res,
      Ready i (ruleR (ra .i32) 1 1 1) sS (.v 4) false res) ∧
    (∀ res, Ready (.imad (c1 .i32)) (ruleR (c1 .i32) 1 1 1) sS (.v 4) false res) ∧
    (∀ res, Ready (.imad (c1 .i32 1)) (ruleR (c1 .i32 1) 1 1 2) sS (.v 4) true res) ∧
    (∀ res, Ready (.iabs (u1 .i32)) (ruleR (u1 .i32) 1 1 1) sS (.v 4) false res) :=
  ⟨rdyl (by decide), rdy (by decide), rdy (by decide), rdy (by decide)⟩

/-- A divisor of 0 with the trap off, and with it on for a uniform and for a per-lane destination. -/
theorem wit_IntegerDivision :
    (∀ i ∈ [Instr.idiv (ra .i32), .irem (ra .i32)], ∀ res, Ready i (ruleR (ra .i32) 1 1 1) sS (.v 4) false res) ∧
    (let s := onTeam { t1 with fpmode := 0x8000 }
     let u := ra .i32 0 (.s 3) (.imm 19) (.imm 16)
     let v := ra .i32 0 (.v 4) (.imm 19) (.imm 16)
     s.me.fpmode.getLsbD 15 = true ∧ (∀ l ∈ s.me.lanesOf (s.mask g0), s.me.opI l .i32 (.imm 16) = .ok 0) ∧
     (∀ i ∈ [Instr.idiv u, .irem u], issB i (ruleR u 1 1 1) s = true) ∧
     (∀ i ∈ [Instr.idiv v, .irem v], issB i (ruleR v 1 1 1) s = true) ∧
     s.me.lanesOf (s.mask g0 &&& ~~~ maskOf [0]) = []) :=
  ⟨rdyl (by decide), by decide⟩

theorem wit_ShiftsAndRotates : ∀ i ∈ [Instr.shl (ra .i32), .shr (ra .i32), .sar (ra .i32), .rotl (ra .i32)], ∀ res,
    Ready i (ruleR (ra .i32) 1 1 1) sS (.v 4) false res := rdyl (by decide)

theorem wit_BitwiseLogic :
    (∀ i ∈ [Instr.and (ra .b32), .or (ra .b32), .xor (ra .b32)], ∀ res, Ready i (ruleR (ra .b32) 1 1 1) sS (.v 4) false res) ∧
    (∀ i ∈ [Instr.not (u1 .b32), .brev (u1 .b32), .popc (u1 .b32), .clz (u1 .b32)], ∀ res,
      Ready i (ruleR (u1 .b32) 1 1 1) sS (.v 4) false res) ∧
    (∀ i ∈ [Instr.lop3 (c1 .b32 0x80), .prmt (c1 .b32)], ∀ res, Ready i (ruleR (c1 .b32) 1 1 1) sS (.v 4) false res) ∧
    (∀ res, Ready (.idot4 (c1 .i32)) (ruleR (c1 .i32) 1 1 1) sS (.v 4) false res) ∧
    (∀ i ∈ [Instr.funsh (c1 .b32), .bfi (c1 .b32)], ∀ res, Ready i (ruleR (c1 .b32) 1 1 1) sS (.v 4) false res) ∧
    (∀ res, Ready (.bfx (ra .i32)) (ruleR (ra .i32) 1 1 1) sS (.v 4) false res) :=
  ⟨rdyl (by decide), rdyl (by decide), rdyl (by decide), rdy (by decide), rdyl (by decide), rdy (by decide)⟩

/-- The bit-by-bit hypotheses on the result q of LOP3, BFX, BFI, CVTPK and PMOV.pack define q: here for LOP3 with table 0x80. -/
theorem wit_bitwise_result : ∀ k, (3 &&& 2 &&& 1 : Nat).testBit k = (decide (k < Ty.bits .b32) && (0x80 : Nat).testBit
    ((if (3 : Nat).testBit k then 1 else 0) + (if (2 : Nat).testBit k then 2 else 0) + (if (1 : Nat).testBit k then 4 else 0))) := by
  intro k
  rcases k with _ | _ | k
  · decide
  · decide
  · simp [Nat.testBit_add_one]

theorem wit_MoveSelectAndIndex :
    (∀ res, Ready (.mov (u1 .b32)) { ruleR (u1 .b32) 1 1 1 with first := false } sS (.v 4) false res) ∧
    (∀ res, Ready (.movi (ia .i32 7)) { guard := g0, scalar := false } sS (.v 4) false res) ∧
    (∀ res, Ready (.moviHi (ia .w64 7)) { guard := g0, scalar := false } sS (.v 4) true res) ∧
    (∀ res, Ready (.sel (ra .b32)) (ruleR (ra .b32) 1 1 1) sS (.v 4) false res) ∧
    (∀ i ∈ [Instr.xset (u1 .i16 7 vz), .xadd (u1 .i16 7 vz)], ∀ res, Ready i (ruleR (u1 .i16 7 vz) 1 1 1) sS .vz false res) ∧
    (∀ res, Ready (.xget (n0 .i16 7 (.v 4))) (ruleR (n0 .i16 7 (.v 4)) 1 1 1) sS (.v 4) false res) :=
  ⟨rdy (by decide), rdy (by decide), rdy (by decide), rdy (by decide), rdyl (by decide), rdy (by decide)⟩

theorem wit_FloatArithmetic :
    (∀ i ∈ [Instr.fadd (ra .f32), .fsub (ra .f32), .fmul (ra .f32), .fdiv (ra .f32), .fmin (ra .f32), .fmax (ra .f32)], ∀ res,
      Ready i (ruleR (ra .f32) 1 1 1) sS (.v 4) false res) ∧
    (∀ i ∈ [Instr.dadd (ra .f64), .dmul (ra .f64)], ∀ res, Ready i (ruleR (ra .f64) 2 2 1) sS (.v 4) true res) ∧
    (∀ res, Ready (.ffma (c1 .f32)) (ruleR (c1 .f32) 1 1 1) sS (.v 4) false res) ∧
    (∀ res, Ready (.dfma (c1 .f64)) (ruleR (c1 .f64) 2 2 2) sS (.v 4) true res) ∧
    (∀ i ∈ [Instr.fsqrt (u1 .f32), .frnd (u1 .f32)], ∀ res, Ready i (ruleR (u1 .f32) 1 1 1) sS (.v 4) false res) ∧
    (∀ res, Ready (.fscl (ra .f32)) (ruleR (ra .f32) 1 1 1) sS (.v 4) false res) :=
  ⟨rdyl (by decide), rdyl (by decide), rdy (by decide), rdy (by decide), rdyl (by decide), rdy (by decide)⟩

/-- The largest finite f32 and the smallest subnormal f16. -/
theorem wit_FloatArithmetic_kept :
    (0x7F7FFFFF < 2 ^ Ty.bits .f32 ∧ Ty.magP .f32 0x7F7FFFFF < Ty.infMag .f32) ∧
    (1 < 2 ^ Ty.bits .f16 ∧ Ty.magP .f16 1 < Ty.infMag .f16) ∧ FEnv.exact.fo = false := by decide

theorem wit_PackedAndApproximate :
    (∀ i ∈ [Instr.hadd2 (ra .f16x2), .hmul2 (ra .f16x2), .hmin2 (ra .f16x2), .hmax2 (ra .f16x2)], ∀ res,
      Ready i (ruleR (ra .f16x2) 1 1 1) sS (.v 4) false res) ∧
    (∀ i ∈ [Instr.hfma2 (c1 .f16x2), .fdot2 (c1 .f16x2)], ∀ res, Ready i (ruleR (c1 .f16x2) 1 1 1) sS (.v 4) false res) ∧
    (∀ i ∈ [Instr.frcp (u1 .f32), .frsq (u1 .f32), .fexp2 (u1 .f32), .flog2 (u1 .f32), .fsin (u1 .f32), .fcos (u1 .f32),
      .ftanh (u1 .f32), .fclass (u1 .f32 0x403)], ∀ res, Ready i (ruleR (u1 .f32) 1 1 1) sS (.v 4) false res) :=
  ⟨rdyl (by decide), rdyl (by decide), rdyl (by decide)⟩

theorem wit_Conversions :
    (∀ res, Ready (.cvt (u1 .f32 0x03)) (ruleR (u1 .f32 0x03) 1 1 1) sS (.v 4) false res) ∧
    (∀ res, Ready (.cvtpk (c1 .f8e4 0x12)) (ruleR (c1 .f8e4 0x12) 1 1 1) sS (.v 4) false res) :=
  ⟨rdy (by decide), rdy (by decide)⟩

theorem wit_ComparisonsAndPredicateMoves :
    (let a := ra .i32 0x011 vz
     ∀ res, Ready (.pcmpi a) (ruleR a 1 1 1) sS .vz false res) ∧
    (let a := ra .f32 0x011 vz
     ∀ res, Ready (.pcmpf a) (ruleR a 1 1 1) sS .vz false res) ∧
    (∀ res, Ready (.plog (n0 .b32 1)) (ruleR (n0 .b32 1) 1 1 1) sS .vz false res) ∧
    (∀ res, Ready (.pmovPack (n0 .b32 0 (.v 4))) (ruleR (n0 .b32 0 (.v 4)) 1 1 1) sS (.v 4) false res) ∧
    (∀ res, Ready (.pmovUnpack (u1 .b32 0x009 vz)) (ruleR (u1 .b32 0x009 vz) 1 1 1) sS .vz false res) ∧
    (∀ res, Ready (.pmovSet (n0 .b32 0x00E)) (ruleR (n0 .b32 0x00E) 1 1 1) sS .vz false res) :=
  ⟨rdy (by decide), rdy (by decide), rdy (by decide), rdy (by decide), rdy (by decide), rdy (by decide)⟩

theorem wit_VotesAndCrossLaneExchange :
    (∀ i ∈ [Instr.voteAll (n0 .b32 0x100), .voteAny (n0 .b32 0x101), .voteUni (n0 .b32 0x102)], ∀ res,
      Ready i (ruleR (n0 .b32 0x100) 1 1 1) sS .vz false res) ∧
    (∀ i ∈ [Instr.voteBallot (n0 .b32 3 (.v 4)), .voteCount (n0 .b32 4 (.v 4))], ∀ res,
      Ready i (ruleR (n0 .b32 3 (.v 4)) 1 1 1) sS (.v 4) false res) ∧
    (∀ res, Ready (.shfl (ra .b32 0x116)) (ruleR (ra .b32 0x116) 1 1 1) sS (.v 4) false res) ∧
    (∀ i ∈ [Instr.redux (u1 .i32), .scan (u1 .i32)], ∀ res, Ready i (ruleR (u1 .i32) 1 1 1) sS (.v 4) false res) ∧
    (∀ res, Ready (.matchLanes (u1 .b32)) (ruleR (u1 .b32) 1 1 1) sS (.v 4) false res) :=
  ⟨rdyl (by decide), rdyl (by decide), rdy (by decide), rdyl (by decide), rdy (by decide)⟩

/-! ## Witnesses: control, special registers, issue and traps -/

/-- A frame of the divergence stack that is open. -/
def openE : DivEntry := { sm := 3, j := 0x10080, st := .opened, pm := 0, pp := 0, am := 0 }
/-- Slot 0 of one slot of a checked block with SIG 1, and S 0. -/
def tBad : Team := { t1 with block := [9, 1, 0, 0] ++ List.replicate 60 0 }
def tU (t : Team) (r : Nat) (v : W64) : Team := { t with u := tset 0 t.u r v }
/-- `t` waits with instruction `i`. -/
def tW (t : Team) (i : Instr) (until_ : Nat := 0) (woken : Bool := false) (cycles : Nat := 0) : Team :=
  { t with waiting := some { instr := i, cycles := cycles, until_ := until_, woken := woken, stack := none, lives := none, seq := 0, walked := false, ue := 0 } }
/-- `s` at the core cycle `n` of cluster 0 and at the time `ns`. -/
def late (s : State) (n ns : Nat) : State := { s with clk := { s.clk with now := ns, ptp := ns, mcyc := [(0, 1000 * n)] } }

/-- Control thread 0 as the monitor's (world 1). -/
def sMon : State := sT.setThread 0 { Thread.idle with monitor := true }

theorem wit_BranchesTakeOnePathAtATime :
    (issB (.bra (ba 1 vz vz gF)) { guard := gF } sS ∧ sS.mask gF = 0) ∧
    (let s := onTeam (tU t1 3 0x10004)
     issB (.brx (ba 0 vz (.s 3))) { guard := g0, srcs := [(.s 3, 1)] } s ∧ s.mask g0 ≠ 0 ∧ (s.me.opndU (.s 3)).toNat % 64 ≠ 0) ∧
    (issB (.bra (ba 1)) { guard := g0 } sS ∧ sS.mask g0 ≠ 0 ∧ sS.me.cur &&& ~~~ sS.mask g0 = 0 ∧
      (blockOf sS.me.pc + 64).toNat % 64 = 0) ∧
    (let s := onTeam { t2 with stack := [openE] }
     issB (.bra (ba 1 vz vz gF)) { guard := gF } s ∧ s.mask gF ≠ 0 ∧ s.me.cur &&& ~~~ s.mask gF ≠ 0 ∧ s.me.stack = [openE] ∧
       openE.st = .opened) ∧
    (issB (.bra (ba 1 vz vz gF)) { guard := gF } sD ∧ sD.mask gF ≠ 0 ∧ sD.me.cur &&& ~~~ sD.mask gF ≠ 0 ∧ sD.me.stack = []) := by
  decide

theorem wit_CallsAndReturnsMoveTheWholePath :
    (issB (.call (ba 1 (.s 5) vz gF)) { guard := gF, ends := true } sS ∧ sS.mask gF = 0) ∧
    (issB (.call (ba 1 (.s 5) vz gF)) { guard := gF, ends := true } sD ∧ sD.mask gF ≠ 0 ∧ sD.me.cur &&& ~~~ sD.mask gF ≠ 0) ∧
    (let s := onTeam (tU t1 3 0x10004)
     issB (.ret (ba 0 vz (.s 3))) { guard := g0, srcs := [(.s 3, 1)] } s ∧ s.mask g0 ≠ 0 ∧ s.me.cur &&& ~~~ s.mask g0 = 0 ∧
       (s.me.opndU (.s 3)).toNat % 64 ≠ 0) ∧
    (let s := onTeam (tU t1 3 0x10040)
     issB (.callx (ba 1 (.s 5) (.s 3))) { guard := g0, ends := true, srcs := [(.s 3, 1)] } s ∧
       issB (.ret (ba 0 vz (.s 3))) { guard := g0, srcs := [(.s 3, 1)] } s ∧ s.mask g0 ≠ 0 ∧ s.me.cur &&& ~~~ s.mask g0 = 0 ∧
       (s.me.opndU (.s 3)).toNat % 64 = 0) := by
  decide

theorem wit_SplitJoinAndExit :
    (issB (.split (ba 2)) { guard := g0 } sS ∧ sS.me.stack.length < 32) ∧
    (let s := onTeam { t1 with stack := List.replicate 32 openE }
     issB (.split (ba 2)) { guard := g0 } s ∧ 32 ≤ s.me.stack.length) ∧
    (issB (.join (ba 0)) { guard := g0, ends := true } sS ∧ sS.me.stack = []) ∧
    (let s := onTeam { t1 with stack := [{ openE with st := .pend }] }
     issB (.join (ba 0)) { guard := g0, ends := true } s ∧ s.me.stack = [{ openE with st := .pend }]) ∧
    (let s := onTeam { t1 with stack := [openE] }
     issB (.join (ba 0)) { guard := g0, ends := true } s ∧ s.me.stack = [openE]) ∧
    (issB (.exit (ba 0 vz vz gF)) { guard := gF } sS ∧ sS.mask gF = 0) ∧
    (issB (.exit (ba 0)) { guard := g0 } sS ∧ sS.mask g0 ≠ 0 ∧ isThread sS.cur = false) ∧
    (issB (.exit (ba 0)) { guard := g0 } sT ∧ sT.mask g0 ≠ 0 ∧ isThread sT.cur = true ∧ sT.me.sigBad sT.me.pc = false ∧
      (sT.thread sT.cur).eid = 0) ∧
    (issB (.exit (ba 0)) { guard := g0 } sE ∧ sE.mask g0 ≠ 0 ∧ sE.me.sigBad sE.me.pc = false ∧ (sE.thread sE.cur).eid ≠ 0) := by
  decide

theorem wit_LeavingASlot :
    (t1.cur ≠ 0 ∧ t1.sigBad t1.pc = false ∧ t1.lastSlot t1.pc = true) ∧
    ({ t1 with block := mkBlock [0, 0] } : Team).lastSlot t1.pc = false ∧
    (tBad.sigBad tBad.pc = true ∧ isThread 128 = false ∧ tBad.live ≠ 0) ∧
    issB (.nop sa) (ruleS sa) sS ∧
    (issB (.yield (sa 0)) (ruleS sa) sS ∧ issB (.yield (sa 1023)) (ruleS sa) sS ∧ sS.mask g0 ≠ 0 ∧ sS.me.waiting = none) ∧
    (let s := onTeam (tW t1 (.yield (sa 5)) 5000)
     (s.team 128).waiting.isSome ∧ s.mcyc 128 < 5000 ∧ 5000 ≤ (late s 5 2).mcyc 128) := by decide

/-- Special registers 0x00 and 0x21, sr.fpmode, and a control thread's. -/
theorem wit_SpecialRegistersReadAndWrite :
    (∀ res, Ready (.rdsr (sa 0x00 (.v 4))) (ruleS (sa 0x00 (.v 4))) sS (.v 4) false res) ∧
    (∀ res, Ready (.rdsr (sa 0x21 (.s 4))) (ruleS (sa 0x21 (.s 4))) sS (.s 4) true res) ∧
    (isThread sT.cur = true ∧ issB (.wrsr (sa 0x10 vz (.imm 17) vz 0 gF)) (ruleS (sa 0x10 vz (.imm 17) vz 0 gF)) sS ∧ sS.mask gF = 0 ∧
      ([0x10, 0x11, 0x12, 0x13].all (fun n => issB (.wrsr (sa n vz (.imm 17))) (ruleS (sa n vz (.imm 17))) sS)) ∧
      sS.mask g0 ≠ 0 ∧ ([0, 1].all (fun n => issB (.clock (sa n (.s 4))) (ruleS (sa n (.s 4))) sS)) ∧
      issB (.clock (sa 0 (.s 4) vz vz 0 gF)) (ruleS (sa 0 (.s 4) vz vz 0 gF)) sS ∧ issB (.bpt (sa 7)) (ruleS (sa 7)) sS) :=
  ⟨rdy (by decide), rdy (by decide), by decide, by decide, by decide, by decide, by decide, by decide, by decide, by decide⟩

/-- An MMA on a control core and an ENENTER on a SIMT core, an ill-formed NOP, and an ENKILL at L0. -/
theorem wit_IssueChecksTrap :
    (opcode (.mma (ta (some .i8))) = some 0x1C2 ∧ isThread sT.cur = true ∧ simtOnly 0x1C2 = true) ∧
    (opcode (.enenter sa) = some 0x28A ∧ isThread sS.cur = false ∧ threadOnly 0x28A = true) ∧
    (opcode (.nop (sa 1)) = some 1 ∧ simtOnly 1 = false ∧ threadOnly 1 = false ∧ wellFormed (.nop (sa 1)) = false) ∧
    (opcode (.enkill (sa 0 (.s 4) (.s 5))) = some 0x28E ∧ simtOnly 0x28E = false ∧ threadOnly 0x28E = false ∧
      wellFormed (.enkill (sa 0 (.s 4) (.s 5))) = true ∧ sS.me.role = .solo ∧ levelOne 0x28E = true ∧
      sS.levelOf sS.cur = .l0) := by decide

/-- The fixture of team 128 with trap policy `p`. -/
def pol (p : Nat) (t : Team) : State :=
  (onTeam t).setFixture 0 { (onTeam t).fixture 0 with desc := { ((onTeam t).fixture 0).desc with trapPol := p, traph := 0x20000 } }

theorem wit_TrapsOfTeamsFollowThePolicy :
    isThread 128 = false ∧ Cause.idiv0 ≠ .ue ∧ maskOf (lanes t1.width 1) ≠ 0 ∧ t1.frame.inh = false ∧
    (∀ p ∈ [0, 1, 2], ((pol p t1).fixture ((pol p t1).fxOf 128)).desc.trapPol = p ∧ ((pol p t1).team 128) = t1) ∧
    ((pol 2 { t1 with frame := { t1.frame with inh := true } }).team 128).frame.inh = true ∧ t1.run ≠ .pfHandler ∧
    ((pol 2 { t1 with run := .pfHandler }).team 128).run = .pfHandler := by decide

theorem wit_ControlThreadsEnterTheirVector :
    let s := sT.setThread 0 { Thread.idle with vec := some 0x30000, pending := true }
    let e := sE.setThread 0 { Thread.idle with eid := 1, pending := true }
    isThread 0 = true ∧ lanes (s.team 0).width 1 ≠ [] ∧
    ((s.thread 0).eid = 0 ∧ (s.thread 0).vec = some 0x30000 ∧ (s.team 0).frame.inh = false) ∧
    ((onThread { th1 with frame := { th1.frame with inh := true } }).team 0).frame.inh = true ∧ (sT.thread 0).vec = none ∧
    ((s.thread 0).pending = true ∧ (s.team 0).run = .running ∧ s.board.power = .on ∧ (s.team 0).waiting = none ∧
      (s.team 0).replay = none) ∧ ((onThread { th1 with replay := some 1 }).team 0).replay ≠ none ∧
    ((e.thread 0).pending = true ∧ (e.thread 0).eid ≠ 0 ∧ (e.team 0).run = .running ∧ (e.team 0).frame.inh = false) ∧
    (sT.thread 0).pending = false := by decide

/-- Inside a handler of a team and of a control thread, and outside one. -/
theorem wit_ReturnsFromHandlers :
    let s := onTeam { t1 with frame := { t1.frame with inh := true, hmask := 1 } }
    let h := onThread { th1 with frame := { th1.frame with inh := true, hmask := 1 } }
    (∀ p ∈ [(Instr.eretRetry (sa 0), sa 0), (.eretSkip (sa 1), sa 1), (.eretKill (sa 2), sa 2)], issB p.1 (ruleS p.2) s ∧
      issB p.1 (ruleS p.2) sS ∧ issB p.1 (ruleS p.2) h) ∧
    issB (.eretSkip (sa 1 vz vz vz 0 gF)) (ruleS (sa 1 vz vz vz 0 gF)) s ∧ s.mask gF = 0 ∧
    s.mask g0 ≠ 0 ∧ s.me.frame.inh = true ∧ sS.me.frame.inh = false ∧ s.me.sigBad s.me.pc = false ∧
    isThread h.cur = true ∧ h.me.frame.inh = true ∧ h.me.sigBad h.me.pc = false ∧
    ({ t1 with replay := some 0 } : Team).replay = some 0 := by decide

/-! ## Witnesses: resolution, system calls, memory -/

def post1 (k : PostKind) (agent : Nat) : Post :=
  { token := 1, kind := k, agent := agent, part := 0, eid := 1, cause := .pagef, access := 0, pc := 0x10000, fixid := 1, crew := 0,
    team := 0, wher := 0, posted := true }
/-- Control thread 0 with token 1 in s4 and a post of token 1 from team 128. -/
def sP (k : PostKind) : State := { onThread (tU th1 4 1) with posts := [post1 k 128] }
def er (m : BitVec 45) (b : Operand := vz) (g : Guard := g0) : SArgs := sa (4 + m) (.s 5) (.s 4) b 1 g

theorem wit_ResolutionOfCallsAndNotices :
    ([(Instr.eretResume (er 0), er 0), (.eretDecline (er 1), er 1), (.eretAbort (er 2), er 2)].all (fun p =>
      issB p.1 (ruleS p.2) (sP .call) && issB p.1 (ruleS p.2) sT)) ∧
    issB (.eretResume (er 0)) { ruleS (er 0) with srcs := [(.s 4, 1), (vz, 4)] } (sP .call) ∧
    issB (.eretAbort (er 2 vz gF)) (ruleS (er 2 vz gF)) (sP .call) ∧ (sP .call).mask gF = 0 ∧ (sP .call).mask g0 ≠ 0 ∧
    (sP .call).levelOf 0 = .l1 ∧ sE.levelOf sE.cur = .l0 ∧ sT.posts = [] ∧
    ((sP .call).posts.find? (fun p => p.token == ((sP .call).me.opndU (.s 4)).toNat)) = some (post1 .call 128) ∧
    ((sP .call).resolve (post1 .call 128) .decline none = none) ∧ ((sP .call).resolve (post1 .call 128) .resume none).isSome ∧
    (post1 .call 128).kind = .call ∧ (post1 .team 128).kind = .team ∧ (post1 (.engine 0) 128).kind = .engine 0 ∧
    isThread (post1 (.engine 0) 128).agent = false ∧ (post1 (.engine 0) 128).agent < 2 ^ 64 ∧
    ((onTeam { t1 with run := .called }).resident 128 = true ∧ ((onTeam { t1 with run := .called }).team 128).run = .called) ∧
    (sS.resident 128 = true ∧ (sS.team 128).run ≠ .called) ∧
    (let s := (onTeam { t1 with resolved := some .abort }).setCrew 0 { State.stagedCrew with core := none }
     s.resident 128 = false ∧ (s.crew 0).nteams = 1 ∧ (s.crew 0).done = false ∧ (s.team (agentOf 0 0)).resolved = some .abort) := by decide

/-- The rule of a SYSCALL with no operand. -/
def ruleSys : Rule := { ruleS sa with banned := true, srcs := [(.s 0, 4)] }

theorem wit_SystemCallsAndTrapInstruction :
    (issB (.syscall sa) ruleSys sS ∧ sS.mask g0 ≠ 0 ∧ isThread sS.cur = false ∧
      sS.mask g0 = (sS.me.live &&& ~~~ sS.me.exited &&& laneMask sS.me.width)) ∧
    (let a := sa 0 vz vz vz 0 gF
     issB (.syscall a) { ruleSys with guard := gF } sS ∧ sS.mask gF = 0 ∧
     issB (.syscall a) { ruleSys with guard := gF } sD ∧ sD.mask gF ≠ 0 ∧
       sD.mask gF ≠ (sD.me.live &&& ~~~ sD.me.exited &&& laneMask sD.me.width)) ∧
    (issB (.syscall sa) ruleSys sT ∧ sT.osThread sT.cur = true ∧ sT.me.ureg 0 ≠ 0x10) ∧
    (let s := onThread (tU th1 0 0x10)
     issB (.syscall sa) ruleSys s ∧ s.osThread s.cur = true ∧ s.me.ureg 0 = 0x10) ∧
    (issB (.syscall sa) ruleSys sE ∧ isThread sE.cur = true ∧ sE.osThread sE.cur = false) ∧
    issB (.trap (sa 7)) (ruleS (sa 7)) sS ∧
    sS.posts.filter (fun p => p.part == 0 && !p.posted) = [] ∧
    (let s := { sT with posts := [{ post1 .call 128 with posted := false }] }
     s.posts.filter (fun p => p.part == 0 && !p.posted) = s.posts ∧
       (s.setPart 0 { s.part 0 with cfg := none }).posts = s.posts) := by decide

theorem wit_ThreadRestartAndTranslations :
    (let s := sT.setTeam 2 { Team.idle with run := .stopped }
     isThread 2 = true ∧ s.board.power = .on ∧ (0x10040 : W64).toNat % 64 = 0 ∧ (s.team 2).run = .stopped ∧ (s.team 0).run ≠ .stopped) ∧
    (let s := (onThread (tU (tU th1 4 1) 6 0x10001)).setEnc 1 { Enclave.free with st := .sealed, part := 0 }
     let a := sa 0 (.s 5) (.s 4) (.s 6) 1
     let a1 := sa (2 ^ 42) (.s 5) (.s 4) vz 1
     let a2 := sa (2 * 2 ^ 42) (.s 5) (.s 4) vz 1
     issB (.tlbinv a) (ruleS a) s ∧ issB (.tlbinvAll a1) (ruleS a1) s ∧ issB (.tlbinvAp a2) (ruleS a2) s ∧ s.mask g0 ≠ 0 ∧
     s.mask gF = 0 ∧ s.eidOf s.cur = 0 ∧ s.encLive 1 = true ∧ (s.me.opndU (.s 6)).toNat < 2 ^ 57 ∧ sT.encLive 1 = false ∧
     (onThread (tU th1 4 1)).eidOf 0 = 0) := by decide

/-- Record slot 0 holds the 256 bytes at 0x10000 in elements of 4 bytes, and lane 0's v4 and v5 hold 7 and 9. -/
def recM : Rec := { Rec.null with base := 0x10000, extent := 256, esize := 2, stride := 4 }
def tM : Team := { t1 with recs := [(0, recM)], v := [(4, 7), (5, 9)] }
def sM : State := onTeam tM
def ad0 : Addr := { va := 0x10080, lo := 0, hi := 4 }
def aM (ty : Ty := .b32) (b : Operand := vz) (mfn : BitVec 4 := 0) (d : Operand := .v 4) : MArgs := ma ty d (.imm 16) b mfn 0 0x80
/-- The entry of frame 1 under page 1. -/
def ipt1 : Ipt := sM.iptOf 1

theorem wit_address : sM.me.address (sM.me.rslot 0) 0 (.imm 16) 0x80 4 4 = .ok ad0 := by rfl
theorem wit_OneAccess : OneAccess sM (aM) 0 4 4 ad0 :=
  ⟨by decide, wit_address, by decide, by decide, .inr (.inl (by decide))⟩
/-- The TLB after the walk of page 1, and the requester. -/
def sWk (k : Kind) : State := sM.walked k 0x10080
def qM (a : MArgs) : Req := (sM.ctx (ruleM sM.me a [])).accReq sM a
theorem wit_tr : ∀ k ∈ [Kind.read, .write], trLine (sWk k) (qM aM) .none k none 0x10080 = (sWk k, .ok (.hbm 1 ipt1)) := by
  intro k h
  simp only [List.mem_cons, List.not_mem_nil, or_false] at h
  rcases h with rfl | rfl <;> rfl
theorem wit_place : placeRead (sWk .read) (qM aM) .none 0x10080 (.hbm 1 ipt1) = .at 0x10080 ipt1 ∧
    placeWrite (sWk .write) (qM aM) .none 0x10080 (.hbm 1 ipt1) = (sWk .write, .ok (.at 0x10080 ipt1)) := ⟨by rfl, by rfl⟩

/-- Every memory instruction issues at this state, and its pass is served. -/
theorem wit_MemoryInstructionsServeEveryLane :
    issB (.ld aM) (ruleM sM.me aM []) sM ∧
    issB (.ldx (aM .b32 (.imm 16))) (ruleM sM.me (aM .b32 (.imm 16)) [srcN (.imm 16) 1]) sM ∧
    issB (.st aM) (ruleM sM.me aM [(.v 4, 1)]) sM ∧
    issB (.atom (aM .w32 (.imm 18))) (ruleM sM.me (aM .w32 (.imm 18)) [srcN (.imm 18) 1]) sM ∧
    issB (.red (aM .w32 (.imm 18) 0 vz)) (ruleM sM.me (aM .w32 (.imm 18) 0 vz) [srcN (.imm 18) 1]) sM ∧
    issB (.atomc (aM .b32 (.v 5) 1)) (ruleM sM.me (aM .b32 (.v 5) 1) [(.v 4, 1), (.v 5, 1)]) sM ∧
    (servedAll (loadLane (sM.ctx (ruleM sM.me aM [])) aM (fun _ => .ok TagUse.none)) (sWk .read)
      (sM.me.passLanes (sM.mask g0) false)).isSome ∧
    (servedAll (storeLane (sM.ctx (ruleM sM.me aM [])) aM) (sWk .write) (sM.me.passLanes (sM.mask g0) false)).isSome ∧
    (let s := onTeam { tM with uwc := [(1024, 0)] }
     let a : MArgs := { aM with ord := .rel, scope := .system }
     issB (.st a) (ruleM s.me a [(.v 4, 1)]) s ∧ s.mask g0 ≠ 0 ∧ s.offWrites = true ∧ s.me.waiting = none) :=
  ⟨by decide, by decide, by decide, by decide, by decide, by decide, by decide, by decide, by decide⟩

theorem wit_LoadsReadMemory : issB (.ld aM) (ruleM sM.me aM []) sM ∧ OneAccess sM aM 0 4 4 ad0 ∧ Operand.isUni (.v 4) = false ∧
    sM.me.regOf 0 1 1 (.v 4) = .ok (some 4) ∧ (sM.ctx (ruleM sM.me aM [])).useOf (sM.me.rslot 0) = .none ∧
    sM.goodIn 0x10080 4 ipt1 = true :=
  ⟨by decide, wit_OneAccess, rfl, rfl, rfl, by decide⟩

theorem wit_StoresWriteMemory : issB (.st aM) (ruleM sM.me aM [(.v 4, 1)]) sM ∧ isRel aM.ord = false ∧
    sM.offWrites = false ∧
    sM.me.storeBytes 0 .b32 1 (.v 4) = .ok [7, 0, 0, 0] ∧ ((4 : BitVec 8) ≠ 255 ∧ 4 + 1 ≤ sM.me.nregs ∧ Ty.bits .b32 ∈ [8, 16, 32, 64]) :=
  ⟨by decide, rfl, by decide, by decide, by decide⟩

theorem wit_AtomicsReadModifyWrite :
    (OneAccess sM (aM .w32 (.imm 18)) 0 4 4 ad0 ∧ sM.me.opP 0 .w32 (.imm 18) = .ok 2 ∧
      (trLine (sWk .atomic) (qM (aM .w32 (.imm 18))) .none .atomic (some { op := atomKind 0, bytes := 4, system := false }) 0x10080).2 =
        .ok (.hbm 1 ipt1)) ∧
    (OneAccess sM (aM .b32 (.v 5) 1) 0 4 4 ad0 ∧ 0x10080 % 4 = 0 ∧ 4 * casRegs (aM .b32 (.v 5) 1) = 4 ∧
      sM.me.regOf 0 1 1 (.v 5) = .ok (some 5) ∧
      (trLine (sWk .atomic) (qM (aM .b32 (.v 5) 1)) .none .atomic (some { op := .cas, bytes := 4, system := false }) 0x10080).2 =
        .ok (.hbm 1 ipt1)) :=
  ⟨⟨⟨by decide, wit_address, by decide, by decide, .inr (.inl (by decide))⟩, by rfl, by rfl⟩,
   ⟨⟨by decide, wit_address, by decide, by decide, .inr (.inl (by decide))⟩, by decide, by decide, by rfl, by rfl⟩⟩

/-- Past the extent; a page that is not mapped; a page that another owner holds; and what a stalled write waits for. -/
theorem wit_AccessesThatCannotBeMade :
    (sM.me.address (sM.me.rslot 0) 0 (.imm 16) 0x100 4 4 = .error .oob ∧ sM.me.lanesOf (sM.mask g0) = [0]) ∧
    (let s := onTeam { tM with recs := [(0, { recM with base := 0x30000 })] }
     OneAccess s aM 0 4 4 { ad0 with va := 0x30080 } ∧
     trLine (s.walked .read 0x30080) (s.req 128) .none .read none 0x30080 =
       (s.walked .read 0x30080, .error (.cause .pagef 0x30080))) ∧
    (let s := sM.setIpt 1 { ipt1 with oworld := 5 }
     trLine (s.walked .read 0x10080) (s.req 128) .none .read none 0x10080 =
       (s.walked .read 0x10080, .error (.cause .owner 0x10080))) ∧
    (let w : Waiting := { instr := .st aM, cycles := 0, until_ := 0, woken := false, stack := some 0, lives := none, seq := 0,
                          walked := false, ue := 0 }
     let s := onTeam { tM with waiting := some w }
     (s.team 128).waiting = some w ∧ s.mcyc 128 < 2 ^ 20 * 1000 ∧ 2 ^ 20 * 1000 ≤ (late s (2 ^ 20) 0).mcyc 128 ∧
       (s.setPart 0 { s.part 0 with pool := [5] }).part (s.partOf 128) = { s.part 0 with pool := [5] } ∧ s.mem.cells = [] ∧
       (s.part (s.partOf 128)).pool = [] ∧ w.stack = some (5 / 2 ^ 20)) :=
  ⟨by decide, ⟨⟨by decide, by rfl, by decide, by decide, .inr (.inl (by decide))⟩, by rfl⟩, by rfl, by decide⟩

/-- A record of the four words of `recM`, the words of no record, and a per-lane access within and past the extent. -/
theorem wit_BufferRecords :
    (let a := sa 0 vz (.s 4) vz 1
     let s := onTeam (tU (tU t1 4 0x10000) 6 0x100)
     issB (.brset a) { guard := g0, srcs := [(.s 4, 4)] } s ∧ s.mask g0 ≠ 0 ∧ s.mask gF = 0 ∧
     issB (.brget (sa 0 (.s 4) vz vz 0 gF)) (ruleS (sa 0 (.s 4) vz vz 0 gF)) s) ∧
    (recOfWords recM.words[0]! recM.words[1]! recM.words[2]! recM.words[3]! = some recM) ∧
    recOfWords 0xFFFFFFFFFFFFFFFF 0 0 0 = none ∧
    issB (.brget (sa 0 (.s 4))) (ruleS (sa 0 (.s 4))) sM ∧
    (recM.flat = false ∧ (min (esizeBytes recM.esize) 4) ∣ 4 ∧ addrAt recM 252 4 4 = .ok { va := 0x100FC, lo := 0, hi := 4 } ∧
      recM.trapOob = true ∧ (recM.extent : Int) < 253 + 4) :=
  ⟨by decide, by decide, by decide, by decide, by decide, by decide, by decide, by decide, by decide⟩

/-! ## Witnesses: scratchpad, caches, synchronisation, tags -/

/-- The crew of team 128 with the changes `f`. -/
def onCrew (s : State) (f : Crew → Crew) : State := s.setCrew 0 (f (s.crew 0))
/-- A squad crew of rank 0 in a squad of 2, whose fixture is staged with 2 stages in ring 0. -/
def sQ : State := (onCrew sM (fun c => { c with squad := some 0, stages := [2, 0, 0, 0] })).setFixture 0
  { sM.fixture 0 with desc := { (sM.fixture 0).desc with squad := 2, staged := true } }
def aL (b : Operand := vz) (d : Operand := .v 4) (ty : Ty := .b32) : MArgs := ma ty d (.imm 16) b 0 0 8

theorem wit_ScratchpadInstructions :
    issB (.lds aL) (ruleSp aL []) sQ ∧ issB (.sts aL) (ruleSp aL [storeSrc aL]) sQ ∧
    issB (.atoms (aL (.imm 18) (.v 4) .w32)) (ruleSp (aL (.imm 18) (.v 4) .w32) [srcN (.imm 18) 1]) sQ ∧
    issB (.ldq (aL (.imm 16))) (ruleSp (aL (.imm 16)) [srcN (.imm 16) 1]) sQ ∧
    issB (.stq (aL (.imm 16))) (ruleSp (aL (.imm 16)) [srcN (.imm 16) 1, storeSrc (aL (.imm 16))]) sQ ∧
    sQ.rankCrew 128 0 = some 0 ∧
    ((spServed sQ.me true aL (spLoad aL) (sQ.crew 0) sQ.me [0]).isSome ∧
      (spServed sQ.me true aL (spStore (sQ.ctx (ruleSp aL [])) aL) (sQ.crew 0) sQ.me [0]).isSome) ∧
    ((sQ.crew 0).spBad 8 4 = false ∧ sQ.me.regOf 0 1 1 (.v 4) = .ok (some 4) ∧ sQ.me.destOf 0 1 (.v 4) = .ok (some 4) ∧
      sQ.me.storeBytes 0 .b32 1 (.v 4) = .ok [7, 0, 0, 0]) :=
  ⟨by decide, by decide, by decide, by decide, by decide, by decide, by decide, by decide⟩

def aK : MArgs := ma .b32 vz (.imm 16) vz 0 0 0x80
theorem wit_CacheControls : OneAccess sM aK 0 4 4 ad0 ∧
    ([Instr.cinv aK, .cflush aK, .icinv aK, .unpin aK, .pref aK, .pin aK].all (fun i => issB i (ruleM sM.me aK []) sM)) ∧
    (∀ k ∈ [Kind.read, .icinv], trLine (sWk k) (qM aK) .none k none 0x10080 = (sWk k, .ok (.hbm 1 ipt1))) :=
  ⟨⟨by decide, by rfl, by decide, by decide, .inr (.inl (by decide))⟩, by decide, by
    intro k h
    simp only [List.mem_cons, List.not_mem_nil, or_false] at h
    rcases h with rfl | rfl <;> rfl⟩

theorem wit_BarriersCompletePhases :
    (issB (.bar sa) (ruleB sS sa false) sS ∧ sS.mask g0 ≠ 0 ∧ sS.me.waiting = none ∧ sS.me.arrivedIn false ≠ some (sS.barOf 128 false).phc ∧
      ((sS.arrive 128 false).barOf 128 false).phc ≠ (sS.barOf 128 false).phc) ∧
    (let s := (onCrew sS (fun c => { c with nteams := 2 })).setTeam 129 t1
     issB (.bar sa) (ruleB s sa false) s ∧ ((s.arrive 128 false).barOf 128 false).phc = (s.barOf 128 false).phc ∧
       (s.arrive 128 false).mcyc 128 = s.mcyc 128 ∧ (s.arrive 128 false).cur = 128) ∧
    issB (.barq sa) (ruleB sQ sa true) sQ ∧
    (let s := onTeam { t1 with arrC := some 0 }
     s.me.arrivedIn false = some (s.barOf 128 false).phc ∧ s.me.waiting = none) ∧
    (let s := onTeam (tW t1 (.bar sa) 2)
     issB (.bar sa) (ruleB s sa false) s ∧ (s.barOf 128 false).phc.toNat + 1 ≠ 2) ∧
    (let a := sa 0 (.s 4)
     issB (.arrive a) (ruleB sS a (sqBit a)) sS ∧ sS.me.arrivedIn (sqBit a) ≠ some (sS.barOf 128 (sqBit a)).phc) ∧
    (let a := sa 0 vz (.s 4)
     let b := sa 2 vz (.s 4) vz 3
     let s := onTeam (tU t1 4 1)
     issB (.await a) (ruleB sS a false) sS ∧ issB (.await b) (ruleB sS b false) sS ∧ b.sfn.toNat / 2 % 2 = 1 ∧ a.sfn.toNat / 2 % 2 = 0 ∧
     (s.barOf 128 false).phc ≠ (s.me.opndU (.s 4)).setWidth 32 ∧ (sS.barOf 128 false).phc = (sS.me.opndU (.s 4)).setWidth 32 ∧
     ((onTeam (tW t1 (.await a))).team 128).waiting.isSome) ∧
    (let a := sa 0x13
     let s := onTeam { t1 with uwc := [(1024, 0)] }
     issB (.fence a) (ruleS a) s ∧ a.sfn.toNat / 2 % 2 = 1 ∧ a.sfn.toNat / 4 % 8 = 4 ∧ s.offWrites = true ∧ issB (.fence (sa 1)) (ruleS (sa 1)) sS) :=
  ⟨by decide, by decide, by decide, by decide, by decide, by decide, by decide, by decide⟩

theorem wit_StagesCountersAndSleep :
    (let a := sa 0 vz (.imm 17)
     let b := sa 0 vz (.s 4)
     let s := sQ.setTeam 128 (tU sQ.me 4 2)
     issB (.stgrel a) (ruleG sQ a) sQ ∧ 1 < (sQ.crew 0).stages.getD 0 0 ∧ issB (.stgrel b) (ruleG s b) s ∧
       (s.crew 0).stages.getD 0 0 ≤ (s.me.opndU (.s 4)).toNat % 2 ^ 32) ∧
    (let a := sa 0 vz (.imm 17) (.imm 16)
     let b := sa 4 vz (.imm 17) (.imm 17) 2
     issB (.stgacq a) (ruleG sQ a) sQ ∧ issB (.stgacq b) (ruleG sQ b) sQ ∧ sQ.mask g0 ≠ 0 ∧ sQ.mask gF = 0 ∧
       (tget Tile.reset (sQ.crew 0).tile 1).ph = (sQ.me.opndU (.imm 16)).getLsbD 0 ∧
       (tget Tile.reset (sQ.crew 0).tile 1).ph ≠ (sQ.me.opndU (.imm 17)).getLsbD 0 ∧
       stageMet sQ 128 a = true ∧ stageMet sQ 128 b = false) ∧
    (let a := sa 0x21 vz
     let s := onTeam { t1 with cnt := { t1.cnt with copy := 2 } }
     issB (.wait a) (ruleS a) sS ∧ issB (.wait a) (ruleS a) s ∧ waitMet sS.me a = true ∧ waitMet s.me a = false ∧ s.me.waiting = none) ∧
    ([0, 4, 5].all (fun n => issB (.cntrd (sa n (.s 4))) (ruleS (sa n (.s 4))) sS)) ∧
    (let a := sa 1 vz (.imm 16) vz 2
     let b := sa 1 vz (.imm 21) vz 2
     let w := onTeam (tW t1 (.sleep b) 5)
     issB (.sleep a) (ruleS a) sS ∧ issB (.sleep b) (ruleS b) sS ∧ (sS.me.opndU (.imm 16)).toNat = 0 ∧ (sS.me.opndU (.imm 21)).toNat = 5 ∧
       issB (.sleep b) (ruleS b) w ∧ issB (.sleep b) (ruleS b) (onTeam (tW t1 (.sleep b) 5 true)) ∧ w.clk.now < 5 ∧ 5 ≤ (late w 0 5).clk.now) :=
  ⟨by decide, by decide, by decide, by decide, by decide⟩

/-- Partition 0 with the tags `l`. -/
def tags (s : State) (l : List (Nat × TagState)) : State := s.setPart 0 { s.part 0 with tags := l }
theorem wit_TagLifeCycle :
    (let a := sa 0 (.s 4) vz vz 1
     let s := onTeam (tW t1 (.tagnew a) 0)
     issB (.tagnew a) { ruleS a with banned := true } sS ∧ sS.mask g0 ≠ 0 ∧ sS.mask gF = 0 ∧ sS.eidOf 128 ≠ 0 ∧ sT.eidOf 0 = 0 ∧
       issB (.tagnew a) { ruleS a with banned := true } sT ∧
       (tags sS [(1, .live 1)]).freeTag 0 = some 2 ∧ sS.freeTag 0 = some 1 ∧ sS.oldestTagnew 0 128 0 = true ∧
       (s.setTeam 129 (tW t1 (.tagnew a) 0)).oldestTagnew 0 129 0 = false ∧
       (s.team 128).waiting.isSome ∧ (late s (2 ^ 20) 0).mcyc 128 = 2 ^ 20 * 1000) ∧
    (let a := sa 0 vz (.s 4)
     let s := tags (onTeam (tU t1 4 1)) [(1, .live 1)]
     issB (.tagret a) { ruleS a with banned := true } s ∧ (s.me.opndU (.s 4)).toNat % 65536 = 1 ∧ s.tagState 0 1 = .live (s.eidOf 128) ∧
       s.me.cntFull .tag = false ∧ sS.tagState 0 1 ≠ .live 1) ∧
    (let s := tags sS [(1, .retiring 1 none)]
     s.tagState 0 (1 : BitVec 16).toNat = .retiring 1 none ∧ s.tagCells 0 1 = []) ∧
    (let a := sa 0 (.s 4)
     let b := sa (2 ^ 38) (.s 4) (.imm 17)
     let c := sa (2 ^ 39) (.s 4) (.imm 17)
     issB (.tagqryFree a) (ruleS a) sS ∧ issB (.tagqryTag b) (ruleS b) sS ∧ issB (.tagqryPool c) (ruleS c) sS ∧
       issB (.tagqryFree a) (ruleS a) sT ∧ sT.mask g0 ≠ 0) :=
  ⟨by decide, by decide, by decide, by decide⟩

theorem wit_TagRegister :
    let a := sa 0 vz (.imm 17)
    let w := sa 0x14 vz (.imm 17)
    let t := sa (2 ^ 40) (.s 4)
    issB (.tagset a) (ruleS a) sS ∧ issB (.wrsr w) (ruleS w) sS ∧ issB (.tagset a) (ruleS a) sT ∧ sS.mask gF = 0 ∧
    (sS.tagState 0 1).liveIn ≠ some 1 ∧ ((tags sS [(1, .live 1)]).tagState 0 1).liveIn = some ((tags sS []).eidOf 128) ∧
    issB (.tagget t) (ruleS t) sS ∧ issB (.tagget t) (ruleS t) sT := by decide

/-! ## Witnesses: tiles, copies, the matrix array -/

def tileC (s : State) (st : TileState) : State := onCrew s (fun c => { c with tile := [(0, { Tile.reset with st := st })] })
theorem wit_TileInstructions :
    (let a := ta (some .f32) 0 vz (.s 4)
     let s := onTeam (tU t1 4 0x3000)
     let big := onTeam (tU t1 4 0x64000)
     issB (.tdecl a) (ruleT s a true) s ∧ issB (.tdecl a) (ruleT big a true) big ∧ s.mask g0 ≠ 0 ∧ s.mask gF = 0 ∧
       ((s.crew 0).tileAt 0).st = .empty ∧ (s.crew 0).held 0 = false ∧ (s.crew 0).sprows = 64 ∧ (3 : Nat) + 1 ≤ 64 ∧ 64 < 0x64 + 1) ∧
    (issB (.tfree ta) (ruleT sS ta true) sS ∧ issB (.tstat (ta none 1 (.s 4))) (ruleT sS (ta none 1 (.s 4)) false) sS) ∧
    (let a := ta none 0 vz (.imm 16) (.imm 16)
     let m := ta none 0 vz (.imm 17) (.imm 16)
     let d := ta none 0 (.s 8) (.imm 16) (.imm 16)
     let r := tileC sS .ready
     let far := onTeam (tU t1 8 2)
     let rm := fun (s : State) => { ruleT s d true with srcs := [(d.a, 1), (d.b, 1), (d.d, 3)] }
     issB (.tfill a) (ruleT sS a true) sS ∧ issB (.tfill m) (ruleT sS m true) sS ∧ issB (.tdrain a) (ruleT r a true) r ∧
     issB (.tdrain m) (ruleT r m true) r ∧ issB (.tmcast d) (rm sS) sS ∧ sS.me.cntFull .tile = false ∧
     sS.me.opndI (.imm 17) % 16 ≠ 0 ∧ sS.me.opndI (.imm 16) % 16 = 0 ∧ ((r.crew 0).tileAt 0).st = .ready ∧
     mcastCores (sS.ctx (rm sS)) sS (.s 8) = [] ∧
     none ∈ (mcastCores (far.ctx (rm far)) far (.s 8)).map (mcastDest far 128 0)) ∧
    (let a := ta none 0 vz (.imm 16) (.imm 16)
     let s := onTeam (tW t1 (.tfill a))
     tileWaitOver s 128 (.tfill a) = true ∧ tileWaitOver (tileC s .filling) 128 (.tfill a) = false ∧ (s.team 128).waiting.isSome) :=
  ⟨by decide, by decide, by decide, by decide⟩

def opT (k : TileKind) (dests : List (Nat × DestState) := []) (b : Rec := recM) : TileOp :=
  { id := 0, agent := 128, kind := k, tile := 0, hm1 := 0, rwm1 := 0, rc := b, off := 0, pitch := 128, tag := 0, life := 0, cls := 0, dests := dests,
    bad := false, data := none, status := none, walked := false, token := none, decl := false, stall := none }
def withT (s : State) (o : TileOp) : State := { s with eng := { s.eng with tileOps := [o], nextOp := 1 } }
theorem wit_TileOperationsComplete :
    sM.tileHead 0 = none ∧
    (∀ k ∈ [TileKind.fill, .drain, .mcast], (withT sM (opT k)).tileHead 0 = some (opT k) ∧ (withT sM (opT k)).tileRuns (opT k) = true) ∧
    (let m := { sM with fw := Firewall.policy }
     let q := TileOp.req m (opT .fill)
     let z := { recM with trapOob := false, extent := 8 }
     m.engineOpen q = true ∧ ({ sM with fw := { Firewall.policy with fwm := [] } } : State).engineOpen q = false ∧ m.tileWalks (opT .fill) = false ∧ (opT .fill).decl = false ∧
     (readUnits q (opT .fill) m (opT .fill).units []).2.2 = .ok ∧ (drainUnits q (opT .drain) (m.crew 0) m (opT .drain).units).2.1 = .ok ∧
     (readUnits q (opT .fill [] .null) m (opT .fill).units []).2.2 = .stop 0x03 ∧
     (drainUnits q (opT .drain [] .null) (m.crew 0) m (opT .drain).units).2.1 = .stop 0x03 ∧
     moveVa recM 0 16 = .ok (some 0x10000) ∧ moveVa z 0 16 = .ok none ∧ moveVa { z with trapOob := true } 0 16 = .error 0x03 ∧
     (m.crew 0).spBad (((m.crew 0).tileAt 0).rowAt 0) 16 = false) ∧
    (let s := (sWk .read).walked .write 0x10000
     let q := TileOp.req s (opT .fill)
     let u := (opT .fill).use
     (∀ k ∈ [Kind.read, .write], trLine s q u k none 0x10000 = (s, .ok (.hbm 1 ipt1))) ∧
     placeRead s q u 0x10000 (.hbm 1 ipt1) = .at 0x10000 ipt1 ∧ s.goodLines 0x10000 16 ipt1 = true ∧
     placeWrite s q u 0x10000 (.hbm 1 ipt1) = (s, .ok (.at 0x10000 ipt1)) ∧ ipt1.attr ≠ 2) ∧
    ((sM.crew 0).core.isSome ∧ (opT .mcast [(0, .pending)]).destState 0 = some .pending ∧
      mcastFree (withT sM (opT .mcast [(0, .pending)])) (opT .mcast [(0, .pending)]) 0 = true ∧
      (opT .mcast [(0, .filling)]).destState 0 = some .filling ∧ sM.resident 128 = true ∧ sM.board.power = .on ∧
      ∀ x ∈ (opT .mcast [(0, .done)]).dests, x.2 = .done) ∧
    (let s := (withT sM (opT .mcast [(5, .pending)])).setCrew 5 { sM.crew 0 with done := true }
     s.tileHead 0 = some (opT .mcast [(5, .pending)]) ∧ s.tileRuns (opT .mcast [(5, .pending)]) = true ∧ (s.crew 5).core.isSome ∧
       (s.crew 5).done = true) :=
  ⟨by decide, by decide, by decide, by decide, by decide, by decide⟩

def cfg0 : PartCfg :=
  { vf := 0, slotB := 0, slotN := 16, regB := 0, regN := 64, spB := 0, spN := 16, tileB := 0, tileN := 64, accM := 15, hbmW := 1,
    calN := 4, cpyMax := 2, colMax := 2, llcq := 0, cores := 1 }
def withCfg (s : State) : State := s.setPart 0 { s.part 0 with cfg := some cfg0 }
/-- A CPYT of one byte from offset 0 to offset 1, with its completion word at 0x10180. -/
def descT : List Byte :=
  leBytes 8 0 ++ leBytes 8 1 ++ leBytes 8 0x10180 ++ [1, 0] ++ List.replicate 6 0 ++ leBytes 4 1 ++ List.replicate 220 0
def opC (d : Option (List Byte)) : CopyOp :=
  { id := 0, owner := 128, agent := 128, kind := .cpyt, part := 0, eid := 1, va := 0x10080, desc := d, src := recM, dst := recM, srcTag := 0,
    dstTag := 0, srcLife := 0, dstLife := 0, cc := 0, mark := .zero, seen := .zero,
    fin := none, token := none, decl := false, stall := none, cancel := false }
def sC (o : CopyOp) : State := { withCfg sM with eng := { sM.eng with copyOps := [o], nextOp := 1, bindCpy := [(0, 1)] } }
/-- A WSLD block for two granules of die 0 of enclave 1, in the operating system's page 1. -/
def blkW : List Byte := leBytes 2 1 ++ [0, 0] ++ leBytes 2 0 ++ leBytes 2 2 ++ leBytes 8 0 ++ leBytes 8 0 ++ List.replicate 40 0
def sW (e : EncState) : State := ((onThread (tU th1 4 0x10080)).setBytes 0x10080 blkW).setEnc 1 { Enclave.free with st := e }

theorem wit_CopyInstructions :
    (let a := ta none 1 vz (.s 4)
     let full := onTeam { tM with cnt := { tM.cnt with copy := 255 } }
     issB (.cpyt a) (ruleC a) sM ∧ issB (.cpyz a) (ruleC a) sM ∧ issB (.cpyt a) (ruleC a) sT ∧ sM.mask g0 ≠ 0 ∧ sM.mask gF = 0 ∧
     sM.eidOf 128 ≠ 0 ∧ sT.eidOf 0 = 0 ∧ sM.me.cntFull .copy = false ∧ issB (.cpyt a) (ruleC a) full ∧ full.me.cntFull .copy = true) ∧
    ((opC none).va % 64 = 0 ∧ (match (readV sM (opC none).req .none .read (linesOf 0x10080 256)).2 with | .ok _ => true | _ => false) = true) ∧
    (let o := opC (some descT)
     let s := sC o
     s.copyHead 0 = some o ∧ s.board.power = .on ∧ noCopies s o = false ∧ engineFor s o = true ∧ copyReleased s o = true ∧
       descT.length = 256 ∧ bfld descT 0x10 8 % 32 = 0 ∧ bfld descT 0x10 8 < 2 ^ 57 ∧ sM.copyHead 0 = none) ∧
    ((copyData (sC (opC (some descT))) (opC (some descT)) descT).e = .ok ∧
     (copyData (sC (opC (some (List.replicate 256 0)))) (opC none) (List.replicate 256 0)).e = .stop 0x08) ∧
    (let a := ta none 0 (.s 5) (.s 4)
     issB (.wsld a) (ruleC a) (sW .sealed) ∧ (sW .sealed).osThread 0 = true ∧ sMon.osThread 0 = false ∧ issB (.wsld a) (ruleC a) sMon ∧
     (readBlock (sW .sealed) ((sW .sealed).req 0) 0x10080 64).2 = some blkW ∧ wsldStatus (sW .sealed) blkW = 0 ∧
     wsldStatus (sW .building) blkW ≠ 0 ∧ (readBlock sT (sT.req 0) 0x80000 64).2 = none) ∧
    (let a := sa 1 (.s 4) (.imm 17)
     issB (.wswin (sa 0 (.s 4))) (ruleS (sa 0 (.s 4))) sM ∧ issB (.wswin a) (ruleS a) sM) ∧
    (let o : MatOp := { id := 0, agent := 128, instr := .ldwWs (ta (some .f16) 1 vz (.s 4)), r0 := 0, fpmode := 0, gen := 1, stall := 0 }
     inWindow sM.clk.now o = true ∧ (sM.crew 0).core = some 0 ∧ inWindow 400 o = false) :=
  ⟨by decide, by decide, by decide, by decide, by decide, by decide, by decide⟩

def mat (s : State) (t : TileState) : State :=
  onCrew s (fun c => { c with tile := [(1, { Tile.reset with st := t, hm1 := 31, rwm1 := 0 })], accs := 2, tiles := 8 })
def sX : State := mat sS .ready
def mx (ty : Option Ty) (tfn : BitVec 18) (a : Operand := .imm 16) (g : Guard := g0) : TArgs := ta ty tfn vz a vz 1 0 0 0 g
theorem wit_MatrixInstructionsIssue :
    (issB (.ldw (mx (some .f16) 0)) (ruleX sX (mx (some .f16) 0) [1] []) sX ∧
     issB (.ldwWs (ta (some .f16) 1 vz (.s 4))) (ruleX sX (ta (some .f16) 1 vz (.s 4)) [] []) sX ∧ issB (.swpw ta) (ruleX sX ta [] []) sX ∧
     issB (.mma (mx (some .f16) 3)) (ruleX sX (mx (some .f16) 3) [1] [0]) sX ∧
     issB (.mmas (mx (some .f16) 3)) (ruleX sX (mx (some .f16) 3) [1] [0]) sX ∧ issB (.aclr (ta none 3)) (ruleX sX (ta none 3) [] [0]) sX ∧
     issB (.ald (mx none 3)) (ruleX sX (mx none 3) [1] [0]) sX ∧
     issB (.amovTile (mx (some .f32) 0x4003)) (ruleX sX (mx (some .f32) 0x4003) [1] [0]) sX ∧
     issB (.scacc (ta (some .f32) 3 vz vz vz 1 1)) (ruleX sX (ta (some .f32) 3 vz vz vz 1 1) [1, 1] [0, 0]) sX) ∧
    (sX.mask g0 ≠ 0 ∧ sX.mask gF = 0 ∧ (∀ k ∈ tilesNamed (.ldw (mx (some .f16) 0)), ((sX.crew 0).tileAt k).st = .ready) ∧
      sX.me.cntFull .matrix = false ∧ ((mat sS .filling).crew 0).tileAt 1 ≠ (sX.crew 0).tileAt 1 ∧ sX.me.waiting = none ∧
      colBytes false .f16 ≤ 128 ∧ wsOwned sX 1 0 0 (32 * 64) = false ∧
      wsOwned { sX with mem := { sX.mem with gran := [(0, 1)] } } 1 0 0 (32 * 64) = true) ∧
    (let a := ta (some .f32) 0 (.v 4)
     issB (.amov a) { ruleX sX a [] [0] with banned := false, srcs := [] } sX ∧ (sX.crew 0).mops = [] ∧
       (sX.me.lanesOf (sX.mask g0)).all (fun l => (sX.me.regOf l 1 1 (.v 4)).isOk) = true ∧ (sX.crew 0).badBank = [] ∧
       issB (.wstat (ta none 1 (.s 4))) { guard := g0 } sX) :=
  ⟨by decide, by decide, by decide⟩

def opM (i : Instr) : MatOp := { id := 0, agent := 128, instr := i, r0 := 0, fpmode := 0, gen := 1, stall := 0 }
def planeB : Plane := { valid := true, sparse := false, ty := some .i8, poison := false, bad := false, w := [] }
theorem wit_MatrixArray :
    (let s := onCrew sX (fun c => { c with mops := [opM (.swpw ta)] })
     (s.crews.find? (fun x => x.2.core.isSome && !x.2.done && (x.2.mops.head?.map (fun o => o.id)) == some 0)).isSome ∧
       s.board.power = .on ∧ (opM (.swpw ta)).stall ≤ s.clk.now ∧ inWindow s.clk.now (opM (.swpw ta)) = false ∧
       midLoad s (opM (.swpw ta)) = false ∧
       (let o := opM (.ldwWs (ta (some .f16) 1 vz (.s 4)))
        let l := onCrew sX (fun c => { c with mops := [o] })
        midLoad { l with eng := { l.eng with copyOps := [{ opC (some blkW) with kind := .wsld }] } } o = true) ∧
       sX.crews.find? (fun x => x.2.core.isSome && !x.2.done && (x.2.mops.head?.map (fun o => o.id)) == some 0) = none) ∧
    (let c := sX.crew 0
     (∀ j < 32, c.tileRowBad 1 (0 + j) 64 = false) ∧ fnBits (3 : BitVec 18) 7 7 + (fnBits (3 : BitVec 18) 0 7 + 1) ≤ 128 ∧
     c.act.valid = false ∧ c.badSp = [] ∧ c.badBank = [] ∧ planeB.ty = some .i8 ∧ planeB.valid = true ∧ planeB.poison = false ∧
     planeB.bad = false ∧ planeB.sparse = false ∧ Sys2Proof.Machine.pairOk .i8 .i8 = true ∧ Sys2Proof.Machine.pairOk .i8 .f16 = false ∧
     64 * packOf .i8 * 8 / 8 ≤ 128 ∧ Ty.isF .i8 = false ∧ c.bankBad 0 0 4 = false) :=
  ⟨by decide, by decide⟩

/-! ## Witnesses: must-save items, registers, launch, enclaves -/

theorem wit_MustSaveItems :
    (let a := sa 0 (.s 4) (.s 6) (.imm 17) 1
     let r := sa 1 (.s 4) vz (.imm 17) 1
     let d := sa 0 (.s 4) (.imm 17) vz 1
     issB (.msdecl a) { ruleS a with banned := true, srcs := [(a.a, 2), (a.b, 1)] } sM ∧ issB (.msdeclRec r) { ruleS r with banned := true } sM ∧
     issB (.msdrop d) { ruleS d with banned := true } sM ∧ issB (.msqryCap (sa 0 (.s 4))) (ruleS (sa 0 (.s 4))) sM ∧
     issB (.msqryItem (sa 1 (.s 4) (.imm 17))) (ruleS (sa 1 (.s 4) (.imm 17))) sM ∧
     issB (.msqryRst (sa 2 (.s 4) (.imm 17))) (ruleS (sa 2 (.s 4) (.imm 17))) sM ∧
     issB (.msqryLost (sa 3 (.s 4))) (ruleS (sa 3 (.s 4))) sM ∧ sM.mask g0 ≠ 0 ∧ sM.mask gF = 0 ∧ sM.eidOf 128 ≠ 0 ∧
     issB (.msdrop d) { ruleS d with banned := true } sT ∧ sT.eidOf 0 = 0) ∧
    (let s : State := { sM with board := { sM.board with capacity := 2 ^ 30 } }
     (pagesOf 0x11000 4096).all (fun p => (s.primaryPage (s.req 128) p).isSome && itemTagOk s (s.req 128) .none p) = true ∧
     0x11000 + 4096 ≤ 2 ^ 57 ∧ (s.enc 1).items = [] ∧ s.itemTotal + 4096 ≤ s.board.capacity ∧ sM.board.capacity < sM.itemTotal + 4096 ∧
     s.lowestItem 1 1 = none ∧ (s.primaryPage (s.req 128) 5).isSome = false ∧ pagesOf 0x50000 4096 = [5]) ∧
    (let s := onTeam { t1 with run := .pfHandler }
     issB (.pfret sa) (ruleS sa) s ∧ s.me.run = .pfHandler ∧ issB (.pfret sa) (ruleS sa) sS ∧ sS.me.run ≠ .pfHandler) :=
  ⟨by decide, by decide, by decide⟩

/-- Beside crew 0, a crew of four teams of 1,024 lanes with 32 registers each holds rows of the core. -/
def sGf : State :=
  let s := (withCfg (onTeam (tU { t1 with regs := 64 } 4 128)))
  let s := s.setCrew 1 { s.crew 0 with nteams := 4 }
  [0, 1, 2, 3].foldl (fun s k => s.setTeam (144 + k) { t1 with width := 1024, regs := 32 }) s
def sG (regs n : Nat) : State :=
  let s := withCfg (onTeam (tU { t1 with regs := regs } 4 (BitVec.ofNat 64 n)))
  s.setEnc 1 { s.enc 1 with savepa := 0x200000, savefr := 24, threads := 2 }
theorem wit_RegistersGrowAndShrink :
    let a := sa 0 vz (.s 4)
    let up := sG 64 128
    let held := { sG 64 128 with fixtures := (sG 64 128).fixtures }
    issB (.grow a) (ruleS a) up ∧ issB (.shrink a) (ruleS a) up ∧ isThread 128 = false ∧ up.mask g0 ≠ 0 ∧ up.mask gF = 0 ∧
    up.me.regs < 128 ∧ (up.cap 0 0).regs = 4096 ∧ up.rowsWith 0 0 128 ≤ 4096 ∧ up.growFits 128 128 = true ∧ up.growers 0 0 = [] ∧
    255 < ((sG 64 256).me.opndU (.s 4)).toNat ∧ ((sG 64 7).me.opndU (.s 4)).toNat < 8 ∧ 8 ≤ ((sG 64 8).me.opndU (.s 4)).toNat ∧
    held.me.waiting = none ∧
    sGf.growFits 128 128 = false ∧ sGf.me.waiting = none ∧ (sGf.cap 0 0).regs = 4096 ∧ sGf.rowsWith 0 0 128 ≤ 4096 ∧ issB (.grow a) (ruleS a) sGf ∧
    (let w := sGf.setTeam 128 (tW sGf.me (.grow a))
     (w.growers 0 0).head? = some 128 ∧ w.growFits 128 128 = false ∧ w.growStuck 0 0 = false) ∧
    (let w := (sG 64 128).setTeam 128 (tW (sG 64 128).me (.grow a))
     (w.growers 0 0).head? = some 128 ∧ (w.crew 0).core = some 0 ∧ w.growFits 128 128 = true ∧ (w.team 128).waiting.isSome) := by
  decide

/-- A descriptor of one crew of one team of 32 lanes, at CODE 0x10000 with COMPL 0x10800. -/
def descL : List Byte :=
  leBytes 8 0x10000 ++ leBytes 4 0 ++ leBytes 4 0 ++ leBytes 2 32 ++ [1, 0, 16, 0, 0, 0] ++ leBytes 2 64 ++ [0, 0, 0, 0, 0, 0] ++
  leBytes 4 1 ++ leBytes 4 1 ++ leBytes 4 1 ++ List.replicate 28 0 ++ leBytes 8 0x10800 ++ List.replicate 176 0
def sL (p : Nat) : State := (withCfg (onTeam (tU t1 6 0x10100))).setBytes 0x10100 (descL.set 0x15 (BitVec.ofNat 8 p))
theorem wit_LaunchAndEvents :
    (let a := sa 0 (.s 4) (.imm 16) (.s 6) 1
     let s := sL 0
     let b := descL
     issB (.launch a) { ruleS a with banned := true } s ∧ s.mask g0 ≠ 0 ∧ s.eidOf 128 = 1 ∧ (s.enc 1).st = .sealed ∧ descL.length = 256 ∧
     (readBlock s (s.req 128) 0x10100 256).2 = some b ∧ descOk b = true ∧ s.noFit 0 (descOf b) = false ∧ s.queueFull 0 0 = false ∧
     s.admission 0 1 (descOf b) = .cores [] ∧ descOk (descL.set 0x15 8) = false ∧ sM.noFit 0 (descOf b) = true ∧
     s.admission 0 1 { descOf b with cal := true } = .refused 1 ∧ (readBlock s (s.req 128) 0x50000 256).2 = none) ∧
    (let s := onTeam (tU t1 6 4096)
     let g := sa 0 vz (.imm 18) (.imm 17)
     let c := sa (2 ^ 44) vz (.imm 18)
     let w := sa 0 (.s 4) (.imm 18) (.imm 17) 1
     let t := sa (2 ^ 44) (.s 4) (.imm 18) (.imm 17) 1
     issB (.evsig g) (ruleS g) sS ∧ issB (.evsigClr c) (ruleS c) sS ∧ issB (.evwait w) { ruleS w with banned := true } sS ∧
     issB (.evwaitTry t) (ruleS t) sS ∧ issB (.evsig (sa 0 vz (.s 6) (.imm 17))) (ruleS (sa 0 vz (.s 6) (.imm 17))) s ∧
     4095 < (s.me.opndU (.s 6)).toNat ∧ (sS.me.opndU (.imm 18)).toNat ≤ 4095 ∧ (sS.ringAt 2).eid = 0 ∧ (sS.event 0 2).toNat < 1 ∧
     (let r : State := { sS with eng := { sS.eng with rings := [(2, { Ring.none with eid := 1, doorb := 2 })] } }
      (r.ringAt 2).eid ≠ 0 ∧ (r.event 0 2).toNat + 1 - (r.ringAt 2).consumed ≤ 64 ∧ r.me.cnt.coll + 1 ≤ 255) ∧
     evMet sS 128 sS.me w = false ∧ evMet (sS.putEvent 0 2 1) 128 sS.me w = true) ∧
    (let a := sa 0 (.s 4) vz (.imm 18)
     let u := sa 0
     let big := onTeam (tU t1 6 17)
     issB (.lease a) { ruleS a with banned := true } sS ∧ issB (.unlease u) { ruleS u with banned := true } sS ∧
     issB (.lease a) { ruleS a with banned := true } sT ∧ (sS.me.opndU (.imm 18)).toNat % 32 ≤ 16 ∧ 16 < (big.me.opndU (.s 6)).toNat % 32 ∧
     sS.eng.boundary = 100000 ∧ sS.clk.ptp = 0 ∧ sS.eng.boundary ≤ (late sS 0 100000).clk.ptp) :=
  ⟨by decide, by decide, by decide⟩

/-- An ECB for partition 0 with one thread and a save area of 2 frames from frame 32. -/
def ecb : List Byte :=
  [0, 0, 1, 0, 0, 0, 0, 0] ++ leBytes 8 0x10000 ++ List.replicate 56 0 ++ leBytes 8 0x200000 ++ leBytes 4 2 ++ List.replicate 44 0
/-- A PAB for a zeroed page at VA 0x40000 on frame 40. -/
def pab : List Byte := leBytes 8 0x40000 ++ leBytes 8 0x280000 ++ leBytes 8 0 ++ [3, 0, 0, 0] ++ List.replicate 36 0
def sO (b : List Byte) : State := withCfg ((onThread (tU (tU th1 4 1) 6 0x10080)).setBytes 0x10080 b)
def withE (s : State) (st : EncState) (f : Enclave → Enclave := id) : State :=
  s.setEnc 1 (f { Enclave.free with st := st, part := 0, threads := 2, entry := 0x20000 })
theorem wit_EnclaveBuildAndEntry :
    (let a := sa 0 (.s 5) (.s 6) vz 1
     let s := sO ecb
     issB (.encreate a) (ruleS a) s ∧ s.mask g0 ≠ 0 ∧ s.mask gF = 0 ∧ s.eidOf 0 = 0 ∧ ecb.length = 128 ∧
     (readBlock s (s.req 0) 0x10080 128).2 = some ecb ∧ ecbOk ecb = true ∧ (encreate s ecb).2.1 = 1 ∧ (encreate s ecb).2.2 = 0 ∧
     ecbOk (ecb.set 2 0) = false ∧ (readBlock s (s.req 0) 0x50000 128).2 = none) ∧
    (let a := sa 0 (.s 5) (.s 4) (.s 6) 1
     let s := withE (sO pab) .building
     issB (.enadd a) (ruleS a) s ∧ s.osThread 0 = true ∧ s.encLive 1 = true ∧ (sO pab).encLive 1 = false ∧
     (readBlock s (s.req 0) 0x10080 64).2 = some pab ∧ pabOk pab = true ∧ pabOk (pab.set 0 1) = false ∧ bfld pab 0x10 8 = 0 ∧
     (enadd s (s.req 0) 1 pab).2 = 0) ∧
    (let a := sa 0 (.s 5) (.s 4) vz 1
     let n := sa 0 (.s 5) (.s 4) (.imm 16) 1
     let s := withE (sO pab) .sealed
     issB (.enseal a) (ruleS a) s ∧ issB (.enenter n) { ruleS n with ends := true } s ∧ s.encLive 1 = true ∧
     (s.slotAt 1 0).killed = false ∧ (s.slotAt 1 0).entered = none ∧ (s.slotAt 1 0).inner = none ∧ (s.enc 1).threads = 2 ∧
     s.me.sigBad s.me.pc = false ∧ (s.setSlot 1 0 { Slot.idle with killed := true }).slotAt 1 0 ≠ s.slotAt 1 0 ∧
     ((s.setSlot 1 0 { Slot.idle with entered := some 4 }).slotAt 1 0).entered.isSome ∧
     ((s.setSlot 1 0 { Slot.idle with inner := some th1 }).slotAt 1 0).inner = some th1) ∧
    (issB (.enexit sa) (ruleS sa) sE ∧ sE.mask g0 ≠ 0 ∧ sE.eidOf 0 ≠ 0 ∧ sE.me.sigBad sE.me.pc = false ∧ isThread 0 = true ∧
      issB (.enexit sa) (ruleS sa) sT) ∧
    (let a := sa 0 (.s 5) (.s 4) (.s 6) 1
     issB (.enseal (sa 0 (.s 5) (.s 4) vz 1)) (ruleS a) sE ∧ sE.osThread 0 = false) :=
  ⟨by decide, by decide, by decide, by decide, by decide⟩

def sB : State := withE (sO (leBytes 2 1 ++ List.replicate 62 0)) .sealed
def aB : SArgs := sa 0 (.s 5) (.s 6) vz 1
def xB : SArgs := sa 1 (.s 5) (.s 6) vz 1
def pB : SArgs := sa 0 (.s 5) (.imm 16) vz 1
theorem wit_EnclavePagingAndEnd :
    (issB (.enpgout aB) (ruleS aB) sB ∧ issB (.enpgin aB) (ruleS aB) sB ∧ issB (.enkill aB) (ruleS aB) sB ∧
      issB (.tsavePart pB) (ruleS pB) sB ∧ issB (.trestPart pB) (ruleS pB) sB ∧ issB (.tsaveExport xB) (ruleS xB) sB ∧
      issB (.trestImport xB) (ruleS xB) sB ∧ issB (.enpgout aB) (ruleS aB) sMon) ∧
    (sB.mask g0 ≠ 0 ∧ sB.mask gF = 0 ∧ sB.osThread 0 = true ∧ sMon.osThread 0 = false) ∧
    ((readBlock sB (sB.req 0) 0x10080 64).2.isSome ∧ (readBlock sB (sB.req 0) 0x50000 64).2 = none) ∧
    (sB.encLive 1 = true ∧ sT.encLive 1 = false ∧ sT.sealedSt 1 ≠ 0) ∧
    ((sB.part 0).cfg.isSome ∧ (sB.part 0).suspended = false ∧ (sB.part 1).cfg = none ∧
      ((sB.setPart 0 { sB.part 0 with suspended := true }).part 0).suspended = true) ∧
    (let d := withE sT .dying
     d.mayDepart 1 = true ∧ d.board.power = .on ∧ (d.enc 1).clear = 0 ∧ sT.mayDepart 1 = false) ∧
    (let d := withE sT .dying (fun n => { n with clear := 255, cleared := [4, 5, 6, 7, 8].flatMap State.clearUnits })
     d.mayDepart 1 = true ∧ d.board.power = .on ∧ (d.enc 1).openProf = false ∧ (d.enc 1).clear = 255 ∧
     (d.enc 1).cleared = [4, 5, 6, 7, 8].flatMap State.clearUnits) ∧
    ([1, 2, 3, 4, 5, 6, 7, 8].find? (fun k => !((0 : BitVec 8).getLsbD (k - 1))) = some 1 ∧
     [1, 2, 3, 4, 5, 6, 7, 8].find? (fun k => !((255 : BitVec 8).getLsbD (k - 1))) = none) ∧
    (∀ k u, k ∈ [1, 2, 3, 4, 5, 6, 7, 8] → u ∈ State.clearUnits k → u ∈ [4, 5, 6, 7, 8].flatMap State.clearUnits) := by
  refine ⟨by decide, by decide, by decide, by decide, by decide, by decide, by decide, by decide, fun k u hk hu => ?_⟩
  rw [List.mem_flatMap]
  refine ⟨k, ?_, hu⟩
  fin_cases hk <;> first | decide | simp [State.clearUnits] at hu

/-! ## Witnesses: placement, records, requests, ports, links, health, power -/

/-- Fixture 0 eligible since time 0 with its one crew unplaced, and a deadline of 5 µs. -/
def sF (s : State) : State :=
  s.setFixture 0 { s.fixture 0 with elig := some 0, next := 0, desc := { (s.fixture 0).desc with deadline := 5, code := 0x10000, compl := 0x10800 } }
def entry0 (n : Nat) : CalEntry :=
  { CalEntry.idle with armed := true, start := 0, period := 100, bound := [(n, 0)], nextSlot := n }
def withPart (s : State) (f : Part → Part) : State := s.setPart 0 (f (s.part 0))
theorem wit_PlacementOfCrews :
    (let s := sF (withCfg sS)
     s.board.power = .on ∧ (s.part 0).cfg.isSome = true ∧ (s.part 0).suspended = false ∧ s.wantsPlace 0 = true ∧
     sortBy (placeFirst s) ((s.fixtures.filter (fun x => x.2.part == 0 && s.wantsPlace x.1)).map (fun x => x.1)) = [0] ∧
     (s.placeUnit 0).isSome = true ∧ (sS.fixtures.filter (fun x => x.2.part == 0 && sS.wantsPlace x.1)) = [] ∧
     (sT.part 1).cfg = none) ∧
    (let c : Claim := { regs := 64, slots := 1, sp := 0, tiles := 0, accs := 0, plane := 0 }
     findUnit [(3, { c with slots := 0 }), (5, c), (6, c)] c 0 = some [5]) ∧
    (let s := sF (late sS 0 100000)
     s.wantsPlace 0 = true ∧ s.agedFx 0 = true ∧ (sF sS).agedFx 0 = false ∧ sS.wantsPlace 0 = false ∧
     s.board.power = .on ∧ (s.fixture 0).retired = false ∧ (s.fixture 0).desc.deadline ≠ 0 ∧
     (s.fixture 0).tacc + 1000 * (s.fixture 0).desc.deadline ≤ s.clk.ptp ∧ (s.fixture 0).doneCount < (s.fixture 0).ncrews ∧
     (sF sS).clk.ptp < ((sF sS).fixture 0).tacc + 1000 * ((sF sS).fixture 0).desc.deadline) ∧
    (let s := late sS 1024 0
     s.ready 128 = true ∧ (s.team 128).since + 1024 * 1000 ≤ s.mcyc 128 ∧ sS.mcyc 128 < (sS.team 128).since + 1024 * 1000) ∧
    (let s := withPart (sF sS) (fun p => { p with cal := [(2, entry0 0)] })
     let e := tget CalEntry.idle (s.part 0).cal 2
     e.armed = true ∧ e.start + 1000 * e.period * e.nextSlot ≤ s.clk.ptp ∧ s.overruns e e.nextSlot = [] ∧ s.boundAt e 0 = some 0 ∧
     s.boundAt e 1 = none ∧ (s.part 0).osStop = false ∧ s.waitsMet 0 (s.fixture 0).desc = true ∧
     s.waitsMet 0 { (s.fixture 0).desc with waits := [(7, 1)] } = false ∧ (tget CalEntry.idle (sS.part 0).cal 2).armed = false ∧
     ((withPart s (fun p => { p with osStop := true })).part 0).osStop = true) :=
  ⟨by decide, by decide, by decide, by decide, by decide⟩

def endedT : Team := { t1 with run := .ended }
/-- The crew and its team are over. -/
def sR : State :=
  let s := (onTeam { t1 with run := .retired }).setCrew 0 { sS.crew 0 with done := true }
  s.setFixture 0 { (sF sS).fixture 0 with next := 1, doneCount := 1 }
theorem wit_RetirementAndRecords :
    (isThread 128 = false ∧ ((onTeam endedT).team 128).run = .ended ∧ ((onTeam endedT).team 128).uwc = [] ∧
      (onTeam endedT).ownPending 128 (onTeam endedT).eng.nextOp = false ∧ (sS.team 128).run ≠ .ended) ∧
    (sR.fixtureOver 0 = true ∧ sR.board.power = .on ∧ sS.fixtureOver 0 = false) ∧
    ((sR.fixture 0).fails = [] ∧ (Fixture.none.fails.length < 2 ∧ 1 ≤ [(0, ())].length)) ∧
    ((writeBlock sM (sM.req 128) 0x10800 [1, 0, 0, 0]).2 = true ∧ (writeBlock sM (sM.req 128) 0x50000 [1]).2 = false) :=
  ⟨by decide, by decide, by decide, by decide⟩

/-- A request block of OPC 1 at virtual and physical address 0x10080. -/
def sReq : State := sO ([1] ++ List.replicate 255 0)
/-- A configuration block for partition 1: one slot, one register row, one frame, core 1. -/
def sPcfg : State := sO ([1, 0, 0, 1, 0, 1] ++ List.replicate 5 0 ++ [1] ++ List.replicate 20 0 ++ [2] ++ List.replicate 223 0)
theorem wit_MonitorRequestsAndMessages :
    (sT.osThread 0 = true ∧ sT.cur = 0 ∧ sT.board.power = .on ∧ sMon.osThread sMon.cur = false) ∧
    ((readBlock sReq State.osReq 0x10080 64).2.map (fun b => bfld b 0 1) = some 1 ∧ sReq.osThread sReq.cur = true ∧
      (readBlock sReq State.osReq 0x10000000000 64).2 = none) ∧
    ((0x13 : W64).toNat > 0x12 ∧ (0x10081 : W64).toNat % 64 ≠ 0 ∧ (sT.request 0x13 0).2 % 2 ^ 32 ≠ 0 ∧
      (sT.request 0x09 10).2 = 0 ∧ (sT.request 0x09 10001).2 = 2 ∧ (sT.request 0x0F 0x10081).2 = 0x02) ∧
    ((sPcfg.request 0x01 0x10080).2 = 0 ∧ ((sO (List.replicate 64 0)).request 0x0F 0x10080).2 = 0) ∧
    (sT.hold.hss < 2 ^ 35 ∧ 2 ^ 35 ≤ ({ sT with hold := { sT.hold with hss := 2 ^ 35 } } : State).hold.hss ∧ (sT.enc 3).st ≠ .sealed) :=
  ⟨by decide, by decide, by decide, by decide, by decide⟩

/-- A requester of port D is bound to enclave 1. -/
def sI (apert : List (Nat × Aperture)) : State :=
  let s := withPart (sM.setIpt 1 { ipt1 with route := 1 }) (fun p => { p with apert := apert })
  { s with links := { s.links with bindings := [{ port := 1, rid := 7, eid := 1, ide := none }] } }
theorem wit_PortsAndAcknowledgements :
    (let s := sI []
     let r := engReq 0 1
     s.board.power = .on ∧ s.bindingOf 1 8 = none ∧ (s.inbound 1 7 0x10080 4).map (fun x => x.2) = some true ∧ (s.inbound 1 7 (2 ^ 57) 4).map (fun x => x.2) = some false ∧
     (match readV s r .none .read (linesOf 0x10080 4) with | (_, .ok _) => true | _ => false) = true ∧
     (match readV s r .none .read (linesOf 0x50000 4) with | (_, .error _) => true | _ => false) = true ∧
     (match writeV s r .none .write none (linesOf 0x10080 1) [1] with | (_, .ok _) => true | _ => false) = true ∧
     (match writeV s r .none .write none (linesOf 0x50000 1) [1] with | (_, .error _) => true | _ => false) = true) ∧
    (sT.board.power = .on ∧ sT.fwAdmits 3 3 .read = false ∧ ({ sT with fw := Firewall.policy } : State).fwAdmits 3 3 .read = true ∧
     ({ sT with fw := Firewall.policy } : State).fwAdmits 3 3 .write = true ∧ 8 + 4 ≤ 2 ^ 22 ∧ 2 ^ 22 < 2 ^ 22 + 4) ∧
    ((pcieAtom (.fetchAdd 4 1)).isSome = true ∧ (pcieAtom (.fetchAdd 16 1)).isSome = false ∧ (0x10081 : Nat) % 4 ≠ 0 ∧
     (match pcieAtom (.swap 8 1) with
      | some (n, kind, f) =>
        (match atomicV (sI []) (engReq 0 1) .none { op := kind, bytes := n, system := true } true [(0x10080, n)] f with | (_, .ok _) => true | _ => false) &&
        (match atomicV (sI []) (engReq 0 1) .none { op := kind, bytes := n, system := true } true [(0x50000, n)] f with | (_, .error _) => true | _ => false)
      | none => false) = true) ∧
    (sT.links.attached = false ∧ ({ sT with links := { sT.links with attached := true } } : State).links.attached = true) ∧
    (tget Tdi.configUnlocked sT.links.tdi 65536 = .configUnlocked ∧ tget Tdi.configUnlocked [(65536, Tdi.run)] 65536 = .run) ∧
    ((sT.team 0).uwc = [] ∧ ((onThread { th1 with uwc := [(1, 64)] }).team 0).uwc = [(1, 64)]) ∧
    (let s := withPart sM (fun p => { p with apert := [(3, { Aperture.none with target := 1 })] })
     let w := (s.modTeam 128 (fun t => { t with uwc := [(apKey 0 3, 64)] }))
     s.targetOf 0 3 ≠ 0 ∧ (s.failOldest (apKey 0 3)).isNone = true ∧ (w.failOldest (apKey 0 3)).isSome = true) ∧
    (let s : State := { late sS 65536 0 with eng := { sS.eng with walks := [(2, { agent := 0, cluster := 0, use := .instr, pages := [], cycles := 0, aged := false })] } }
     s.eng.walks.find? (fun x => x.1 == 2) = some (2, { agent := 0, cluster := 0, use := .instr, pages := [], cycles := 0, aged := false }) ∧ 0 + 65536 * 1000 ≤ s.mcycOf 0 ∧
     sS.eng.walks.find? (fun x => x.1 == 2) = none) :=
  ⟨by decide, by decide, by decide, by decide, by decide, by decide, by decide, by decide⟩

def xO : Stream := { Stream.none with st := .open, eid := 1 }
/-- Ring 2 of enclave 1 at 0x10080 with one doorbell and one operation, and a stream of partition 0. -/
def sK (x : Stream) (colMax : Nat) (b : List Byte) : State :=
  let s := (withPart (withCfg (sM.putEvent 0 2 1)) (fun p => { p with streams := [(0, x)], cfg := some { cfg0 with colMax := colMax } }))
  ({ s with eng := { s.eng with rings := [(2, { Ring.none with eid := 1, doorb := 2, base := 0x10080 })], bindCol := [(0, 1)],
                                collOps := [{ id := 0, owner := 128, ring := 2, seq := 0 }] } } : State).setBytes 0x10080 b
/-- A sum of one f32 over two members, whose member list at 0x10100 names stream 0. -/
def descK : List Byte :=
  [0, 0x12, 2, 0, 0, 0, 0, 0] ++ leBytes 8 1 ++ leBytes 8 0x10100 ++ leBytes 8 0x10140 ++ leBytes 8 0 ++ leBytes 8 0x10180 ++ List.replicate 80 0
theorem wit_BurraAndCollectives :
    (let x := { xO with highest := 2 ^ 16 + 9, seen := [70000 - 4500] }
     State.streamUp Stream.none = false ∧ State.streamUp x = true ∧ x.authFails < 2 ∧ (3 + 2 ^ 16 < x.highest) ∧
     ¬ (2 ^ 16 + 10 + 2 ^ 16 < x.highest ∨ 2 ^ 16 + 10 ∈ x.seen) ∧ (sK x 0 []).links.relsIn = [] ∧ BurraReq.release 0 (.read 0 8) ≠ .forged ∧ (1 : Nat) ≠ tget 0 (sK x 0 []).links.relsIn 4097 ∧
     ((sK x 0 []).stream 0 0).st = .open ∧ (sK x 0 []).board.power = .on) ∧
    (let s := sK { xO with st := .halted } 0 []
     let t := { s with clk := { s.clk with now := 10000000 } }
     (s.stream 0 0).st = .halted ∧ s.clk.now < (s.stream 0 0).haltAt + 10000000 ∧ (t.stream 0 0).st = .halted ∧ (t.stream 0 0).haltAt + 10000000 ≤ t.clk.now ∧ s.noGroups = false ∧
     2 ^ 47 ≤ ({ xO with ctr := 2 ^ 48 } : Stream).ctr ∧ 2 ^ 48 - 2 ^ 16 ≤ ({ xO with ctr := 2 ^ 48 } : Stream).ctr) ∧
    (let s := sK xO 1 descK
     let o : CollOp := { id := 0, owner := 128, ring := 2, seq := 0 }
     s.collHead 2 = some o ∧ (s.ringAt 2).eid ≠ 0 ∧ s.collCancelled o = false ∧ (s.ringAt 2).consumed < (s.event 0 2).toNat ∧
     (s.part 0).cfg.all (fun c => c.colMax == 0) = false ∧ s.boundTo true 0 ≠ 0 ∧
     (match s.collRead_ o with | (_, .ok b) => b == descK | _ => false) = true) ∧
    ((collDesc (List.replicate 128 0)).isNone = true ∧
     ((collDesc descK).bind (fun d => collRun (sK Stream.none 1 descK) 0 1 d)).map (fun e => e.st) = some stBadreq) ∧
    (let d := (sK xO 1 descK).setEnc 1 { Enclave.free with st := .dying }
     let i : State := { d with eng := { d.eng with collOps := [] } }
     (i.enc 1).st = .dying ∧ (i.ringAt 2).eid = 1 ∧ i.eng.collOps = [] ∧ (i.collHead 2).isSome = true) ∧
    (((sK xO 0 descK).part 0).cfg.all (fun c => c.colMax == 0) = true ∧ (sK xO 1 descK).boundTo true 1 = 0 ∧
     ((sK xO 1 descK).setEnc 1 { Enclave.free with st := .dying }).collCancelled { id := 0, owner := 128, ring := 2, seq := 0 } = true) :=
  ⟨by decide, by decide, by decide, by decide, by decide, by decide⟩

theorem wit_HealthTimeAndLimits :
    (let u := UnitName.core 0
     let s : State := { sT with health := { sT.health with st := [(0, .testing)] } }
     unitExists u = true ∧ unitExists (.core 768) = false ∧ sT.unitState u = .inService ∧ s.unitState u = .testing) ∧
    (let s := late sT 0 (86400 * 10 ^ 9)
     s.clk.halved + 86400 * 10 ^ 9 ≤ s.clk.ptp ∧ sT.clk.ptp < sT.clk.halved + 86400 * 10 ^ 9 ∧ twf 0 s.health.score = true ∧
     sT.parts.any (fun x => x.2.cal.any (fun y => y.2.armed)) = false ∧
     (withPart sT (fun p => { p with cal := [(2, entry0 0)] })).parts.any (fun x => x.2.cal.any (fun y => y.2.armed)) = true ∧
     sT.board.plim < 4001) ∧
    (sT.board.power = .on ∧ sT.fw.lock = false ∧ ({ sT with fw := { sT.fw with lock := true } } : State).fw.lock = true) :=
  ⟨by decide, by decide, by decide⟩

def inPower (s : State) (p : Power) : State := { s with board := { s.board with power := p } }
/-- Team 128 of a fixture that has a power-fail handler, at the loss of power. -/
def sP1 : State :=
  inPower (sS.setFixture 0 { sS.fixture 0 with desc := { (sS.fixture 0).desc with pfHnd := true, pfh := 0x20000 } }) .quiesce
theorem wit_PowerSequence :
    (State.reset.board.power = .off ∧ (inPower sT .charging).board.power = .charging ∧ sT.board.power = .on ∧
      (inPower sT .charging).clk.now ≤ 3 * 10 ^ 9 ∧ 3 * 10 ^ 9 < (late (inPower sT .charging) 0 4000000000).clk.now) ∧
    (sP1.pfDue 128 = true ∧ sP1.clk.now < sP1.board.t0 + 100000 ∧ t1.live &&& ~~~ t1.exited &&& laneMask t1.width ≠ 0 ∧
     sS.pfDue 128 = false ∧ (let s := sP1.setTeam 128 { t1 with run := .pfHandler }
       (s.team 128).run = .pfHandler ∧ (s.team 128).pfAt + 20000 ≤ (late s 0 20000).clk.now ∧ s.clk.now < (s.team 128).pfAt + 20000)) ∧
    (sP1.handlersOver = false ∧ (inPower sS .quiesce).handlersOver = true) ∧
    (let s := inPower sS .saving
     let i : SavedItem := { meas := 0, openProf := true, key := 1, len := 8, seq := 0, st := 1, bytes := [], bad := false }
     let b : State := { s with board := { s.board with toWrite := [i] } }
     (s.board.bankDown = false ∧ 60 ≤ ({ s with board := { s.board with reserve := 60 } } : State).board.reserve ∧
       ({ s with board := { s.board with bankDown := true } } : State).board.bankDown = true) ∧
     (s.board.toWrite.map State.itemSize).sum ≤ s.written ∧ b.written < (b.board.toWrite.map State.itemSize).sum) :=
  ⟨by decide, by decide, by decide, by decide⟩

theorem wit_DecodeAndEncodeAgree :
    (let i := Instr.nop (sa 0)
     encode i = some 0x004007FBFDFE000000000000 ∧ wellFormed i = true ∧ opcode i = some 1 ∧
     opcode (Instr.resetN) = none) := by decide

theorem wit_StepRunsDecodedInstruction :
    (sS.agenda = [] ∧ sS.ready 128 = true ∧ sS.chosen 128 = true ∧ State.emptyReplay t1 = false ∧ (sS.team 128).block = mkBlock [0] ∧ mkBlock [0] ≠ []) ∧
    (let s := onTeam { t1 with block := [], blockAt := 0 }
     (s.team 128).block = [] ∧ (match s.fetch 128 0x10000 with | (_, .ok _) => true | _ => false) = true ∧
     (blockHeader (mkBlock [0])).ok = true ∧ slotOf 0x10000 < (blockHeader (mkBlock [0])).slots) ∧
    (let s := (sS.setCrew 1 (sS.crew 0)).setTeam 144 { t1 with aged := true }
     s.agenda = [] ∧ s.cur = 128 ∧ s.ready 128 = true ∧ s.chosen 128 = false ∧ s.chosen 144 = true) ∧
    (State.reset.ready State.reset.cur = false ∧
      ({ sS with agenda := [.issue 128, .event .resetN, .elapse 5] } : State).agenda = .issue 128 :: [.event .resetN, .elapse 5] ∧
      opcode Instr.resetN = none) :=
  ⟨by decide, by decide, by decide, by decide⟩

theorem wit_StepKeepsMemoryCanonical : Memory.wf sS = true ∧ Memory.wf (nx (step sS)) = true := by decide

/-! ## Witnesses: lanes that trap, roles, one access in every form -/

/-- A lane that names a register beyond the team's; a saturating sum and a signalling NaN whose flags are enabled. -/
theorem wit_LanesTrapOnTheirOwn :
    (let a := ra .i32 0 (.v 4) (.v 200)
     issB (.iadd a) (ruleR a 1 1 1) sS ∧ a.d.isUni = false ∧ sS.me.badLane a 0 = true) ∧
    (let s := onTeam (tU { t1 with fpmode := 0x4000 } 4 0x7FFFFFFF)
     let a : RArgs := { ra .i32 0 (.s 3) (.s 4) (.imm 17) with sat := true }
     issB (.iadd a) (ruleR a 1 1 1) s ∧ a.d.isUni = true ∧ s.me.lanesOf (s.mask a.g) ≠ [] ∧
       s.me.badLane a (s.me.giver (s.mask a.g) a.d 0) = false ∧ (intRes .i32 true (0x7FFFFFFF + 1)).fl &&& s.me.ten ≠ 0) ∧
    (let s := onTeam (tU { t1 with fpmode := 0x100 } 4 0x7F800001)
     let a := ra .f32 0 (.s 3) (.s 4) (.s 4)
     let b := ra .f32 0 (.v 3) (.s 4) (.s 4)
     issB (.fadd a) (ruleR a 1 1 1) s ∧ issB (.fadd b) (ruleR b 1 1 1) s ∧ s.me.lanesOf (s.mask a.g) ≠ [] ∧
       s.me.badLane a (s.me.giver (s.mask a.g) a.d 0) = false ∧ (fsrc .f32 false false false 0x7F800001).fl &&& s.me.ten ≠ 0) :=
  ⟨by decide, by decide, by decide⟩

/-- A matrix instruction of a VX team, a floating one of an MX team, a store of a CP team, and a per-lane IADD of an MX team. -/
theorem wit_roles :
    ((onTeam { t1 with role := .vx }).me.role = .vx ∧ opcode (.mma (ta (some .i8))) = some 0x1C2 ∧ isThread 128 = false ∧
      wellFormed (.mma { ta (some .i8) 0x3F80 vz (.imm 16) with ta := 1 }) = true) ∧
    ((onTeam { t1 with role := .mx }).me.role = .mx ∧ opcode (.fadd (ra .f32)) = some 0x0C0 ∧ wellFormed (.fadd (ra .f32)) = true) ∧
    ((onTeam { t1 with role := .cp }).me.role = .cp ∧ (opcode (.st aM)).any (fun n => decide (0x142 ≤ n ∧ n ≤ 0x152)) = true ∧
      wellFormed (.st aM) = true) ∧
    (let a := ra .i32
     wellFormed (.iadd a) = true ∧ (a.d.isScalar && a.a.isScalar && a.b.isScalar && a.c.isScalar) = false) := by decide

/-- A YIELD whose lane 0 consumed uncorrectable data, at its end. -/
theorem wit_yield_ue :
    let w : Waiting := { instr := .yield (sa 5), cycles := 0, until_ := 0, woken := false, stack := none, lives := none, seq := 0,
                         walked := false, ue := 1 }
    let s := onTeam { t1 with waiting := some w }
    (s.team 128).waiting = some w ∧ w.until_ ≤ s.mcyc 128 ∧ isThread 128 = false ∧ w.ue ≠ 0 := by decide

/-- Two calls that wait for partition 0's call queue of one entry at 0x10040, first empty and then full. -/
def sQ2 (head : Nat) : State :=
  let q : Queue := { log2n := 0, core := 0, thr := 0, ring := 0x10040, idx := 0x10080 }
  let s := withPart ((onThread th1).setBytes 0x10080 (leBytes 4 head)) (fun p => { p with callQ := some q })
  { s with posts := [{ post1 .call 128 with posted := false }, { post1 .call 144 with token := 2, posted := false }] }
theorem wit_tailPoll :
    let p := { post1 .call 128 with posted := false }
    let q := { post1 .call 144 with token := 2, posted := false }
    ((sQ2 0).posts.filter (fun p => p.part == 0 && !p.posted)) = [p, q] ∧ ((sQ2 0).postOne p).2 = true ∧
    ((sQ2 0).postOne p).1.posts.filter (fun p => p.part == 0 && !p.posted) = [q] ∧ ((sQ2 1).postOne p).2 = false ∧
    (∀ x ∈ [q], (x.kind = .call ↔ p.kind = .call)) := by decide

def okB {α : Type} (x : Ans α) : Bool := match x.2 with
  | .ok _ => true
  | .error _ => false

/-- A uniform load, one of two lines, and one that the ZERO policy cuts short. -/
theorem wit_loadForms :
    (let a := aM .b32 vz 0 (.s 3)
     let r := ruleM sM.me a []
     issB (.ld a) r sM ∧ sM.me.lanesOf (sM.mask a.g) = [0] ∧ sM.me.address (sM.me.rslot 0) 0 a.a a.disp 4 4 = .ok ad0 ∧
       (sM.missing (sM.req 128) ((sM.ctx r).pages a 4 4 [0]) = [] ∨ sM.eng.held.contains (sM.clusterOf 128) = false) ∧
       sM.me.destOf 0 1 a.d = .ok none ∧
       okB (readV (sM.begun r a .read 4 4 [0] (ad0.oob 4)) ((sM.ctx r).accReq sM a) .none .read ad0.segs) = true) ∧
    (let a : MArgs := { ma .b32 (.v 4) (.imm 16) vz 0 0 0x7C with vec := .two }
     let r := ruleM sM.me a []
     let ad : Addr := { va := 0x1007C, lo := 0, hi := 8 }
     issB (.ld a) r sM ∧ sM.me.address (sM.me.rslot 0) 0 a.a a.disp 8 4 = .ok ad ∧ ad.segs = [(0x1007C, 4), (0x10080, 4)] ∧
       sM.me.destOf 0 2 a.d = .ok (some 4) ∧
       okB (readV (sM.begun r a .read 8 4 [0] (ad.oob 8)) ((sM.ctx r).accReq sM a) .none .read ad.segs) = true) ∧
    (let s := onTeam { tM with recs := [(0, { recM with trapOob := false })] }
     let a : MArgs := { ma .b32 (.v 4) (.imm 16) vz 0 0 0xFC with vec := .two }
     let r := ruleM s.me a []
     let ad : Addr := { va := 0x100FC, lo := 0, hi := 4 }
     issB (.ld a) r s ∧ s.me.address (s.me.rslot 0) 0 a.a a.disp 8 4 = .ok ad ∧ ad.oob 8 = true ∧
       okB (readV (s.begun r a .read 8 4 [0] (ad.oob 8)) ((s.ctx r).accReq s a) .none .read ad.segs) = true) :=
  ⟨by decide, by decide, by decide⟩

/-- The same forms of a store, and an atomic in bounds and one kept out of bounds. -/
theorem wit_storeAndAtomicForms :
    (let a : MArgs := { ma .b32 (.v 4) (.imm 16) vz 0 0 0x7C with vec := .two }
     let r := ruleM sM.me a [(a.d, 2)]
     let ad : Addr := { va := 0x1007C, lo := 0, hi := 8 }
     issB (.st a) r sM ∧ isRel a.ord = false ∧ (sM.me.storeBytes 0 .b32 2 a.d) = .ok [7, 0, 0, 0, 9, 0, 0, 0] ∧
       okB (writeV (sM.begun r a .write 8 4 [0] (ad.oob 8)) ((sM.ctx r).accReq sM a) ((sM.ctx r).useOf (sM.me.rslot 0)) .write none
         ad.segs [7, 0, 0, 0, 9, 0, 0, 0]) = true) ∧
    (let s := onTeam { tM with recs := [(0, { recM with trapOob := false })] }
     let a : MArgs := { ma .b32 (.v 4) (.imm 16) vz 0 0 0xFC with vec := .two }
     let r := ruleM s.me a [(a.d, 2)]
     let ad : Addr := { va := 0x100FC, lo := 0, hi := 4 }
     issB (.st a) r s ∧ s.me.address (s.me.rslot 0) 0 a.a a.disp 8 4 = .ok ad ∧
       okB (writeV (s.begun r a .write 8 4 [0] (ad.oob 8)) ((s.ctx r).accReq s a) ((s.ctx r).useOf (s.me.rslot 0)) .write none
         ad.segs [7, 0, 0, 0]) = true) ∧
    (let a := aM .w32 (.imm 18)
     let r := ruleM sM.me a [srcN a.b 1]
     let q : AtomReq := { op := atomKind 0, bytes := 4, system := false }
     issB (.atom a) r sM ∧ sM.me.destOf 0 1 a.d = .ok (some 4) ∧ ad0.oob 4 = false ∧ sM.me.opP 0 .w32 a.b = .ok 2 ∧
       okB (atomicV (sM.begun r a .atomic 4 4 [0] false) ((sM.ctx r).accReq sM a) ((sM.ctx r).useOf (sM.me.rslot 0)) q true ad0.segs
         (fun old => some (leBytes 4 (newVal 0 .w32 (leNat old) 2)))) = true) ∧
    (let s := onTeam { tM with recs := [(0, { recM with trapOob := false })] }
     let a : MArgs := { aM .w32 (.imm 18) with disp := 0x100 }
     let r := ruleM s.me a [srcN a.b 1]
     issB (.atom a) r s ∧ (match s.me.address (s.me.rslot 0) 0 a.a a.disp 4 4 with
       | .ok ad => ad.oob 4
       | .error _ => false) = true) :=
  ⟨by decide, by decide, by decide, by decide⟩

/-- Page 1 as a tagged page of FALLBACK 1 or 0 with frame 40 in the pool, and an access under tag 1. -/
def sCell (zf : Bool) : State :=
  let s := sM.setIpt 1 { ipt1 with tagged := true, zeroFb := zf }
  (s.setPart 0 { s.part 0 with pool := [40], tags := [(1, .live 1)] }).walked .read 0x10080
def g1 : TagUse := { tag := 1, must := false, life := none }
def q0 : AtomReq := { op := .add, bytes := 4, system := false }
/-- What the lines of HBM answer: the place itself, zeros or the base image, and the free slot of a new cell. -/
theorem wit_hbmPlaces :
    (∀ zf ∈ [true, false], let s := sCell zf
      let i := s.iptOf 1
      i.tagged = true ∧ g1.tag ≠ 0 ∧ i.zeroFb = zf ∧ i.attr ≠ 2 ∧ Memory.wf s = true ∧ s.mem.cells = [] ∧
      trLine s (qM aM) g1 .read none 0x10080 = (s, .ok (.hbm 1 i)) ∧ trLine s (qM aM) g1 .write none 0x10080 = (s, .ok (.hbm 1 i)) ∧
      trLine s (qM aM) g1 .atomic (some q0) 0x10080 = (s, .ok (.hbm 1 i)) ∧
      placeRead s (qM aM) g1 0x10080 (.hbm 1 i) = (if zf then .zero else .base 0x10080 i) ∧ s.goodLines 0x10080 4 i = true ∧
      (s.freeSlot (qM aM).part 1 (0x10080 / 4096 % 16)).isSome = true ∧ 0x10080 % 128 + 4 ≤ 128) ∧
    (let s := sWk .read
     trLine s (qM aM) .none .read none (0x1007C + 4) = (s, .ok (.hbm 1 ipt1)) ∧
       placeRead s (qM aM) .none 0x1007C (.hbm 1 ipt1) = .at 0x1007C ipt1 ∧ s.goodLines 0x1007C 4 ipt1 = true ∧
       trLine (sWk .write) (qM aM) .none .write none 0x1007C = (sWk .write, .ok (.hbm 1 ipt1)) ∧
       placeWrite (sWk .write) (qM aM) .none 0x1007C (.hbm 1 ipt1) = (sWk .write, .ok (.at 0x1007C ipt1)) ∧ (0x1007C + 4 ≤ 0x10080)) :=
  ⟨by decide, by decide⟩

/-- Page 1 as entry 3 of partition 0's aperture to another package, of an open stream. -/
def ap3 : Aperture := { vabase := 0x10000, pages := 1, eid := 1, perm := 7, route := 0xFF, raddr := 0x80000, target := 3, stream := 0 }
def sAp (fail : Nat) : State :=
  let s := withPart sM (fun p => { p with apert := [(3, ap3)], streams := [(0, { Stream.none with st := .open, eid := 1 })] })
  { s with fw := Firewall.policy, links := { s.links with failNext := tset 0 s.links.failNext (apKey 0 3) fail } }
theorem wit_remotePlaces :
    (∀ k ∈ [Kind.read, .write], trLine (sAp 0) (qM aM) .none k none 0x10080 = (sAp 0, .ok (.remote 3 ap3))) ∧
    trLine (sAp 0) (qM aM) .none .atomic (some q0) 0x10080 = (sAp 0, .ok (.remote 3 ap3)) ∧
    trLine (sAp 1) (qM aM) .none .read none 0x10080 = (sAp 1, .ok (.remote 3 ap3)) ∧
    (∀ k ∈ [0, 1, 2], (sAp 0).asked (qM aM) k 0x10080 = none) ∧ okB ((sAp 0).sendBurra (qM aM).part ap3) = true ∧
    okB (((sAp 0).freeBytes 4).2.sendBurra (qM aM).part ap3) = true ∧ (sAp 0).uwcFull (qM aM) = false ∧
    (qM aM).agent = some 128 ∧ ((sAp 0).team 128).uwc.length < 4095 ∧
    tget 0 ((sAp 0).sendBurra (qM aM).part ap3).1.links.failNext ((qM aM).part * 1024 + 3) = 0 ∧
    tget 0 ((sAp 1).sendBurra (qM aM).part ap3).1.links.failNext ((qM aM).part * 1024 + 3) = 1 :=
  ⟨by decide, by decide, by decide, by decide, by decide, by decide, by decide, by decide, by decide, by decide, by decide⟩

/-! ## Witnesses: what the copy engines move, restores, growths -/

/-- Operations that run with a lease and an open firewall, and one that the firewall stops. -/
def sCo (k : CopyKind) : State × CopyOp :=
  let o := { opC none with kind := k }
  ({ sC o with fw := Firewall.policy }, o)
theorem wit_copyDispatch :
    (∀ k ∈ [CopyKind.cpyt, .cpyz, .wsld], noCopies (sCo k).1 (sCo k).2 = false ∧ (sCo k).1.engineOpen (sCo k).2.req = true) ∧
    ({ sC (opC none) with fw := { Firewall.policy with fwm := [] } } : State).engineOpen (opC none).req = false ∧ (opC none).mark = .zero ∧ noCopies sM (opC none) = true ∧
    (cpytDesc descT).isSome = true ∧ cpytDesc (List.replicate 256 0) = none ∧ cpyzDesc (List.replicate 64 0) = none ∧
    (cpyzDesc (leBytes 8 0 ++ leBytes 8 0x80 ++ leBytes 8 0 ++ leBytes 8 128 ++ [2, 8] ++ List.replicate 30 0)).isSome = true :=
  ⟨by decide, by decide, by decide, by decide, by decide, by decide, by decide, by decide⟩

/-- Bytes 0 and 1 of the record, each one granule: one read, the other written. -/
theorem wit_copyMoves :
    (let s := sM
     let o := opC none
     moveVa o.src 0 1 = .ok (some 0x10000) ∧ moveVa o.dst 1 1 = .ok (some 0x10001) ∧
     trLine s (o.reqOf o.src) o.srcUse .read none 0x10000 = (s, .ok (.hbm 1 ipt1)) ∧
     placeRead s (o.reqOf o.src) o.srcUse 0x10000 (.hbm 1 ipt1) = .at 0x10000 ipt1 ∧ s.goodLines 0x10000 1 ipt1 = true ∧
     trLine s (o.reqOf o.dst) o.dstUse .write none 0x10001 = (s, .ok (.hbm 1 ipt1)) ∧
     placeWrite s (o.reqOf o.dst) o.dstUse 0x10001 (.hbm 1 ipt1) = (s, .ok (.at 0x10001 ipt1)) ∧ ipt1.attr ≠ 2 ∧
     (0x10000 + 1 ≤ 0x10001) ∧ ({ s := s } : CopyRun).e = .ok ∧
     moveVa o.src 0 4 = .ok (some 0x10000) ∧ moveVa o.dst 4 4 = .ok (some 0x10004) ∧
     trLine s o.req .none .read none 0x10080 = (s, .ok (.hbm 1 ipt1)) ∧
     placeRead s o.req .none 0x10080 (.hbm 1 ipt1) = .at 0x10080 ipt1 ∧ s.goodLines 0x10080 128 ipt1 = true) ∧
    (moveVa { recM with trapOob := false } 256 4 = .ok none ∧ moveVa recM 256 4 = .error 0x03) :=
  ⟨by decide, by decide⟩

/-- A block that reads whole, whose header is good or bad, in each mode of CPYZ. -/
theorem wit_copyBlocks :
    let r : CopyRun := { s := sM }
    let o := opC none
    (r.readWords o 0 32).1.e = .ok ∧ (r.readWords o 0 1).1.e = .ok ∧ ((r.readWords o 0 1).1.readWords o 4 8).1.e = .ok ∧
    bfqOk 0 8 = false ∧ bfqOk (BitVec.ofNat 32 (1 + 256 * 8)) 8 = true ∧
    (0x3F800000 : W32).toNat / 2 ^ 23 % 256 = 127 ∧ max 1 127 ≤ bfqE [0x3F800000] ∧ (0x7F800000 : W32).toNat / 2 ^ 23 % 256 = 255 :=
  by decide

/-- Descriptor reads: answered, at a page fault, past the space, misaligned. -/
theorem wit_readDesc :
    let o := { opC none with va := 0x10000 }
    let f := { opC none with va := 0x50000 }
    (o.va % 64 = 0 ∧ o.decl = false ∧ o.va + o.kind.size ≤ 2 ^ 57 ∧ okB (readV sM o.req .none .read (linesOf o.va o.kind.size)) = true) ∧
    (match (readV sM f.req .none .read (linesOf f.va f.kind.size)).2 with
     | .error (.cause .pagef va) => decide (va = 0x50000)
     | _ => false) = true ∧
    (2 ^ 57 ≤ ({ o with va := 2 ^ 57 } : CopyOp).va ∧ (2 ^ 57) % 64 = 0) := by decide

def pl (ty : Ty) (sp : Bool) : Plane := { planeB with ty := some ty, sparse := sp }
/-- A plane of a floating type, a sparse one, data that cannot be read, and an operation past the tile's row. -/
theorem wit_matrixForms :
    let c := sX.crew 0
    (Sys2Proof.Machine.pairOk .f16 .f16 = true ∧ Ty.isF .f16 = true ∧ 64 * packOf .f16 * 16 / 8 ≤ 128 * ((c.tileAt 1).rwm1 + 1) ∧
      (pl .f16 false).valid = true ∧ (pl .f16 false).poison = false ∧ (pl .f16 false).bad = false) ∧
    (¬ 128 * packOf .i8 * 8 / 8 ≤ 128 * ((c.tileAt 1).rwm1 + 1) ∧ (pl .i8 true).sparse = true) ∧
    ({ c with badSp := [0] } : Crew).tileRowBad 1 0 128 = true ∧ c.tileRowBad 1 0 128 = false ∧
    ({ c with badBank := [0] } : Crew).bankBad 0 0 4 = true ∧
    (wsOwned sX c.eid (sX.dieOf 128) 0 (32 * 128) = false ∧
      wsOwned { sX with mem := { sX.mem with gran := [(0, 1)] } } c.eid (sX.dieOf 128) 0 (32 * 128) = true) ∧
    (∃ x ∈ [(3 : Nat)], (sX.dieOf 128 * 2 ^ 28 + 0) / 128 ≤ x ∧ x < (sX.dieOf 128 * 2 ^ 28 + 0 + 32 * 128) / 128) ∧
    4 * Ty.bits .f32 ≤ 128 * ((c.tileAt 1).rwm1 + 1) := by
  refine ⟨by decide, by decide, by decide, by decide, by decide, by decide, ⟨3, by decide⟩, by decide⟩

/-- One restorable item of 4,096 bytes with key 1 and one byte 7 at its start. -/
def item1 : SavedItem := { meas := 0, openProf := (sM.enc 1).openProf, key := 1, len := 4096, seq := 0, st := 1, bytes := [(0, 7)], bad := false }
def sRes (i : SavedItem) (s : State := sM) : State :=
  { s with board := { s.board with capacity := 2 ^ 30 }, hold := { s.hold with restorable := [i] } }
/-- A restore to page 1: whole, torn, of another length, under a tag that is LIVE and one that is not, with a free slot and without. -/
theorem wit_restores :
    (let s := sRes item1
     let r := s.req 128
     s.lowestItem 1 1 = some item1 ∧ item1.st = 1 ∧ item1.bad = false ∧ (pagesOf 0x10000 4096) = [1] ∧
     (∀ p ∈ pagesOf 0x10000 4096, itemTagOk s r .none p = true ∧ ∀ q ∈ pagesOf 0x10000 4096, p ≠ q → False) ∧
     (s.primaryPage r 1).map (fun x => (x.1, x.2.attr, x.2.tagged)) = some (1, 0, false) ∧ (s.enc 1).items = [] ∧
     s.itemTotal + 4096 ≤ s.board.capacity) ∧
    ((sRes { item1 with st := 2 }).lowestItem 1 1 = some { item1 with st := 2 } ∧
      (sRes { item1 with len := 8192 }).lowestItem 1 1 = some { item1 with len := 8192 } ∧
      (sRes { item1 with bad := true }).lowestItem 1 1 = some { item1 with bad := true }) ∧
    (let s := sRes item1 (sCell true)
     let r := s.req 128
     itemTagOk s r { tag := 1, must := false } 1 = true ∧ itemTagOk s r { tag := 2, must := false } 1 = false ∧
     (s.primaryPage r 1).map (fun x => (x.1, x.2.attr, x.2.tagged)) = some (1, 0, true) ∧ (∀ q < 16, s.cellOf r.part 1 q 1 = none) ∧
     (s.freeSlot r.part 1 (0x10000 / 4096 % 16)).isSome = true ∧
     (let w := s.setPart 0 { s.part 0 with pool := [] }
      w.freeSlot r.part 1 (0x10000 / 4096 % 16) = none ∧ itemTagOk w r { tag := 1, must := false } 1 = true)) :=
  ⟨by decide, by decide, by decide⟩

/-- The only team of crew 0 waits alone with a GROW that has no room, and waits beside a younger waiter of crew 1. -/
theorem wit_growStuck :
    let a := sa 0 vz (.s 4)
    let s0 := withCfg (onTeam (tU { t1 with regs := 64 } 4 128))
    let w := s0.setTeam 128 (tW s0.me (.grow a))
    let x := (w.setCrew 1 (w.crew 0)).setTeam 144 { (tW t1 (.grow a)) with waiting := (tW t1 (.grow a)).waiting.map (fun y => { y with seq := 1 }) }
    ((w.growers 0 0).head? = some 128 ∧ w.growFits 128 128 = false ∧ w.growStuck 0 0 = true ∧ crewNo ((w.growers 0 0).getLastD 128) = crewNo 128) ∧
    ((x.growers 0 0).head? = some 128 ∧ x.growFits 128 128 = false ∧ x.growStuck 0 0 = true ∧ crewNo ((x.growers 0 0).getLastD 128) ≠ crewNo 128) ∧
    ((sG 64 128).moreRoom 0 0 128 ≤ ((sG 64 128).freeRoom 1).length) := by decide

/-! ## Witnesses: events and leases, pages and crews that leave, placement, ports, links, power -/

/-- An EVSIG of 0 on a doorbell, and two partitions that want engines. -/
def sLs : State :=
  let f := fun (p : Part) => { p with cfg := some cfg0, reqCpy := 2, reqCol := 1 }
  (sS.setPart 0 (f (sS.part 0))).setPart 1 (f (sS.part 1))
theorem wit_leases :
    (let g := sa 0 vz (.imm 18) (.imm 16)
     let r : State := { sS with eng := { sS.eng with rings := [(2, { Ring.none with eid := 1, doorb := 2 })] } }
     issB (.evsig g) (ruleS g) r ∧ r.mask g0 ≠ 0 ∧ (r.me.opndU (.imm 16)).toNat = 0 ∧ (r.ringAt 2).eid ≠ 0 ∧
       (r.event 0 2).toNat + 0 - (r.ringAt 2).consumed ≤ 64 ∧ r.me.cnt.coll + 0 ≤ 255) ∧
    (let s := (late sLs 0 100000)
     s.board.power = .on ∧ s.eng.boundary ≤ s.clk.ptp ∧ (s.parts.map (fun x => x.1)).Nodup ∧
     ((s.parts.map (fun x => x.1)).foldl State.lapse s).parts.map (fun x => (x.1, x.2.want false, x.2.want true)) = [(0, 2, 1), (1, 2, 1)]) :=
  ⟨by decide, by decide⟩

/-- A block for page 1 of enclave 1 with its image at 2^57 − 64 and, for ENPGIN, frame 40. -/
def pgB : List Byte := leBytes 2 1 ++ List.replicate 6 0 ++ leBytes 8 0x10000 ++ leBytes 8 (2 ^ 57 - 64) ++ leBytes 8 (40 * 65536) ++ List.replicate 32 0
/-- Enclave 1 with page 1, and after its page 9 has left. -/
def sPg (left : Bool) : State :=
  sM.setEnc 1 { sM.enc 1 with st := .sealed, pageVer := if left then [(9, 1)] else [], pagedOut := if left then [(9, 0)] else [] }
def pgI : List Byte := (pgB.take 8) ++ leBytes 8 0x90000 ++ pgB.drop 16
theorem wit_pages :
    (let s := sPg false
     s.sealedSt 1 = 0 ∧ (bfld pgB 0 2, bfld pgB 8 8 / 65536, bfld pgB 0x10 8 % 64) = (1, 1, 0) ∧ zeroIn pgB 2 6 = true ∧
     s.primaryOf 1 1 = some 1 ∧ s.primaryOf 1 7 = none ∧ s.pageBusy 1 1 1 = false ∧ s.goodIn (1 * 65536) 65536 (s.iptOf 1) = true ∧
     (s.setIpt 1 { s.iptOf 1 with m1 := { (s.iptOf 1).m0 with vpn := 3 } }).pageBusy 1 1 1 = true) ∧
    (let s := sPg true
     s.sealedSt 1 = 0 ∧ tget 0 (s.enc 1).pageVer 9 ≠ 0 ∧ tget 0 (s.enc 1).pageVer 1 = 0 ∧ bfld pgI 8 8 / 65536 = 9 ∧
     bfld pgI 0x18 8 / 65536 = 40 ∧ bfld pgI 0x18 8 % 65536 = 0 ∧ (s.iptOf 40).owner = 0 ∧ (s.iptOf 40).oworld = 2 ∧ (s.iptOf 40).valid = true ∧
     (s.iptOf 1).owner ≠ 0 ∧ zeroIn pgI 2 6 = true ∧ zeroIn pgI 0x20 32 = true) ∧
    ((sPg true).sealedSt 5 ≠ 0 ∧ sT.sealedSt 1 ≠ 0) := ⟨by decide, by decide, by decide⟩

/-- A block that reaches past the address space cannot be read or written. -/
theorem wit_blocks_past_the_space :
    (readBlock (sPg true) ((sPg true).req 128) (2 ^ 57 - 64) 65616).2 = none ∧
    (∀ x : List Byte, 64 < x.length → writeBlock (sPg false) ((sPg false).req 128) (2 ^ 57 - 64) x = (sPg false, false)) := by
  refine ⟨by decide, fun x h => ?_⟩
  unfold writeBlock
  rw [if_pos (by omega)]

/-- A saved crew of 0 frames and one that has been exported. -/
def sEx (out : Bool) : State := (onCrew (sPg false) (fun c => { c with core := none, exported := out, frames := [33] }))
theorem wit_crews_that_leave :
    (let s := sEx false
     s.sealedSt 1 = 0 ∧ (s.crewByUnit 1 (s.fixture 0).fid.toNat (s.crew 0).index).isSome = true ∧ (s.crewByUnit 1 77 0) = none ∧
     (s.crew 0).core = none ∧ (s.crew 0).exported = false ∧ ((sEx true).crew 0).exported = true ∧ ((sPg false).crew 0).core.isSome = true ∧
     [33].Nodup ∧ (readBlock s (s.req 128) 0x50000 64).2 = none ∧ (readBlock s (s.req 128) 0x10000 64).2.isSome = true) ∧
    (let s := sPg false
     let r := s.req 128
     let w := s.walked .write 0x10080
     0x10080 + 64 ≤ 2 ^ 57 ∧ linesOf 0x10080 64 = [(0x10080, 64)] ∧
     trLine (sWk .read) ((sWk .read).req 128) .none .read none 0x10080 = (sWk .read, .ok (.hbm 1 ipt1)) ∧
     placeRead (sWk .read) ((sWk .read).req 128) .none 0x10080 (.hbm 1 ipt1) = .at 0x10080 ipt1 ∧ (sWk .read).goodLines 0x10080 64 ipt1 = true ∧
     trLine w r .none .write none 0x10080 = (w, .ok (.hbm 1 ipt1)) ∧
     placeWrite w r .none 0x10080 (.hbm 1 ipt1) = (w, .ok (.at 0x10080 ipt1))) := ⟨by decide, by decide⟩

/-- Fixture 0 with its first crew to be placed, in an enclave with a crew region of 14 frames; two squads' worth of free cores. -/
def sPl (d : Desc → Desc) (fr : Nat) : State :=
  let s := sF (withCfg sS)
  let s := s.setFixture 0 { s.fixture 0 with desc := d { (s.fixture 0).desc with teams := 1, width := 32, regs := 64, squad := 0, sprows := 0, accs := 0, tiles := 0, tagMode := 0, cal := false, deadline := 0 } }
  s.setEnc 1 { s.enc 1 with savepa := 0x200000, savefr := fr, threads := 2 }
theorem wit_placeUnit :
    (let s := sPl id 24
     let f := s.fixture 0
     s.firstSaved 0 = none ∧ f.desc.room ≤ (s.enc f.eid).region ∧ max 1 f.desc.squad * f.desc.room ≤ s.regionFree f.eid ∧ f.desc.timed = false ∧
     f.desc.tagMode < 2 ∧ f.desc.teams ≤ 16 ∧ findUnit (s.availFor f 0) f.desc.claim f.desc.squad = some [0]) ∧
    (let s := sPl id 0
     (s.enc 1).region < (s.fixture 0).desc.room) ∧
    (let s := onCrew (sPl id 24) (fun c => { c with frames := (List.range 64).map (fun k => 32 + k) })
     (s.fixture 0).desc.room ≤ (s.enc 1).region ∧ s.regionFree 1 < 1 * (s.fixture 0).desc.room) ∧
    (let s := sPl (fun d => { d with squad := 2 }) 40
     let f := s.fixture 0
     s.firstSaved 0 = none ∧ f.desc.room ≤ (s.enc f.eid).region ∧ 2 * f.desc.room ≤ s.regionFree f.eid ∧
       findUnit (s.availFor f 0) f.desc.claim 2 = none) ∧
    (let c : Claim := { regs := 64, slots := 1, sp := 0, tiles := 0, accs := 0, plane := 0 }
     findUnit [(3, c), (5, c), (6, c)] c 2 = some [3, 5] ∧ findUnit [(3, c)] c 2 = none ∧ (0 < 2)) :=
  ⟨by decide, by decide, by decide, by decide, by decide⟩

/-- Entry 2 at slot 1, whose fixture 1 follows fixture 0 that still has its crew on core 0. -/
def sOv (rule : Nat) (stop : Bool) : State :=
  let s := (sF sS).setFixture 1 { (sF sS).fixture 0 with order := 1 }
  let s := s.setFixture 0 { s.fixture 0 with next := 1 }
  withPart s (fun p => { p with cal := [(2, { entry0 1 with bound := [(0, 0), (1, 1)], rule := rule })], osStop := stop })
theorem wit_overruns :
    (∀ rule ∈ [0, 1, 2], let s := late (sOv rule false) 0 100000
      let e := tget CalEntry.idle (s.part 0).cal 2
      s.board.power = .on ∧ e.armed = true ∧ e.start + 1000 * e.period * e.nextSlot ≤ s.clk.ptp ∧ e.rule = rule ∧
      s.overruns e e.nextSlot = [0] ∧ s.boundAt e e.nextSlot = some 1 ∧ s.waitsMet 0 (s.fixture 1).desc = true) ∧
    ((sOv 1 true).part 0).osStop = true := ⟨by decide, by decide⟩

/-- A fixture with a failed crew, a dead lane and a first trap. -/
def fRec : Fixture :=
  let f := sR.fixture 0
  { f with
    fails := [(0, { reason := 7, detail := 0 })], deadLanes := [(1, .oob)]
    first := some { pc := 0x10000, cause := 3, lane := 1, team := 0, crew := 0 } }
theorem wit_recordEntries :
    fRec.entries ≠ [] ∧ fRec.written ≠ [] ∧ fRec.fails[0]? = some (0, { reason := 7, detail := 0 }) ∧ fRec.deadLanes[0]? = some (1, .oob) ∧
    fRec.first = some { pc := 0x10000, cause := 3, lane := 1, team := 0, crew := 0 } ∧ (1 < 1024 ∧ 0 < 16) ∧ (sR.fixture 0).first = none := by
  decide

/-- Requests to VF 1's BAR0, of another requester, and past its end; a walk batch that has not waited long. -/
theorem wit_portForms :
    ((0 : Nat) = 0 ∧ 1 ≤ 1 ∧ 1 ≤ 12 ∧ 8 + 4 ≤ 2 ^ 20) ∧ (¬ ((1 : Nat) = 0 ∧ 1 ≤ 7 ∧ 7 ≤ 12)) ∧ (2 ^ 20 < 2 ^ 20 + 4) ∧
    (let w : WalkBatch := { agent := 0, cluster := 0, use := .instr, pages := [5], cycles := 0, aged := false }
     let s : State := { sS with eng := { sS.eng with walks := [(2, w)] } }
     s.eng.walks.find? (fun x => x.1 == 2) = some (2, w) ∧ s.mcycOf w.cluster < w.cycles + 65536 * 1000) := by decide

/-- No lane group for 10 ms, one of them for less; and a stream that failed to verify three requests. -/
theorem wit_streamEnds :
    (let g := (List.range 8).map (fun k => (k, 1))
     let s : State := { sK xO 0 [] with links := { (sK xO 0 []).links with group := g }, clk := { sT.clk with now := 10000000 } }
     let t : State := { s with links := { s.links with group := tset 0 g 7 2 } }
     s.noGroups = true ∧ t.noGroups = false ∧ State.streamUp (s.stream 0 0) = true) ∧ (3 ≤ ({ xO with authFails := 3 } : Stream).authFails) := by
  decide

/-- The collective of `descK` in each of its operations: its member list, streams, source and destination are reached. -/
def dK (op : Nat) : CollDesc := { op := op, ty := .f32, nmem := 2, rank := 0, count := 1, src := 0x10100, dst := 0x10140, memb := 0x10180 }
theorem wit_collectives :
    (∀ op ∈ [0, 1, 2], (dK op).rank < (dK op).nmem) ∧ ([1, 2] : List Nat)[1]? = some 2 ∧ Ty.f32 ∈ [Ty.f32, .bf16] ∧
    (let s := { sK xO 1 descK with fw := Firewall.policy }
     let r := engReq 0 1
     let mb := collRead r s (linesOf 0x10180 4) []
     let bs := collRead r mb.1 (linesOf 0x10100 8) []
     mb.2.2 = .ok ∧ collStreams mb.1 0 1 [0] = some 0x00 ∧ bs.2.2 = .ok ∧ s.engineOpen r = true ∧
     (collWrite r bs.1 (linesOf 0x10140 8) (List.replicate 8 0) 0).2 = (8, .ok) ∧ r.cl = none ∧
     ({ s with fw := { s.fw with fwm := [] } } : State).engineOpen r = false) ∧
    (let s := sM
     let r := engReq 0 1
     linesOf 0x10140 8 = [(0x10140, 8)] ∧ trLine s r .none .read none 0x10140 = (s, .ok (.hbm 1 ipt1)) ∧
     placeRead s r .none 0x10140 (.hbm 1 ipt1) = .at 0x10140 ipt1 ∧ s.goodLines 0x10140 8 ipt1 = true ∧
     trLine s r .none .write none 0x10140 = (s, .ok (.hbm 1 ipt1)) ∧ ipt1.attr ≠ 2 ∧
     placeWrite s r .none 0x10140 (.hbm 1 ipt1) = (s, .ok (.at 0x10140 ipt1)) ∧ (List.replicate 8 (0 : Byte)).length = 8) :=
  ⟨by decide, by decide, by decide, by decide, by decide⟩

/-- Measurements: above PLIM for 100 µs, clear for 1 ms, and neither. -/
theorem wit_measurements :
    (let s : State := { late sT 0 1000000 with board := { sT.board with overAt := some 0 } }
     let b := s.board.measured s.clk.now 4001 50
     b.overAt = some 0 ∧ 0 + 100000 ≤ s.clk.now ∧ s.board.plim < 4001 ∧ ¬ (105 < 50)) ∧
    (let s : State := { late sT 0 1000000 with board := { sT.board with calmAt := some 0 } }
     let b := s.board.measured s.clk.now 100 50
     b.calmAt = some 0 ∧ 0 + 1000000 ≤ s.clk.now ∧ 100 ≤ s.board.plim ∧ 50 ≤ 105) ∧
    (let b := sT.board.measured sT.clk.now 100 50
     b.overAt = none ∧ b.calmAt = some 0 ∧ ¬ (0 + 1000000 ≤ sT.clk.now)) ∧
    (State.reset.modstat = none ∧ sT.modstat.isSome = true ∧ (inPower sT .failed).modstat.isSome = true) := by decide

/-- A sealed enclave at the start of a save; a failed sequence; the 3 s of the bank. -/
theorem wit_powerForms :
    ((1, sS.enc 1) ∈ sS.encl ∧ (sS.enc 1).st = .sealed ∧ (inPower sS .quiesce).board.power = .quiesce ∧ (inPower sS .quiesce).handlersOver = true) ∧
    ((inPower sT .failed).board.power = .failed ∧ (false && true) = false ∧ (inPower sT .charging).clk.now + 5 ≤ 3 * 10 ^ 9 ∧
      3 * 10 ^ 9 < (inPower sT .charging).clk.now + 4 * 10 ^ 9) := by decide

/-- An instruction whose replay mask is empty, and a fetch that needs no walker. -/
theorem wit_emptyReplay :
    (let s := onTeam { t1 with replay := some 0 }
     s.agenda = [] ∧ s.ready 128 = true ∧ s.chosen 128 = true ∧ State.emptyReplay (s.team 128) = true ∧ (s.team 128).block = mkBlock [0]) ∧
    (let s := onTeam { t1 with block := [], blockAt := 0 }
     s.fetchWalk 128 = [] ∧ (s.takeFetched 128).ready 128 = true) := by decide
/-! ## Words -/

def illenc (w : Word96) : Bool := match decodeWord w with
  | .error .illenc => true
  | _ => false

def nopW : Word96 := 0x004007FBFDFE000000000000
def splitW : Word96 := 0x01C007FBFDFE000000050000
def ffmaW : Word96 := 0x30C60020140C041200000000
def shflW : Word96 := 0x1800004026A2FF0900000116
def cvtpkW : Word96 := 0x364000500806FF1404000012
def ldW : Word96 := 0x508000501DFE401120000020
def mmaW : Word96 := 0x708007FD41FE200008004003

/-- Words of the spec's examples with one field changed to a value that 06 R147-R165 or the instruction's rule excludes:
GP 0 with GNEG 1; HINT; a reserved operand code; the free bit of the B format; SPLIT under a guard; a reserved rounding
and TYPE; SEG 11 of SHFL; POS 1 of CVTPK with an 8-bit result; ORD rel, a reserved ORD, SCOPE 5 and VEC 3 of LD; the
rounding of MMA. -/
theorem test_changed_words :
    [nopW ||| (1#96 <<< 85), nopW ||| (1#96 <<< 76), nopW ^^^ (0x19A#96 <<< 67), splitW ||| (1#96 <<< 48),
     splitW ||| (1#96 <<< 81)].all illenc = true ∧
    [ffmaW ||| (6#96 <<< 29), ffmaW ||| (0x0C#96 <<< 32), shflW + 0x18, cvtpkW + 0x100].all illenc = true ∧
    [ldW ||| (2#96 <<< 42), ldW ||| (4#96 <<< 42), ldW ||| (5#96 <<< 39), ldW ||| (2#96 <<< 36),
     mmaW ||| (7#96 <<< 24)].all illenc = true ∧
    [0x81C007FBFDFE000000000040#96, 0xA08007FBFDFE000000000003#96, 0x920007FBFDFE000000000001#96,
     0x9000081BFDFE400000000001#96].all illenc = true :=
  ⟨by decide, by decide, by decide, by decide⟩

/-! One word of each family, written out in 06 R169 and the chapters' encoding examples. -/

theorem test_word_nop : decodeWord nopW = .ok (.nop (sa 0)) := by decide
theorem test_word_split : decodeWord splitW = .ok (.split (ba 5)) := by decide
theorem test_word_ffma : decodeWord ffmaW = .ok (.ffma { ra .f32 0 (.v 4) (.v 5) (.v 6) (.v 4) with g := { neg := false, p := 3 } }) := by
  decide
theorem test_word_shfl : decodeWord shflW = .ok (.shfl (ra .b32 0x116 (.v 8) (.v 9) (.imm 17))) := by decide
theorem test_word_cvtpk :
    decodeWord cvtpkW = .ok (.cvtpk { ra .f8e4 0x12 (.v 10) (.v 2) (.v 3) with sat := true }) := by decide
theorem test_word_ld : decodeWord ldW = .ok (.ld (ma .f32 (.v 10) (.v 7) vz 0 2 0x20)) := by decide
theorem test_word_mma : decodeWord mmaW = .ok (.mma { ta (some .i8) 0x4003 vz (.imm 16) with ta := 4 }) := by decide
theorem test_word_wait : decodeWord 0x81C007FBFDFE000000000041 = .ok (.wait (sa 0x41)) := by decide
theorem test_word_tagnew : decodeWord 0x9000081BFDFE400000000000 = .ok (.tagnew (sa 0 (.s 3) vz vz 2)) := by decide
theorem test_word_enpgin : decodeWord 0xA340086439FE800000000000 = .ok (.enpgin (sa 0 (.s 12) (.s 14) vz 4)) := by decide
theorem test_word_eret : decodeWord 0xA08007FBFDFE000000000001 = .ok (.eretSkip (sa 1)) := by decide
theorem test_word_pfret : decodeWord 0x920007FBFDFE000000000000 = .ok (.pfret (sa 0)) := by decide

/-- 06 R137, R139: the word of slot 1 stands in bytes 16 to 27 of its block, the least significant byte first. -/
theorem test_slot_bytes :
    blockWord (mkBlock [nopW, ldW]) 1 = ldW ∧ ((mkBlock [nopW, ldW]).drop 16).take 4 = [0x20, 0x00, 0x00, 0x20] := by decide

/-! ## Ill-formed terms -/

/-- A legal term beside terms that each break one of its checks. -/
def refuses (good : Instr) (bad : List Instr) : Bool := wellFormed good && bad.all (fun i => !wellFormed i)

/-- The R format: guard, unused sources, controls, operand kinds, widths, FN (06 R149, R155, R157; 09 R235-R260). -/
theorem test_ill_integer :
    let a := ra .i32
    let w := ra .w64 0 (.v 4) (.v 6) (.v 8)
    [refuses (.iadd a) [.iadd { a with g := { neg := true, p := 0 } }, .iadd { a with c := .v 1 }, .iadd { a with rnd := .rz },
       .iadd { a with ftzi := true }, .iadd { a with ftzo := true }, .iadd { a with na := true }, .iadd { a with nb := true },
       .iadd { a with nc := true }, .iadd { a with d := .imm 1 }, .iadd { a with d := .s 1, a := .v 1 }, .iadd { a with ty := .f32 },
       .iadd { a with fn := 0x200 }, .iadd { a with fn := 0x10 }, .iadd { a with fn := 1, sat := true }],
     refuses (.isub w) [.isub { w with d := .v 5 }, .isub { w with a := .v 7 }, .isub { w with b := .v 254 }],
     refuses (.imulh a) [.imulh { a with sat := true }, .imulh { a with ty := .i8 }],
     refuses (.imad (ra .i32 1 (.v 4) (.imm 1) (.imm 2) (.v 8))) [.imad (ra .i32 1 (.v 5) (.imm 1) (.imm 2) (.v 8)),
       .imad (ra .i32 1 (.v 4) (.imm 1) (.imm 2) (.v 9)), .imad (ra .i32 2 (.v 4) (.imm 1) (.imm 2) (.v 8))],
     refuses (.iabs (ra .i32 0 (.v 4) (.imm 1) vz)) [.iabs (ra .w32 0 (.v 4) (.imm 1) vz)],
     refuses (.idiv (ra .w32)) [.idiv { ra .w32 with sat := true }],
     refuses (.lop3 (ra .b32 0xFF)) [.lop3 (ra .b32 0x100), .lop3 (ra .i32 0xFF)],
     refuses (.shl (ra .b32 1)) [.shl (ra .b32 2)], refuses (.bfx (ra .i32)) [.bfx (ra .b32)],
     refuses (.popc (ra .b32 0 (.v 4) (.imm 1) vz)) [.popc (ra .b32 1 (.v 4) (.imm 1) vz)],
     refuses (.xset (ra .i16 7 vz (.imm 1) vz)) [.xset (ra .i16 8 vz (.imm 1) vz), .xset (ra .i16 7 (.v 4) (.imm 1) vz)],
     refuses (.movi (ia .w64 1)) [.movi (ia .f64 1), .movi (ia .w64 1 (.v 5)), .movi (ia .w64 1 (.imm 5))],
     refuses (.mov (ra .b32 1 (.s 4) (.v 1) vz)) [.mov (ra .b32 1 (.v 4) (.v 1) vz), .mov (ra .b32 0 (.s 4) (.v 1) vz)]].all id = true := by
  decide

theorem test_ill_predicates_lanes :
    let v := fun fn d => ra .b32 fn d vz vz
    [refuses (.pcmpi (ra .i32 0x210 vz)) [.pcmpi (ra .i32 0x216 vz), .pcmpi (ra .b32 0x212 vz), .pcmpi (ra .i32 0x110 vz),
       .pcmpi (ra .i32 0x1210 vz), .pcmpi (ra .i32 0x80210 vz), .pcmpi (ra .i32 0x210 (.v 4))],
     refuses (.pcmpf (ra .f32 0x21D vz)) [.pcmpf (ra .f32 0x21E vz)],
     refuses (.plog (v 0x2001 vz)) [.plog (v 0x1001 vz)],
     refuses (.pmovPack (v 0 (.v 4))) [.pmovPack (v 8 (.v 4)), .pmovPack (v 0 vz), .pmovPack (v 4 (.v 4))],
     refuses (.voteAll (v 0x10 vz)) [.voteAll (v 0x10 (.v 4)), .voteAll (v 0x20010 vz)],
     refuses (.voteBallot (v 0x20003 (.v 4))) [.voteBallot (v 0x20003 (.s 4)), .voteBallot (v 0x21003 (.v 4)), .voteBallot (v 0x103 (.v 4))],
     refuses (.shfl (ra .b32 0x116)) [.shfl (ra .i32 0x116), .shfl (ra .b32 0x416), .shfl (ra .b32 0x116 (.s 4))],
     refuses (.redux (ra .i32 0 (.s 4) (.v 1) vz)) [.redux (ra .i32 8 (.s 4) (.v 1) vz), .redux (ra .i32 3 (.v 4) (.v 1) vz),
       .redux (ra .i32 7 (.v 4) (.v 1) vz), .redux { ra .i32 1 (.v 4) (.v 1) vz with sat := true }],
     refuses (.scan (ra .i32 0 (.v 4) (.v 1) vz)) [.scan (ra .i32 0 (.s 4) (.v 1) vz), .scan (ra .i32 0x100 (.v 4) (.v 1) vz)],
     refuses (.matchLanes (ra .b32 0 (.v 4) (.v 1) vz)) [.matchLanes (ra .b32 4 (.v 4) (.v 1) vz)],
     refuses (.rdsr (sa 0x0A (.s 4))) [.rdsr (sa 0x00 (.s 4)), .rdsr (sa 0x0C (.s 4)), .rdsr (sa 0x18 (.v 5)), .rdsr (sa 0x10A (.s 4))],
     refuses (.wrsr (sa 0x10 vz (.s 1))) [.wrsr (sa 0x18 vz (.s 1)), .wrsr (sa 0x0F vz (.s 1)), .wrsr (sa 0x10 vz (.v 1))]].all id = true := by
  decide

theorem test_ill_floating :
    let f := ra .f32 0 (.v 4) (.v 5) (.v 6)
    let u := ra .f32 0 (.v 4) (.v 5) vz
    [refuses (.fadd { f with rnd := .rz, sat := true, na := true }) [.fadd { f with ty := .f64 }, .fadd { f with fn := 1 }, .fadd { f with nc := true }],
     refuses (.fmin f) [.fmin { f with rnd := .rz }, .fmin { f with ftzo := true }, .fmin { f with sat := true }],
     refuses (.frcp u) [.frcp { u with rnd := .rz }, .frcp { u with ty := .f16 }],
     refuses (.fclass u) [.fclass { u with fn := 1 }, .fclass { u with fn := 0x4000 }, .fclass { u with aa := true }],
     refuses (.hadd2 { f with ty := .f16x2 }) [.hadd2 f, .hadd2 { f with ty := .f16x2, fn := 4 }],
     refuses (.dadd (ra .f64 0 (.v 4) (.v 6) (.v 8))) [.dadd f, .dadd (ra .f64 0 (.v 4) (.v 5) (.v 8))],
     refuses (.cvt (ra .i32 0x12 (.v 4) (.v 5) vz)) [.cvt (ra .i32 0x00 (.v 4) (.v 5) vz), .cvt (ra .e8 0x03 (.v 4) (.v 5) vz),
       .cvt (ra .i32 0x112 (.v 4) (.v 5) vz), .cvt { ra .i32 0x12 (.v 4) (.v 5) vz with sat := true }, .cvt (ra .i32 0x1012 (.v 4) (.v 5) vz)],
     refuses (.cvtpk (ra .f16 0x12 (.v 4) (.v 5) (.v 6))) [.cvtpk (ra .f16 0x112 (.v 4) (.v 5) (.v 6)), .cvtpk (ra .f32 0x12 (.v 4) (.v 5) (.v 6))],
     refuses (.fscl (ra .f32 1 (.v 4) (.v 5) (.v 6))) [.fscl (ra .f32 2 (.v 4) (.v 5) (.v 6)), .fscl { ra .f32 1 (.v 4) (.v 5) (.v 6) with nb := true }]].all
      id = true := by
  decide

/-- The M and T formats (06 R151, R153; 12 R301-R317, 13 R327-R344). -/
theorem test_ill_memory_tiles :
    let m := ma .b32 (.v 4) (.v 1)
    let t := { ta none 0 vz (.imm 17) (.imm 18) with ta := 1, br := 2 }
    [refuses (.ld { m with vec := .two }) [.ld { m with vec := .two, d := .v 5 }, .ld { m with vec := .two, ty := .i8 }, .ld { m with ord := .rel },
       .ld { m with b := .v 2 }, .ld { m with mfn := 1 }, .ld { m with d := .s 4 }, .ld { m with d := .imm 4 }, .ld { m with a := vz },
       .ld { m with ty := .i4 }],
     refuses (.st { m with d := .s 62, vec := .two }) [.st { m with d := .s 63, vec := .two }, .st { m with d := vz }, .st { m with ord := .acq }],
     refuses (.atom { m with b := .v 2, mfn := 3 }) [.atom { m with b := .v 2, mfn := 7 }, .atom { m with b := .v 2, mfn := 3, vec := .two },
       .atom { m with b := .v 2, mfn := 3, d := .s 4 }, .atom { m with b := .v 2, mfn := 10 }, .atom { m with mfn := 3 }, .atom { m with b := .v 2 }],
     refuses (.atomc { ma .w64 (.v 4) (.v 1) (.v 8) with vec := .two }) [.atomc { ma .w64 (.v 6) (.v 1) (.v 8) with vec := .two },
       .atomc { ma .b32 (.v 4) (.v 1) (.v 8) with vec := .two }],
     refuses (.red { m with b := .v 2, mfn := 3, d := vz }) [.red { m with b := .v 2, mfn := 3 }, .red { m with b := .v 2, mfn := 6, d := vz },
       .red { m with b := .v 2, mfn := 3, d := vz, ord := .acq }],
     refuses (.lds m) [.lds { m with scope := .squad }, .lds { m with br := 1 }, .lds { ma .w64 (.v 4) (.v 1) with vec := .four }],
     refuses (.ldq { m with b := .imm 1 }) [.ldq { m with b := .v 1 }, .ldq { m with b := .imm 1, scope := .device }],
     refuses (.pref { m with d := vz }) [.pref m, .pref { m with d := vz, mfn := 3 }, .pref { m with d := vz, scope := .device }, .pref { m with d := vz, ty := .i32 }],
     refuses (.tfill t) [.tfill { t with a := .v 1 }, .tfill { t with ty := some .f32 }, .tfill { t with acc := 1 }, .tfill { t with tb := 1 },
       .tfill { t with rnd := .rz }, .tfill { t with sat := true }, .tfill { t with ftzo := true }, .tfill { t with d := .s 1 }, .tfill { t with tfn := 1 }],
     refuses (.tdecl { ta (some .i8) 0 vz (.s 4) with ta := 1 }) [.tdecl { ta none 0 vz (.s 4) with ta := 1 }, .tdecl { ta (some .i8) 0 vz (.s 4) with cc := 1 }],
     refuses (.ldw { ta (some .t2) 0 vz (.imm 16) with ta := 1 }) [.ldw { ta (some .f32) 0 vz (.imm 16) with ta := 1 }, .ldw { ta (some .t2) 1 vz (.imm 16) with ta := 1 }],
     refuses (.mma { ta (some .i8) 0x3F80 vz (.imm 16) with ta := 1 }) [.mma { ta (some .i8) 0x3FFF vz (.imm 16) with ta := 1 }, .mma { ta (some .i8) 0x3F81 vz (.imm 16) with ta := 1 },
       .mma { ta (some .i8) 0x3F80 vz (.imm 16) with ta := 1, ftzo := true }, .mma { ta (some .t2) 0x3F80 vz (.imm 16) with ta := 1 }],
     refuses (.amov { ta (some .f16) 0 (.v 4) with rnd := .rz }) [.amov { ta (some .i8) 0x8000 (.v 4) with rnd := .rz }, .amov (ta (some .e8) 0 (.v 4)), .amov (ta (some .f16) 1 (.v 4))]
    ].all id = true := by
  decide

/-- The S and B formats (06 R152, R154; 04 R102, 05 R129-R131, 07 R190, 14 R371-R375, 16 R420). -/
theorem test_ill_system :
    [refuses (.nop (sa 0)) [.nop (sa 1), .nop (sa 0 (.s 1)), .nop (sa 0 vz (.s 1)), .nop (sa 0 vz vz (.s 1)), .nop (sa 0 vz vz vz 1)],
     refuses (.brx (ba 0 vz (.s 1))) [.brx (ba 0 vz (.v 1)), .brx (ba 0 (.s 2) (.s 1))], refuses (.call (ba 1 (.s 2))) [.call (ba 1 (.v 2))],
     refuses (.ret (ba 0 vz (.s 2))) [.ret (ba 1 vz (.s 2))], refuses (.join (ba 0)) [.join (ba 1), .join (ba 0 vz vz gF)],
     refuses (.fence (sa 0x11)) [.fence (sa 0x10), .fence (sa 0x15), .fence (sa 0x21)],
     refuses (.wait (sa 0x41)) [.wait (sa 0x40), .wait (sa 0x61 vz (.imm 4)), .wait (sa 0x41 vz (.v 4))],
     refuses (.cntrd (sa 5 (.s 4))) [.cntrd (sa 6 (.s 4))], refuses (.sleep (sa 0 vz (.imm 17))) [.sleep (sa 0 vz (.v 17))],
     refuses (.tagnew (sa 0 (.s 4))) [.tagnew (sa 0 (.v 4)), .tagnew (sa 1 (.s 4)), .tagnew (sa (2 ^ 38) (.s 4)), .tagnew (sa (2 ^ 40) (.s 4))],
     refuses (.brset (sa 0 vz (.s 60) vz 1)) [.brset (sa 0 vz (.s 61) vz 1), .brset (sa 16 vz (.s 60) vz 1)],
     refuses (.msqryItem (sa 1 (.s 4) (.imm 17))) [.msqryItem (sa 2 (.s 4) (.imm 17)), .msqryItem (sa 1 (.s 4) (.v 1))],
     refuses (.evsig (sa 0 vz (.imm 18) (.imm 17))) [.evsig (sa 0 vz (.imm 15) (.imm 17)), .evsig (sa 1 vz (.imm 18) (.imm 17))],
     refuses (.evwaitTry (sa (2 ^ 44) vz (.imm 18) (.imm 17) 1)) [.evwaitTry (sa (2 ^ 44) vz (.imm 18) (.imm 17) 0)],
     refuses (.lease (sa 0 (.s 4) vz (.imm 17))) [.lease (sa 1 (.s 4) vz (.imm 17)), .lease (sa 0 (.s 4) (.s 1) (.imm 17))],
     refuses (.eretResume (sa 4 (.s 4) (.s 5) (.s 8))) [.eretResume (sa 4 (.s 4) (.s 5) (.s 61)), .eretResume (sa 5 (.s 4) (.s 5) (.s 8)), .eretResume (sa 4 vz (.s 5))],
     refuses (.tlbinv (sa 0 (.s 4) (.s 5) (.s 6))) [.tlbinv (sa 0 (.s 4) (.s 5)), .tlbinv (sa (2 ^ 42) (.s 4) (.s 5) (.s 6))],
     refuses (.encreate (sa 0 (.s 4) (.s 5))) [.encreate (sa 0 (.v 4) (.s 5)), .encreate (sa 0 (.s 4) (.imm 5))],
     refuses (.tsavePart (sa 0 (.s 4) (.imm 5))) [.tsavePart (sa 1 (.s 4) (.imm 5)), .tsavePart (sa 2 (.s 4) (.imm 5))]].all id = true := by
  decide
/-! ## Single steps -/

/-- 07 R198: NOP goes on; a block of one slot is followed by the next block (06 R138). -/
theorem test_step_nop : ((nx (step (State.reset.withFetchWord 96 0x004007FBFDFE000000000000))).team 0).pc = 0x10040 := by decide

/-- 09 R242: 3 + 2 in lane 0, and 5 is written to v4. -/
theorem test_step_iadd : ((nx (exec (.iadd (ra .i32)) sS)).team 128).vreg 0 4 = 5 := by decide
/-- 09 R243: 3 − 2. -/
theorem test_step_isub : ((nx (exec (.isub (ra .i32)) sS)).team 128).vreg 0 4 = 1 := by decide
/-- 09 R245: the smaller signed value of 3 and −1. -/
theorem test_step_imin : ((nx (exec (.imin (ra .i32 0 (.v 4) (.imm 19) (.imm 15))) sS)).team 128).vreg 0 4 = 0xFFFFFFFF := by decide
/-- 09 R248: the complement of 0. -/
theorem test_step_not : ((nx (exec (.not (ra .b32 0 (.v 4) (.imm 16) vz)) sS)).team 128).vreg 0 4 = 0xFFFFFFFF := by decide
/-- 09 R249: 3 << 2. -/
theorem test_step_shl : ((nx (exec (.shl (ra .b32)) sS)).team 128).vreg 0 4 = 12 := by decide
/-- 10 R267: 1.0 + 1.0 with the patterns of 08 R211. -/
theorem test_step_fadd :
    ((nx (exec (.fadd (ra .f32 0 (.v 4) (.v 5) (.v 5))) (onTeam { t1 with v := [(5, 0x3F800000)] }))).team 128).vreg 0 4 = 0x40000000 := by
  decide
/-- 07 R192: own block + 64·DISP. -/
theorem test_step_bra : ((nx (exec (.bra (ba 1)) sS)).team 128).pc = 0x10040 := by decide
/-- 07 R193: CALL saves the address of the next block. -/
theorem test_step_call : ((nx (exec (.call (ba 1 (.s 5))) sS)).team 128).ureg 5 = 0x10040 := by decide
/-- 12 R304: lane 0 stores 3 at 0x10080, the least significant byte first. -/
theorem test_step_st :
    let s := nx (exec (.st (aM .b32 vz 0 (.imm 19))) sM)
    (s.byte 0x10080, s.byte 0x10081, s.byte 0x10083) = (3, 0, 0) := by decide
/-- 12 R304: the bytes 01 02 03 04 load as 0x04030201. -/
theorem test_step_ld :
    ((nx (exec (.ld aM) (sM.setBytes 0x10080 [1, 2, 3, 4]))).team 128).vreg 0 4 = 0x04030201 := by decide
/-- 12 R306: the sum is stored and D receives the old value. -/
theorem test_step_atom :
    let s := nx (exec (.atom (aM .w32 (.imm 19))) (sM.setBytes 0x10080 [5]))
    (s.byte 0x10080, (s.team 128).vreg 0 4) = (8, 5) := by decide
/-- 07 R196: EXIT ends the only lane, and its team. -/
theorem test_step_exit : ((nx (exec (.exit (ba 0)) sS)).team 128).run = .ended := by decide
/-- 17 R429, 22 R478: power fails while the bank charges, and the module is off. -/
theorem test_step_powerFail : (nx (exec .powerFail (inPower sT .charging))).board.power = .off := by decide
/-- The examples of 11 R298: at 37.1 µs, and at 40.2 µs within bank 2's window. -/
theorem test_wswin : wswinAt 37100 = 0x0B540200 ∧ wswinAt 40200 = 0x0ED80304 := by decide

end Sys2Proof.Tests
end

section
/-! PROOFS. Placement and time in the distributor and the calendar (05 R111-R125, R135): what each event does, which cores
`findUnit` and `coresFor` name, what the placement of a new unit leaves, and from these the statement PlacementOfCrews. -/
namespace Sys2Proof.Machine

/-! ## Finding cores (05 R125) -/

/-- The cores of a cluster on which a claim fits, in the order of the list. -/
def ableIn (avail : List (Nat × Claim)) (c : Claim) (cl : Nat) : List Nat :=
  (avail.filter (fun x => c.fits x.2 && State.clusterOfCore x.1 == cl)).map (fun x => x.1)

theorem findUnit_single (avail : List (Nat × Claim)) (c : Claim) :
    findUnit avail c 0 = (avail.find? (fun x => c.fits x.2)).map (fun x => [x.1]) := by
  simp [findUnit, Function.comp_def]

theorem findUnit_squad (avail : List (Nat × Claim)) (c : Claim) {n : Nat} (hn : 0 < n) :
    findUnit avail c n =
      ((List.range 4).find? (fun cl => decide (n ≤ (ableIn avail c cl).length))).map
        (fun cl => (ableIn avail c cl).take n) := by
  have hcl : ∀ cl, ((avail.filter (fun x => c.fits x.2)).map (fun x => x.1)).filter (fun k => State.clusterOfCore k == cl) =
      ableIn avail c cl := fun cl => by
    rw [List.filter_map, List.filter_filter, ableIn]
    congr 2; funext x; exact Bool.and_comm _ _
  have hlen : ∀ cl, (((ableIn avail c cl).take n).length == n) = decide (n ≤ (ableIn avail c cl).length) := fun cl => by
    rw [List.length_take, Bool.eq_iff_iff]; simp
  simp only [findUnit, Nat.pos_iff_ne_zero.mp hn, if_false, hcl, List.find?_map, Function.comp_def, hlen]

/-- A single crew goes to the first core of the list on which it fits. -/
theorem findUnit_single_eq_some {avail : List (Nat × Claim)} {c : Claim} {cs : List Nat} (h : findUnit avail c 0 = some cs) :
    ∃ pre k x post, cs = [k] ∧ avail = pre ++ (k, x) :: post ∧ c.fits x = true ∧ ∀ y ∈ pre, c.fits y.2 = false := by
  rw [findUnit_single, Option.map_eq_some_iff] at h
  obtain ⟨⟨k, x⟩, hfind, rfl⟩ := h
  obtain ⟨hfits, pre, post, rfl, hpre⟩ := List.find?_eq_some_iff_append.mp hfind
  exact ⟨pre, k, x, post, rfl, rfl, hfits, fun y hy => by simpa using hpre y hy⟩

theorem findUnit_squad_eq_none (avail : List (Nat × Claim)) (c : Claim) {n : Nat} (hn : 0 < n) :
    findUnit avail c n = none ↔ ∀ cl < 4, (ableIn avail c cl).length < n := by
  simp [findUnit_squad avail c hn]

/-- A squad goes to the lowest cluster with enough cores, and there to the first of them. -/
theorem findUnit_squad_eq_some {avail : List (Nat × Claim)} {c : Claim} {n : Nat} (hn : 0 < n) {cs : List Nat}
    (h : findUnit avail c n = some cs) :
    ∃ cl < 4, cs = (ableIn avail c cl).take n ∧ n ≤ (ableIn avail c cl).length ∧ ∀ j < cl, (ableIn avail c j).length < n := by
  rw [findUnit_squad avail c hn, Option.map_eq_some_iff] at h
  obtain ⟨cl, hfind, rfl⟩ := h
  obtain ⟨henough, hcl, hlow⟩ := List.find?_range_eq_some.mp hfind
  exact ⟨cl, List.mem_range.mp hcl, rfl, by simpa using henough, fun j hj => by simpa using hlow j hj⟩

/-- A unit gets one core for each of its crews. -/
theorem findUnit_length {avail : List (Nat × Claim)} {c : Claim} {n : Nat} {cs : List Nat} (h : findUnit avail c n = some cs) :
    cs.length = max 1 n := by
  obtain rfl | hn := Nat.eq_zero_or_pos n
  · obtain ⟨_, _, _, _, rfl, -⟩ := findUnit_single_eq_some h
    rfl
  · obtain ⟨cl, -, rfl, henough, -⟩ := findUnit_squad_eq_some hn h
    rw [List.length_take]; omega

/-- One value written at each of the listed keys. -/
theorem tget_foldl_tset {β : Type} [DecidableEq β] (d v : β) (ks : List Nat) (t : List (Nat × β)) (j : Nat) :
    tget d (ks.foldl (fun t k => tset d t k v) t) j = if j ∈ ks then v else tget d t j := by
  induction ks generalizing t with
  | nil => rfl
  | cons k ks ih =>
    rw [List.foldl_cons, ih, tget_tset]
    by_cases hj : j = k <;> simp [hj]

/-! ## The next unit of a fixture (01 R22, R33) -/

/-- The indices of the crews of a fixture's next unit. -/
def Fixture.unit (f : Fixture) : List Nat := (List.range (max 1 f.desc.squad)).map (fun j => f.next + j)

/-- The one tag of a fixture whose crews' tags are not read from memory. -/
def fixedTag (d : Desc) : BitVec 16 := if d.tagMode = 0 then 0 else d.itag

/-- The crews of the next unit on cores `cs`: index, tag and core of each. -/
def Fixture.unitOn (f : Fixture) (cs : List Nat) : List ((Nat × BitVec 16) × Nat) :=
  (f.unit.map (fun i => (i, fixedTag f.desc))).zip cs

theorem Fixture.mem_unit (f : Fixture) {j : Nat} (h : j < max 1 f.desc.squad) : f.next + j ∈ f.unit :=
  List.mem_map.mpr ⟨j, List.mem_range.mpr h, rfl⟩

theorem Fixture.length_unitOn (f : Fixture) {cs : List Nat} (h : cs.length = max 1 f.desc.squad) :
    (f.unitOn cs).length = max 1 f.desc.squad := by
  simp [Fixture.unitOn, Fixture.unit, h]

theorem Fixture.getElem?_unitOn (f : Fixture) {cs : List Nat} (h : cs.length = max 1 f.desc.squad) {j core : Nat}
    (hj : cs[j]? = some core) : (f.unitOn cs)[j]? = some ((f.next + j, fixedTag f.desc), core) := by
  have hlt : j < max 1 f.desc.squad := h ▸ (List.getElem?_eq_some_iff.mp hj).1
  refine List.getElem?_zip_eq_some.mpr ⟨?_, hj⟩
  simp only [Fixture.unit, List.getElem?_map, List.getElem?_range hlt, Option.map_some]

namespace State

theorem coresIn_sorted (s : State) (p : Nat) : (s.coresIn p).Pairwise (fun a b => a < b) := by
  unfold coresIn
  cases (s.part p).cfg with
  | none => exact List.Pairwise.nil
  | some c => exact List.pairwise_lt_range.filter _

theorem mem_coresIn (s : State) (p k : Nat) :
    k ∈ s.coresIn p ↔ k < 768 ∧ (∃ c, (s.part p).cfg = some c ∧ c.cores.getLsbD k = true) ∧
      s.unitState (.core k) = .inService := by
  unfold coresIn
  cases (s.part p).cfg <;> simp

theorem coresFor_sorted (s : State) (p e : Nat) : (s.coresFor p e).Pairwise (fun a b => a < b) :=
  (s.coresIn_sorted p).filter _

theorem mem_coresFor (s : State) (p e k : Nat) :
    k ∈ s.coresFor p e ↔ k < 768 ∧ (∃ c, (s.part p).cfg = some c ∧ c.cores.getLsbD k = true) ∧
      s.unitState (.core k) = .inService ∧
      ∀ o ∈ s.eng.copyOps, o.kind = .wsld → o.eid = e → ∀ b, o.desc = some b → bfld b 2 1 ≠ k / 96 := by
  simp only [coresFor, List.mem_filter, mem_coresIn, and_assoc]
  simp [wsldRange, Option.any_eq_false]

theorem availFor_cores (s : State) (f : Fixture) (fx : Nat) :
    (s.availFor f fx).map (fun x => x.1) = s.coresFor f.part f.eid := by
  simp [availFor, Function.comp_def]

theorem availFor_free (s : State) (f : Fixture) (fx : Nat) (x : Nat × Claim) (h : x ∈ s.availFor f fx) :
    x.2 = s.freeOn f.part x.1 fx := by
  obtain ⟨k, -, rfl⟩ := List.mem_map.mp h
  rfl

/-! ## A new unit (01 R19-R22, R33, 05 R125) -/

theorem placeUnit_new {s : State} {fx : Nat} (h : s.firstSaved fx = none) : s.placeUnit fx = s.placeNew fx := by
  simp [placeUnit, h]

/-- The crews of the next unit: one, or a squad. -/
theorem unit_size (n : Nat) : (if n = 0 then 1 else n) = max 1 n := by
  split <;> omega

theorem placeNew_noRoom {s : State} {fx : Nat} (h : (s.enc (s.fixture fx).eid).region < (s.fixture fx).desc.room) :
    s.placeNew fx = some (s.failUnit fx (s.fixture fx).unit 0x08) := by
  simp [placeNew, h, unit_size, Fixture.unit]

theorem placeNew_full {s : State} {fx : Nat} (hroom : (s.fixture fx).desc.room ≤ (s.enc (s.fixture fx).eid).region)
    (hfull : s.regionFree (s.fixture fx).eid < max 1 (s.fixture fx).desc.squad * (s.fixture fx).desc.room) :
    s.placeNew fx = none := by
  simp [placeNew, hroom.not_gt, hfull, unit_size]

/-- Without a reservation the cores are those that are free. -/
theorem unitCores_free (s : State) (fx i n : Nat) (c : Claim) :
    s.unitCores fx i n c false = (findUnit (s.availFor (s.fixture fx) fx) c n).map (fun cs => (s, cs, false)) := rfl

theorem placeNew_noFit {s : State} {fx : Nat} (hroom : (s.fixture fx).desc.room ≤ (s.enc (s.fixture fx).eid).region)
    (hfree : max 1 (s.fixture fx).desc.squad * (s.fixture fx).desc.room ≤ s.regionFree (s.fixture fx).eid)
    (huntimed : (s.fixture fx).desc.timed = false)
    (hfind : findUnit (s.availFor (s.fixture fx) fx) (s.fixture fx).desc.claim (s.fixture fx).desc.squad = none) :
    s.placeNew fx = none := by
  simp [placeNew, hroom.not_gt, hfree.not_gt, unit_size, huntimed, unitCores_free, hfind]

/-- The reason of every crew of a unit that fails. -/
theorem tget_failUnit (s : State) (fx : Nat) (is : List Nat) (r : BitVec 8) {i : Nat} (h : i ∈ is) :
    tget { reason := 0, detail := 0 } ((s.failUnit fx is r).fixture fx).fails i = { reason := r, detail := 0 } := by
  rw [failUnit, modFixture, fixture_setFixture_self]
  exact (tget_foldl_tset ..).trans (if_pos h)

theorem crewTag_fixed (s : State) {f : Fixture} (h : f.desc.tagMode < 2) (i : Nat) :
    s.crewTag f i = (s, .ok (fixedTag f.desc)) := by
  obtain h | h : f.desc.tagMode = 0 ∨ f.desc.tagMode = 1 := by omega
  all_goals simp [crewTag, fixedTag, h]

theorem unitTags_fixed (s : State) {f : Fixture} (h : f.desc.tagMode < 2) (is : List Nat) :
    unitTags s f is = (s, .ok (is.map (fun i => (i, fixedTag f.desc)))) := by
  have key : ∀ (is : List Nat) (ts : List (Nat × Except (BitVec 8) (BitVec 16))),
      is.foldl (fun (x : State × List (Nat × Except (BitVec 8) (BitVec 16))) i =>
        ((x.1.crewTag f i).1, x.2 ++ [(i, (x.1.crewTag f i).2)])) (s, ts) =
        (s, ts ++ is.map (fun i => (i, .ok (fixedTag f.desc)))) := by
    intro is
    induction is with
    | nil => simp
    | cons i is ih => intro ts; rw [List.foldl_cons, crewTag_fixed s h, ih]; simp
  simp [unitTags, key, List.filterMap_map]

/-! ## The crews of a unit start (01 R19, R20) -/

/-- Each crew, given by its index, its tag and its core, starts in turn. -/
def startUnit (s : State) (fx : Nat) (onRes : Bool) (l : List ((Nat × BitVec 16) × Nat)) : State :=
  l.foldl (fun s x => s.startCrew fx x.1.1 x.2 x.1.2 onRes) s

theorem placeNew_fit {s : State} {fx : Nat} {cs : List Nat}
    (hroom : (s.fixture fx).desc.room ≤ (s.enc (s.fixture fx).eid).region)
    (hfree : max 1 (s.fixture fx).desc.squad * (s.fixture fx).desc.room ≤ s.regionFree (s.fixture fx).eid)
    (huntimed : (s.fixture fx).desc.timed = false) (htag : (s.fixture fx).desc.tagMode < 2)
    (hfind : findUnit (s.availFor (s.fixture fx) fx) (s.fixture fx).desc.claim (s.fixture fx).desc.squad = some cs) :
    s.placeNew fx =
      some ((s.startUnit fx false ((s.fixture fx).unitOn cs)).placedUnit fx (max 1 (s.fixture fx).desc.squad)) := by
  simp [placeNew, hroom.not_gt, hfree.not_gt, unit_size, huntimed, unitCores_free, hfind, unitTags_fixed s htag, startUnit,
    Fixture.unitOn, Fixture.unit]

/-- Writing teams changes the table of teams alone. -/
theorem foldl_setTeam_rest (g : Nat → Nat) (x : Nat → Team) (ks : List Nat) (s : State) :
    ks.foldl (fun s k => s.setTeam (g k) (x k)) s =
      { s with teams := (ks.foldl (fun s k => s.setTeam (g k) (x k)) s).teams } := by
  induction ks generalizing s with
  | nil => rfl
  | cons k ks ih => rw [List.foldl_cons, ih (s.setTeam (g k) (x k))]; rfl

/-- The teams of a crew after each has been written. -/
theorem team_foldl_setTeam (n m : Nat) (x : Nat → Team) (s : State) (a : Nat) :
    ((List.range m).foldl (fun s k => s.setTeam (agentOf n k) (x k)) s).team a =
      if agentOf n 0 ≤ a ∧ a < agentOf n m then x (a - agentOf n 0) else s.team a := by
  induction m with
  | zero => rw [if_neg (by omega)]; rfl
  | succ m ih =>
    rw [List.range_succ, List.foldl_append, List.foldl_cons, List.foldl_nil, team_setTeam, ih]
    unfold agentOf
    by_cases h : a = 128 + 16 * n + m
    · subst h; simp
    · rw [if_neg h]
      exact if_congr (by omega) rfl rfl

/-- Crew `n` is crew `i` of fixture `f`, just started on a core with a tag, its teams waiting since `since`. -/
structure Started (t : State) (n fx i core : Nat) (f : Fixture) (tag : BitVec 16) (since : Nat) : Prop where
  core : (t.crew n).core = some core
  index : (t.crew n).index = i
  fx : (t.crew n).fx = fx
  part : (t.crew n).part = f.part
  eid : (t.crew n).eid = f.eid
  open_ : (t.crew n).done = false
  squad : (t.crew n).squad = if f.desc.squad = 0 then none else some (i / f.desc.squad)
  teams : ∀ k < f.desc.teams, t.team (agentOf n k) = startTeam f.desc tag since k

/-- Only the crew and its teams matter. -/
theorem Started.of_agree {t t' : State} {n fx i core since : Nat} {f : Fixture} {tag : BitVec 16}
    (h : Started t n fx i core f tag since) (hc : t'.crew n = t.crew n)
    (ht : ∀ k < f.desc.teams, t'.team (agentOf n k) = t.team (agentOf n k)) : Started t' n fx i core f tag since := by
  obtain ⟨hcore, hindex, hfx, hpart, heid, hopen, hsquad, hteams⟩ := h
  rw [← hc] at hcore hindex hfx hpart heid hopen hsquad
  exact ⟨hcore, hindex, hfx, hpart, heid, hopen, hsquad, fun k hk => (ht k hk).trans (hteams k hk)⟩

section
variable (s : State) (fx i core : Nat) (tag : BitVec 16) (onRes : Bool)

/-- The start of a crew changes the tables of crews and teams and the next crew number. -/
theorem startCrew_rest :
    s.startCrew fx i core tag onRes = { s with nextCrew := s.nextCrew + 1
                                               crews := (s.startCrew fx i core tag onRes).crews
                                               teams := (s.startCrew fx i core tag onRes).teams } := by
  unfold startCrew
  rw [foldl_setTeam_rest]
  rfl

@[simp] theorem startCrew_nextCrew : (s.startCrew fx i core tag onRes).nextCrew = s.nextCrew + 1 := by rw [startCrew_rest]
@[simp] theorem startCrew_mem : (s.startCrew fx i core tag onRes).mem = s.mem := by rw [startCrew_rest]
@[simp] theorem startCrew_fixture (g : Nat) : (s.startCrew fx i core tag onRes).fixture g = s.fixture g := by
  rw [startCrew_rest]; rfl
@[simp] theorem startCrew_mcycOf (cl : Nat) : (s.startCrew fx i core tag onRes).mcycOf cl = s.mcycOf cl := by
  rw [startCrew_rest]; rfl

theorem startCrew_crew_ne {n : Nat} (h : n ≠ s.nextCrew) : (s.startCrew fx i core tag onRes).crew n = s.crew n := by
  unfold startCrew
  rw [foldl_setTeam_rest]
  exact crew_setCrew_ne _ _ h

theorem startCrew_team (a : Nat) :
    (s.startCrew fx i core tag onRes).team a =
      if agentOf s.nextCrew 0 ≤ a ∧ a < agentOf s.nextCrew (s.fixture fx).desc.teams then
        startTeam (s.fixture fx).desc tag (s.mcycOf (clusterOfCore core)) (a - agentOf s.nextCrew 0)
      else s.team a :=
  team_foldl_setTeam ..

theorem startCrew_started :
    Started (s.startCrew fx i core tag onRes) s.nextCrew fx i core (s.fixture fx) tag (s.mcycOf (clusterOfCore core)) := by
  have hteams : ∀ k < (s.fixture fx).desc.teams, (s.startCrew fx i core tag onRes).team (agentOf s.nextCrew k) =
      startTeam (s.fixture fx).desc tag (s.mcycOf (clusterOfCore core)) k := fun k hk => by
    rw [startCrew_team, if_pos (by unfold agentOf; omega)]
    congr 1
    unfold agentOf; omega
  constructor
  case teams => exact hteams
  all_goals
    unfold startCrew
    rw [foldl_setTeam_rest]
    exact congrArg _ (crew_setCrew_self _ _ _)
end

section
variable (s : State) (fx : Nat) (onRes : Bool) (l : List ((Nat × BitVec 16) × Nat))

theorem startUnit_cons (x : (Nat × BitVec 16) × Nat) :
    s.startUnit fx onRes (x :: l) = (s.startCrew fx x.1.1 x.2 x.1.2 onRes).startUnit fx onRes l := rfl

theorem startUnit_mem : (s.startUnit fx onRes l).mem = s.mem := by
  induction l generalizing s with
  | nil => rfl
  | cons x l ih => exact (ih _).trans (startCrew_mem ..)

theorem startUnit_fixture (g : Nat) : (s.startUnit fx onRes l).fixture g = s.fixture g := by
  induction l generalizing s with
  | nil => rfl
  | cons x l ih => exact (ih _).trans (startCrew_fixture ..)

theorem startUnit_nextCrew : (s.startUnit fx onRes l).nextCrew = s.nextCrew + l.length := by
  induction l generalizing s with
  | nil => rfl
  | cons x l ih =>
    refine (ih _).trans ?_
    rw [startCrew_nextCrew, List.length_cons]
    omega

/-- Crews with lower numbers stay as they are. -/
theorem startUnit_crew_of_lt {n : Nat} (h : n < s.nextCrew) : (s.startUnit fx onRes l).crew n = s.crew n := by
  induction l generalizing s with
  | nil => rfl
  | cons x l ih =>
    exact (ih _ (by rw [startCrew_nextCrew]; omega)).trans (startCrew_crew_ne _ _ _ _ _ _ (by omega))

/-- The agents below those of the next crew stay as they are. -/
theorem startUnit_team_of_lt {a : Nat} (h : a < agentOf s.nextCrew 0) : (s.startUnit fx onRes l).team a = s.team a := by
  induction l generalizing s with
  | nil => rfl
  | cons x l ih =>
    refine (ih _ (by rw [startCrew_nextCrew]; unfold agentOf at h ⊢; omega)).trans ?_
    rw [startCrew_team, if_neg (by omega)]

/-- Each crew of the unit has started on its core: the crews that start after it have other numbers and other agents. -/
theorem startUnit_started (hteams : (s.fixture fx).desc.teams ≤ 16) {j : Nat} {x : (Nat × BitVec 16) × Nat}
    (h : l[j]? = some x) :
    Started (s.startUnit fx onRes l) (s.nextCrew + j) fx x.1.1 x.2 (s.fixture fx) x.1.2 (s.mcycOf (clusterOfCore x.2)) := by
  induction l generalizing s j with
  | nil => simp at h
  | cons y l ih =>
    rw [startUnit_cons]
    cases j with
    | zero =>
      obtain rfl : y = x := by simpa using h
      refine (startCrew_started s fx y.1.1 y.2 y.1.2 onRes).of_agree (startUnit_crew_of_lt _ _ _ _ ?_) (fun k hk => ?_)
      · exact (startCrew_nextCrew ..).symm ▸ Nat.lt_succ_self _
      · exact startUnit_team_of_lt _ _ _ _ (by rw [startCrew_nextCrew]; unfold agentOf; omega)
    | succ j =>
      have := ih (s.startCrew fx y.1.1 y.2 y.1.2 onRes) (by simpa using hteams) (j := j) (by simpa using h)
      rw [startCrew_nextCrew, startCrew_fixture, startCrew_mcycOf, Nat.add_assoc, Nat.add_comm 1 j] at this
      exact this
end

theorem placedUnit_next (s : State) (fx n : Nat) : ((s.placedUnit fx n).fixture fx).next = (s.fixture fx).next + n := by
  simp [placedUnit, modFixture]

/-- Recording the placement touches no crew and no team. -/
theorem placedUnit_started {s : State} {fx n i core since : Nat} {f : Fixture} {tag : BitVec 16} (m : Nat)
    (h : Started s n fx i core f tag since) : Started (s.placedUnit fx m) n fx i core f tag since :=
  h.of_agree rfl (fun _ _ => rfl)

end State

/-! ## The distributor's turn (05 R125) -/

theorem placeGo_first {s t : State} {fx : Nat} (rest : List Nat) (h : s.placeUnit fx = some t) :
    placeGo s none (fx :: rest) = t := by
  simp [placeGo, h]

/-- Without power, a configuration or a running partition nothing is placed. -/
theorem execCrewPlacement_off {s : State} {p : Nat}
    (h : s.board.power ≠ .on ∨ (s.part p).cfg = none ∨ (s.part p).suspended = true) :
    execCrewPlacement p s = .next s := by
  obtain h | h | h := h <;> simp [execCrewPlacement, h]

theorem execCrewPlacement_on {s : State} {p : Nat} (hpow : s.board.power = .on) (hcfg : (s.part p).cfg.isSome = true)
    (hrun : (s.part p).suspended = false) :
    execCrewPlacement p s = .next ((placeGo s none (sortBy (placeFirst s)
      ((s.fixtures.filter (fun x => x.2.part == p && s.wantsPlace x.1)).map (fun x => x.1)))).lookPart p) := by
  have hcfg' : (s.part p).cfg.isNone = false := by simpa using hcfg
  simp [execCrewPlacement, hpow, hcfg', hrun]

/-! ## The start state (01 R19) -/

theorem ureg_startTeam (d : Desc) (tag : BitVec 16) (since k r : Nat) :
    (startTeam d tag since k).ureg r = if r = 0 then BitVec.ofNat 64 d.args else 0 :=
  tget_tset 0 [] 0 r (BitVec.ofNat 64 d.args)

theorem predLane_startTeam (d : Desc) (tag : BitVec 16) (since k : Nat) {j : Nat} (h : j ≠ 0) (l : Nat) :
    (startTeam d tag since k).predLane j l = false := by
  have : (startTeam d tag since k).pred j = 0 := by simp only [Team.pred, h, if_false]; rfl
  simp [Team.predLane, this]

/-! ## Ageing and deadlines (05 R118, R125, R135) -/

theorem execPlacementAged_eq (s : State) (fx : Nat) :
    execPlacementAged fx s = .next (if s.wantsPlace fx = true ∧ s.agedFx fx = true then
      s.setFixture fx { s.fixture fx with aged := true } else s) := by
  simp [execPlacementAged, State.modFixture]

theorem execTeamAged_eq (s : State) (g : Nat) :
    execTeamAged g s = .next (if s.ready g = true ∧ (s.team g).since + 1024 * 1000 ≤ s.mcyc g then
      s.setTeam g { s.team g with aged := true } else s) := by
  simp [execTeamAged, State.modTeam]

theorem execDeadlineExpiry_eq (s : State) (fx : Nat) :
    execDeadlineExpiry fx s = .next (if s.board.power = .on ∧ (s.fixture fx).retired = false ∧
        (s.fixture fx).desc.deadline ≠ 0 ∧ (s.fixture fx).tacc + 1000 * (s.fixture fx).desc.deadline ≤ s.clk.ptp ∧
        (s.fixture fx).doneCount < (s.fixture fx).ncrews then
      ((s.terminateFixture fx 0x02 0).osaBit fx 3).lookPart (s.fixture fx).part else s) := by
  simp [execDeadlineExpiry, and_assoc]

/-! ## Calendar slots (05 R119-R121) -/

namespace State

theorem mem_overruns (s : State) (e : CalEntry) (k x : Nat) :
    x ∈ s.overruns e k ↔ ∃ b ∈ e.bound, b.2 = x ∧ b.1 < k ∧
      ∃ c ∈ s.crews, c.2.fx = x ∧ c.2.done = false ∧ c.2.core.isSome = true := by
  simp only [overruns, List.mem_map, List.mem_filter, Bool.and_eq_true, decide_eq_true_eq, List.any_eq_true, beq_iff_eq,
    Bool.not_eq_true', and_assoc]
  constructor
  · rintro ⟨b, hb, hlt, ⟨c, hc, hfx, hrest⟩, rfl⟩
    exact ⟨b, hb, rfl, hlt, c, hc, hfx, hrest⟩
  · rintro ⟨b, hb, rfl, hlt, c, hc, hfx, hrest⟩
    exact ⟨b, hb, hlt, ⟨c, hc, hfx, hrest⟩, rfl⟩

/-- The next slot of an armed entry has been reached. -/
def slotDue (s : State) (e : CalEntry) : Prop :=
  s.board.power = .on ∧ e.armed = true ∧ e.slotAt e.nextSlot ≤ s.clk.ptp

/-- The fixture of the slot that starts is skipped, or becomes eligible. -/
def openSlot (s : State) (p fx : Nat) (e : CalEntry) (old : List Nat) : State :=
  if (s.part p).osStop || (!old.isEmpty && e.rule == 1) then s.skipFx fx 0x01 1
  else if !s.waitsMet p (s.fixture fx).desc then s.skipFx fx 0x03 4
  else s.startSlot p fx e

variable {s : State} {p fx : Nat} {e : CalEntry} {old : List Nat}

/-- What keeps the fixture of a slot from running whatever it waits for: the OS-fatal stop, and the rule SKIP. -/
theorem openSlot_stopped (h : (s.part p).osStop = true ∨ (e.rule = 1 ∧ old ≠ [])) :
    s.openSlot p fx e old = s.skipFx fx 0x01 1 := by
  rw [openSlot, if_pos]
  obtain h | ⟨hrule, hold⟩ := h
  · simp [h]
  · simp [hrule, hold]

theorem openSlot_running (h : ¬ ((s.part p).osStop = true ∨ (e.rule = 1 ∧ old ≠ []))) :
    s.openSlot p fx e old = if s.waitsMet p (s.fixture fx).desc = true then s.startSlot p fx e else s.skipFx fx 0x03 4 := by
  rw [openSlot, if_neg]
  · cases s.waitsMet p (s.fixture fx).desc <;> rfl
  · simpa [and_comm, imp_iff_not_or, not_or] using h

end State

/-- In a slot without a fixture the overrunning ones are flagged, and go on. -/
theorem foldl_overrun_unbound (rule : Nat) (old : List Nat) (s : State) :
    old.foldl (overrun rule false) s = old.foldl (fun s x => s.osaBit x 0) s := rfl

/-- In a slot with one the entry's rule is applied to each: PREEMPT, SKIP or ABORT. -/
theorem foldl_overrun_bound (rule : Nat) (old : List Nat) (s : State) :
    old.foldl (overrun rule true) s =
      if rule = 0 then old.foldl (fun s x => ((s.osaBit x 0).osaBit x 5).giveUpResv x) s
      else if rule = 1 then old.foldl (fun s x => s.osaBit x 0) s
      else old.foldl (fun s x => ((s.osaBit x 0).terminateFixture x 0x04 0).osaBit x 2) s := by
  match rule with
  | 0 => rfl
  | 1 => rfl
  | n + 2 => rfl

section
variable {s : State} {p k : Nat}

theorem execCalendarSlotStart_early (h : ¬ s.slotDue (tget CalEntry.idle (s.part p).cal k)) :
    execCalendarSlotStart p k s = .next s := by
  rw [execCalendarSlotStart, if_pos]
  simp only [State.slotDue, not_and_or] at h
  obtain h | h | h := h
  · simp [h]
  · simp [h]
  · simp [Nat.lt_of_not_le h]

/-- The entry goes to its next slot, the overrunning fixtures meet its rule, and the slot's own fixture, if any, is opened. -/
theorem execCalendarSlotStart_due (h : s.slotDue (tget CalEntry.idle (s.part p).cal k)) :
    let e := tget CalEntry.idle (s.part p).cal k
    let old := s.overruns e e.nextSlot
    let s1 := s.setPart p { s.part p with cal := tset CalEntry.idle (s.part p).cal k { e with nextSlot := e.nextSlot + 1 } }
    let s2 := old.foldl (overrun e.rule (s.boundAt e e.nextSlot).isSome) s1
    execCalendarSlotStart p k s =
      .next (((s.boundAt e e.nextSlot).elim s2 (fun fx => s2.openSlot p fx e old)).lookPart p) := by
  obtain ⟨hpow, harmed, hreached⟩ := h
  rw [execCalendarSlotStart, if_neg (by simp [hpow, harmed, hreached])]
  dsimp only
  cases s.boundAt _ _ <;> rfl

end

/-! ## Overrun flags and reservations given up (05 R120, R121) -/

theorem mem_tmap {β : Type} [DecidableEq β] (d : β) (f : β → β) (t : List (Nat × β)) (n : Nat) (v : β) :
    (n, v) ∈ tmap d f t ↔ v ≠ d ∧ ∃ w, (n, w) ∈ t ∧ f w = v := by
  simp only [tmap, List.mem_filter, List.mem_map, Prod.mk.injEq, Prod.exists, bne_iff_ne, ne_eq]
  constructor
  · rintro ⟨⟨m, w, hw, rfl, rfl⟩, hv⟩
    exact ⟨hv, w, hw, rfl⟩
  · rintro ⟨hv, w, hw, rfl⟩
    exact ⟨⟨n, w, hw, rfl, rfl⟩, hv⟩

namespace State

theorem fixture_osaBit_self (s : State) (fx k : Nat) :
    (s.osaBit fx k).fixture fx = { s.fixture fx with osa := (s.fixture fx).osa ||| (1#32 <<< k) } :=
  fixture_setFixture_self ..

theorem fixture_osaBit_ne (s : State) (k : Nat) {fx g : Nat} (h : g ≠ fx) : (s.osaBit fx k).fixture g = s.fixture g :=
  fixture_setFixture_ne _ _ h

/-- The bits of a word of which bit `k` has been set. -/
theorem getLsbD_or_bit (w : W32) {k j : Nat} (hj : j < 32) :
    (w ||| (1#32 <<< k)).getLsbD j = (w.getLsbD j || decide (j = k)) := by
  rw [BitVec.getLsbD_or, ← BitVec.twoPow_eq, BitVec.getLsbD_twoPow]
  congr 1
  rw [← Bool.decide_and, decide_eq_decide]
  omega

theorem mem_giveUpResv (s : State) (fx n : Nat) (c : Crew) :
    (n, c) ∈ (s.giveUpResv fx).crews ↔
      c ≠ Crew.none ∧ ∃ w, (n, w) ∈ s.crews ∧ (if w.fx = fx then { w with onRes := false } else w) = c :=
  mem_tmap Crew.none (fun w => if w.fx = fx then { w with onRes := false } else w) s.crews n c

theorem onRes_giveUpResv (s : State) {fx n : Nat} {c : Crew} (hc : c.fx = fx) (h : (n, c) ∈ (s.giveUpResv fx).crews) :
    c.onRes = false := by
  obtain ⟨-, w, -, rfl⟩ := (s.mem_giveUpResv ..).mp h
  by_cases hw : w.fx = fx
  · simp [hw]
  · simp [hw] at hc

/-- The crews of other fixtures stay as they are. -/
theorem mem_giveUpResv_ne (s : State) {fx n : Nat} {c : Crew} (hc : c.fx ≠ fx) (hsome : c ≠ Crew.none) :
    (n, c) ∈ (s.giveUpResv fx).crews ↔ (n, c) ∈ s.crews := by
  refine (s.mem_giveUpResv ..).trans ⟨?_, fun h => ⟨hsome, c, h, if_neg hc⟩⟩
  rintro ⟨-, w, hw, rfl⟩
  by_cases hfx : w.fx = fx
  · simp [hfx] at hc
  · simpa [hfx] using hw

end State

/-- Settles O49, clause by clause from the lemmas about each event and function. -/
theorem placementOfCrews : Obligations.PlacementOfCrews := by
  unfold Obligations.PlacementOfCrews
  refine ⟨?distributor, fun avail c cs => findUnit_single_eq_some, ?squad, ?cores, ?unit, ?start, ?deadline, ?teamAged,
    ?slot, ?flags⟩
  case distributor =>
    refine fun s p => ⟨execCrewPlacement_off, fun hpow hcfg hrun => ?_⟩
    have hexec := execCrewPlacement_on hpow hcfg hrun
    refine ⟨hexec, fun fx rest t hsort hplace => hexec.trans ?_, fun hnone => hexec.trans ?_⟩
    · rw [hsort, placeGo_first rest hplace]
    · rw [hnone]; rfl
  case squad => exact fun avail c n hn => ⟨findUnit_squad_eq_none avail c hn, fun cs => findUnit_squad_eq_some hn⟩
  case cores =>
    exact fun s f fx => ⟨s.availFor_cores f fx, s.availFor_free f fx, s.coresFor_sorted .., s.mem_coresFor f.part f.eid⟩
  case unit =>
    intro s fx f d n hsaved
    rw [State.placeUnit_new hsaved]
    refine ⟨fun hroom => ⟨_, State.placeNew_noRoom hroom, fun j hj => s.tget_failUnit fx _ _ (f.mem_unit hj)⟩,
      State.placeNew_full, State.placeNew_noFit, fun cs hroom hfree huntimed htag hteams hfind => ?_⟩
    have hlen : cs.length = n := findUnit_length hfind
    refine ⟨_, State.placeNew_fit hroom hfree huntimed htag hfind, State.startUnit_mem .., ?_, ?_, fun j core hj => ?_⟩
    · rw [State.placedUnit_next, State.startUnit_fixture]
    · exact (State.startUnit_nextCrew ..).trans (by rw [f.length_unitOn hlen])
    · obtain ⟨hcore, hindex, hfx, hpart, heid, hopen, hsquad, hteam⟩ :=
        State.placedUnit_started n (s.startUnit_started fx false _ hteams (f.getElem?_unitOn hlen hj))
      exact ⟨hcore, hindex, hfx, hpart, heid, hopen, hsquad, hteam⟩
  case start =>
    refine fun d tag since k => ⟨rfl, rfl, rfl, rfl, rfl, rfl, rfl, rfl, rfl, rfl, rfl, rfl, rfl, ?_, fun r hr => ?_,
      fun l r => rfl, fun l j => rfl, fun j l hj => predLane_startTeam d tag since k hj l⟩
    · rw [ureg_startTeam, if_pos rfl]
    · rw [ureg_startTeam, if_neg hr]
  case deadline =>
    refine fun s fx => ⟨fun hwants haged => ?_, fun h => ?_, fun hdue => ?_, fun hdue => ?_⟩
    · exact (execPlacementAged_eq s fx).trans (by rw [if_pos ⟨hwants, haged⟩])
    · exact (execPlacementAged_eq s fx).trans (by rw [if_neg (by obtain h | h := h <;> simp [h])])
    · exact (execDeadlineExpiry_eq s fx).trans (by rw [if_pos hdue])
    · exact (execDeadlineExpiry_eq s fx).trans (by rw [if_neg hdue])
  case teamAged =>
    refine fun s g => ⟨fun hready hlong => ?_, fun h => ?_⟩
    · exact (execTeamAged_eq s g).trans (by rw [if_pos ⟨hready, hlong⟩])
    · refine (execTeamAged_eq s g).trans (by rw [if_neg]; rintro ⟨hready, hlong⟩; simp [hready, hlong.not_gt] at h)
  case slot =>
    intro s p k e due s1 old flagged
    refine ⟨execCalendarSlotStart_early, s.mem_overruns e e.nextSlot, fun hdue hbound => ?_, fun fx hdue hbound => ?_⟩
    · refine (execCalendarSlotStart_due hdue).trans ?_
      rw [hbound, Option.isSome_none, foldl_overrun_unbound]; rfl
    · intro s2 stopped
      have hexec : exec (.calendarSlotStart p k) s = .next ((s2.openSlot p fx e old).lookPart p) := by
        refine (execCalendarSlotStart_due hdue).trans ?_
        rw [hbound, Option.isSome_some, foldl_overrun_bound]; rfl
      refine ⟨fun h => ?_, fun h hwait => ?_, fun h hwait => ?_⟩
      · rw [hexec, State.openSlot_stopped h]
      · rw [hexec, State.openSlot_running h, if_neg (by simp [hwait])]
      · rw [hexec, State.openSlot_running h, if_pos hwait]
  case flags =>
    refine fun s fx k hk => ⟨fun j hj => ?_, fun g hg => s.fixture_osaBit_ne k hg, rfl, fun n c hc => s.onRes_giveUpResv hc,
      fun n c hc hsome => s.mem_giveUpResv_ne hc hsome⟩
    rw [State.fixture_osaBit_self, State.getLsbD_or_bit _ hj]

end Sys2Proof.Machine
end

section
/-! PROOFS. Context tags (04 R88-R108): the allocator, the life of a tag, the queries and sr.tag, and from these the statements
TagLifeCycle and TagRegister. -/
namespace Sys2Proof.Machine

/-! ## An instruction that acts once for the team -/

section
variable {i j : Instr} {r : Rule} {s s' : State} {body : Ctx → Res}

/-- An instruction that traps with one cause in every lane of T. -/
theorem issues_trap {c : Cause} (h : Issues i r s) (hb : body (s.ctx r) = (s.ctx r).trap s c) :
    issues i r s body =
      .next (State.complete s.cur s.me.pc { s := s, k := trapAll s.me.width (s.mask r.guard) c }) := by
  rw [issues, issue_body h, hb]; rfl

/-- An instruction that begins to wait. -/
theorem issues_wait {u : Nat} {st : Option Nat} {lv : Option (List (Nat × Nat))} (h : Issues i r s)
    (hw : s.me.waiting = none) (hb : body (s.ctx r) = (s.ctx r).wait s j u st lv) :
    issues i r s body = .next (s.waits j u st lv) := by
  have hue : s.mask r.guard &&& ~~~ s.mask r.guard = 0 := BitVec.and_not_self _
  rw [issues, issue_body h, hb, complete_wait _ _ _ rfl]
  simp only [Ctx.wait, Ctx.waitAs, hw, hue, Option.isSome_none, Bool.false_eq_true, if_false]
  rfl

variable {c : Ctx} {f : Unit → Res}

/-- With T empty nothing happens. -/
theorem once_empty (h : c.m = 0) : c.once s f = Res.plain s := if_pos h

theorem once_run (h : c.m ≠ 0) : c.once s f = f () := if_neg h

theorem inEnclave_empty (h : c.m = 0) : inEnclave s c f = Res.plain s := once_empty h

/-- Outside every enclave the lanes of T trap PERM (04 R102). -/
theorem inEnclave_outside (h : c.m ≠ 0) (he : s.eidOf c.a = 0) : inEnclave s c f = c.trap s .perm :=
  (once_run h).trans (if_pos he)

theorem inEnclave_inside (h : c.m ≠ 0) (he : s.eidOf c.a ≠ 0) : inEnclave s c f = f () :=
  (once_run h).trans (if_neg he)

/-- An instruction of an enclave whose body neither traps nor waits. -/
theorem issues_inEnclave_plain {f : Ctx → Unit → Res} (h : Issues i r s) (hf : f (s.ctx r) () = Res.plain s') :
    let x := issues i r s (fun c => inEnclave s c (f c))
    let T := s.mask r.guard
    (T = 0 → x = .next (s.after s)) ∧
    (T ≠ 0 → s.eidOf s.cur = 0 → x = .next (State.complete s.cur s.me.pc { s := s, k := trapAll s.me.width T .perm })) ∧
    (T ≠ 0 → s.eidOf s.cur ≠ 0 → x = .next (s.after s')) :=
  ⟨fun hT => issues_plain h (inEnclave_empty hT), fun hT he => issues_trap h (inEnclave_outside hT he),
   fun hT he => issues_plain h ((inEnclave_inside hT he).trans hf)⟩

end

/-! ## sr.tag (R105, R106) -/

section
variable {s : State} {c : Ctx} {v : W64}

/-- The tags that sr.tag may hold. -/
theorem State.tagMine_iff (s : State) (a : Nat) (g : BitVec 16) :
    s.tagMine a g = true ↔
      g = 0 ∨ (g ≠ 0xFFFF ∧ (s.tagState (s.partOf a) g.toNat).liveIn = some (s.eidOf a)) := by
  simp [State.tagMine, State.tagState]

theorem tagSet_outside (he : s.eidOf c.a = 0) : tagSet c s v = c.trap s .perm := if_pos he

theorem tagSet_refused (he : s.eidOf c.a ≠ 0) (hg : s.tagMine c.a (v.setWidth 16) = false) :
    tagSet c s v = c.trap s .tagbad := by
  simp [tagSet, he, hg]

theorem tagSet_accepted (he : s.eidOf c.a ≠ 0) (hg : s.tagMine c.a (v.setWidth 16) = true) :
    tagSet c s v = Res.plain (s.setTeam c.a { c.t with tag := v.setWidth 16 }) := by
  simp [tagSet, he, hg, Res.plain]

end

/-- WRSR to sr.tag acts as TAGSET (R105). -/
theorem exec_wrsr_tag (s : State) {a : SArgs} (h : a.sfn.toNat % 2 ^ 8 = 0x14) :
    exec (.wrsr a) s = issues (.wrsr a) (ruleS a) s (fun c => c.once s (fun _ => tagSet c s (c.t.opndU a.a))) := by
  have hnum : fnBits a.sfn 0 8 = 0x14 := by rw [fnBits, pow_zero, Nat.div_one, h]
  show execWrsr a s = _
  simp only [execWrsr, hnum, if_true]

/-- Settles O37: TAGSET and WRSR of sr.tag run `tagSet`, which has one lemma per case; TAGGET is a plain write. -/
theorem tagRegister : Obligations.TagRegister := by
  unfold Obligations.TagRegister
  refine ⟨fun s a i hi hnum h => ?_, fun s a h => issues_inEnclave_plain h rfl⟩
  have hexec : exec i s = issues i (ruleS a) s (fun c => c.once s (fun _ => tagSet c s (c.t.opndU a.a))) := by
    obtain rfl | rfl : i = .tagset a ∨ i = .wrsr a := by simpa using hi
    · rfl
    · exact exec_wrsr_tag s (hnum rfl)
  intro T g mine traps
  simp only [traps, hexec]
  have hmine : s.tagMine s.cur g = true ↔ mine := s.tagMine_iff s.cur g
  refine ⟨fun hT => issues_plain h (once_empty hT), fun hT he => issues_trap h ?_, fun hT he hg => issues_trap h ?_,
    fun hT he hg => issues_plain h ?_⟩
  · exact (once_run hT).trans (tagSet_outside he)
  · exact (once_run hT).trans (tagSet_refused he (Bool.eq_false_iff.mpr (mt hmine.mp hg)))
  · exact (once_run hT).trans (tagSet_accepted he (hmine.mpr hg))

/-! ## The allocator (R89) -/

/-- A key whose value is not the default is listed. -/
theorem mem_keys_of_tget_ne {β : Type} {d : β} {t : List (Nat × β)} {k : Nat} (h : tget d t k ≠ d) : k ∈ t.map Prod.fst := by
  induction t with
  | nil => exact absurd rfl h
  | cons x t ih =>
    rw [List.map_cons, List.mem_cons]
    by_cases hk : k = x.1
    · exact .inl hk
    · exact .inr (ih (by simpa [tget, hk] using h))

/-- A table with `n` entries gives the default at one of any `n + 1` keys in a row. -/
theorem exists_tget_default {β : Type} (d : β) (t : List (Nat × β)) (k : Nat) :
    ∃ j, k ≤ j ∧ j ≤ k + t.length ∧ tget d t j = d := by
  by_contra hnone
  push Not at hnone
  have hsub : List.range' k (t.length + 1) ⊆ t.map Prod.fst := fun j hj => by
    have := List.mem_range'_1.mp hj
    exact mem_keys_of_tget_ne (hnone j (by omega) (by omega))
  have := (List.subperm_of_subset List.nodup_range' hsub).length_le
  simp at this

theorem le_lowestFree (ts : List (Nat × TagState)) (n k : Nat) : k ≤ lowestFree ts n k := by
  induction n generalizing k with
  | zero => exact Nat.le_refl k
  | succ n ih =>
    unfold lowestFree
    split
    · exact Nat.le_refl k
    · exact Nat.le_of_succ_le (ih (k + 1))

/-- The tags that the search passes over are in use. -/
theorem tget_of_lt_lowestFree {ts : List (Nat × TagState)} {n k j : Nat} (hk : k ≤ j) (hj : j < lowestFree ts n k) :
    tget .free ts j ≠ .free := by
  induction n generalizing k with
  | zero => exact absurd hj (Nat.not_lt.mpr hk)
  | succ n ih =>
    unfold lowestFree at hj
    split at hj
    case isTrue => omega
    case isFalse hused =>
      obtain rfl | hlt := hk.eq_or_lt
      · exact hused
      · exact ih hlt hj

/-- The search ends at a FREE tag when there is one within its fuel. -/
theorem tget_lowestFree {ts : List (Nat × TagState)} {n k j : Nat} (hk : k ≤ j) (hj : j < k + n) (hfree : tget .free ts j = .free) :
    tget .free ts (lowestFree ts n k) = .free := by
  induction n generalizing k with
  | zero => omega
  | succ n ih =>
    unfold lowestFree
    split
    case isTrue h => exact h
    case isFalse hused =>
      obtain rfl | hlt := hk.eq_or_lt
      · exact absurd hfree hused
      · exact ih hlt (by omega)

/-- What the allocator hands out: the lowest FREE tag. -/
theorem State.freeTag_eq_some {s : State} {p k : Nat} (h : s.freeTag p = some k) :
    1 ≤ k ∧ k ≤ 0xFFFE ∧ s.tagState p k = .free ∧ ∀ j, 1 ≤ j → j < k → s.tagState p j ≠ .free := by
  obtain ⟨hle, rfl⟩ : lowestFree (s.part p).tags ((s.part p).tags.length + 1) 1 ≤ 0xFFFE ∧
      lowestFree (s.part p).tags ((s.part p).tags.length + 1) 1 = k := by simpa [State.freeTag] using h
  obtain ⟨j, hlow, hhigh, hfree⟩ := exists_tget_default .free (s.part p).tags 1
  exact ⟨le_lowestFree .., hle, tget_lowestFree hlow (by omega) hfree, fun j => tget_of_lt_lowestFree⟩

/-! ## TAGNEW (R90, R104) -/

/-- TAGNEW of the current agent is over: D and PD receive the answer `k` (R104). -/
def State.tagnewEnds (s : State) (a : SArgs) (T : Mask) (k : Nat) : State :=
  s.modTeam s.cur (fun x => (x.putUni true a.d (BitVec.ofNat 64 k)).setPredMask a.pd.toNat T (k != 0xFFFF))

/-- A request that is not the oldest, or that finds no FREE tag, is given none (R90). -/
theorem noTag_eq_none {oldest : Bool} {k : Option Nat} (h : oldest = false ∨ k = none) :
    (if oldest then k else none) = none := by
  obtain rfl | rfl := h
  · rfl
  · exact ite_self none

section
variable {s : State} {a : SArgs}
  (h : Issues (.tagnew a) { ruleS a with banned := true } s) (hT : s.mask a.g ≠ 0) (he : s.eidOf s.cur ≠ 0)
include h hT he

/-- The oldest request takes the tag. -/
theorem exec_tagnew_takes {k : Nat} (hold : s.oldestTagnew (s.partOf s.cur) s.cur (s.me.tagnewSince.getD s.nextWait) = true)
    (hfree : s.freeTag (s.partOf s.cur) = some k) :
    exec (.tagnew a) s = .next (s.after
      (((s.setTag (s.partOf s.cur) k (.live (s.eidOf s.cur))).newLife (s.partOf s.cur) k).tagnewEnds a (s.mask a.g) k)) := by
  refine issues_plain h ((inEnclave_inside hT he).trans ?_)
  simp only [hold, hfree, if_true]
  rfl

variable (hnone : s.oldestTagnew (s.partOf s.cur) s.cur (s.me.tagnewSince.getD s.nextWait) = false ∨
  s.freeTag (s.partOf s.cur) = none)
include hnone

/-- A request that gets no tag waits. -/
theorem exec_tagnew_waits (hw : s.me.waiting = none) : exec (.tagnew a) s = .next (s.waits (.tagnew a)) := by
  refine issues_wait h hw ((inEnclave_inside hT he).trans ?_)
  simp only [noTag_eq_none hnone, Ctx.stalledOut, hw, Bool.false_eq_true, if_false]

/-- After the budget of R90 it fails. -/
theorem exec_tagnew_fails {w : Waiting} (hw : s.me.waiting = some w) (hlong : w.cycles + 2 ^ 20 * 1000 ≤ s.mcyc s.cur) :
    exec (.tagnew a) s = .next (s.after (s.tagnewEnds a (s.mask a.g) 0xFFFF)) := by
  refine issues_plain h ((inEnclave_inside hT he).trans ?_)
  simp only [noTag_eq_none hnone, Ctx.stalledOut, hw, hlong, decide_true, if_true]
  rfl

end

/-- A team that waits in TAGNEW has its place in the order of waits. -/
theorem Team.tagnewSince_eq {t : Team} {w : Waiting} {a : SArgs} (hw : t.waiting = some w) (hi : w.instr = .tagnew a) :
    t.tagnewSince = some w.seq := by
  obtain ⟨i, _⟩ := w
  obtain rfl : i = .tagnew a := hi
  simp [Team.tagnewSince, hw]

theorem State.wake_waiting {s : State} {g : Nat} {w : Waiting} (hw : (s.team g).waiting = some w) :
    s.wake g = s.awake g w := by
  simp [State.wake, State.modTeam, Team.wake, hw]

section
variable {s : State} {g : Nat} {w : Waiting} {a : SArgs} (hw : (s.team g).waiting = some w) (hi : w.instr = .tagnew a)
include hw hi

theorem exec_tagnewGrant_eq : exec (.tagnewGrant g) s =
    .next (if s.oldestTagnew (s.partOf g) g w.seq = true ∧ (s.freeTag (s.partOf g)).isSome = true then s.awake g w else s) := by
  show execTagnewGrant g s = _
  simp only [execTagnewGrant, Team.tagnewSince_eq hw hi, Bool.and_eq_true, State.wake_waiting hw]

theorem exec_tagnewTimeout_eq : exec (.tagnewTimeout g) s =
    .next (if w.cycles + 2 ^ 20 * 1000 ≤ s.mcyc g then s.awake g w else s) := by
  refine congrArg Host.Outcome.next (if_congr ?_ (State.wake_waiting hw) rfl)
  rw [Team.tagnewSince_eq hw hi, hw, Option.isSome_some, Option.any_some, Bool.true_and, decide_eq_true_eq]

end

/-! ## TAGRET (R99, R107) -/

/-- One more tag operation of the current agent has begun. -/
def State.tagOpBegun (s : State) : State :=
  ({ s with eng := { s.eng with nextOp := s.eng.nextOp + 1 } } : State).modTeam s.cur (fun x => x.cntUp .tag)

/-- Beginning an operation leaves the operations in progress as they are. -/
theorem State.ownPending_tagOpBegun (s : State) (o n : Nat) : s.tagOpBegun.ownPending o n = s.ownPending o n := rfl

section
variable {s : State} {a : SArgs}
  (h : Issues (.tagret a) { ruleS a with banned := true } s) (hT : s.mask a.g ≠ 0) (he : s.eidOf s.cur ≠ 0)
include h hT he

theorem exec_tagret_refused (hbad : (s.me.opndU a.a).toNat % 65536 = 0 ∨ (s.me.opndU a.a).toNat % 65536 = 0xFFFF ∨
      s.tagState (s.partOf s.cur) ((s.me.opndU a.a).toNat % 65536) ≠ .live (s.eidOf s.cur)) :
    exec (.tagret a) s =
      .next (State.complete s.cur s.me.pc { s := s, k := trapAll s.me.width (s.mask a.g) .tagbad }) :=
  issues_trap h ((inEnclave_inside hT he).trans (if_pos hbad))

/-- A LIVE tag of the enclave begins to retire. -/
theorem exec_tagret_accepted {k : Nat} (hk : (s.me.opndU a.a).toNat % 65536 = k) (h0 : k ≠ 0) (hmax : k ≠ 0xFFFF)
    (hlive : s.tagState (s.partOf s.cur) k = .live (s.eidOf s.cur)) (hroom : s.me.cntFull .tag = false) :
    exec (.tagret a) s = .next (s.after (s.tagOpBegun.setTag (s.partOf s.cur) k
      (if s.ownPending (s.ownOf s.cur) s.eng.nextOp then .leaving (s.eidOf s.cur) (s.ownOf s.cur) s.eng.nextOp
       else .retiring (s.eidOf s.cur) (some (s.ownOf s.cur, s.eng.nextOp))))) := by
  have hmine : ¬ (k = 0 ∨ k = 0xFFFF ∨ s.tagState (s.partOf s.cur) k ≠ .live (s.eidOf s.cur)) := by simp [h0, hmax, hlive]
  refine issues_plain h ((inEnclave_inside hT he).trans ?_)
  simp only [hk, if_neg hmine, hroom, Bool.false_eq_true, if_false, ← State.ownPending_tagOpBegun s]
  rfl

end

/-! ## Freeing cells (R99) -/

theorem exec_tagCellFree_leaving {s : State} {p e o n : Nat} {g : BitVec 16} (hst : s.tagState p g.toNat = .leaving e o n) :
    exec (.tagCellFree p g) s =
      .next (if s.ownPending o n then s else s.setTag p g.toNat (.retiring e (some (o, n)))) := by
  show execTagCellFree p g s = _
  simp only [execTagCellFree, hst]

section
variable {s : State} {p e : Nat} {g : BitVec 16} {o : Option (Nat × Nat)} (hst : s.tagState p g.toNat = .retiring e o)
include hst

theorem exec_tagCellFree_none (hc : s.tagCells p g = []) :
    exec (.tagCellFree p g) s = .next (if s.olderTagret p o then s else s.tagFreed p g.toNat o) := by
  show execTagCellFree p g s = _
  simp only [execTagCellFree, hst, hc]

theorem exec_tagCellFree_last {c : Cell} (hc : s.tagCells p g = [c]) :
    exec (.tagCellFree p g) s =
      .next (if s.olderTagret p o then s.freeCell c else (s.freeCell c).tagFreed p g.toNat o) := by
  show execTagCellFree p g s = _
  simp only [execTagCellFree, hst, hc]

theorem exec_tagCellFree_more {c d : Cell} {cs : List Cell} (hc : s.tagCells p g = c :: d :: cs) :
    exec (.tagCellFree p g) s = .next (s.freeCell c) := by
  show execTagCellFree p g s = _
  simp only [execTagCellFree, hst, hc]

end

/-- A zeroed byte reads 0. -/
theorem State.byte_zeroRange_in (s : State) {pa n q : Nat} (hlow : pa ≤ q) (hhigh : q < pa + n) :
    (s.zeroRange pa n).byte q = 0 := by
  by_contra hq
  obtain ⟨x, hx, rfl⟩ := List.mem_map.mp (mem_keys_of_tget_ne hq)
  have := (List.mem_filter.mp hx).2
  simp [hlow, hhigh] at this

theorem State.byte_zeroRange_out (s : State) {pa n q : Nat} (h : q < pa ∨ pa + n ≤ q) :
    (s.zeroRange pa n).byte q = s.byte q :=
  tget_filter_key 0 (fun k => !(decide (pa ≤ k) && decide (k < pa + n))) _ _ (by simp; omega)

/-- Of the bytes of HBM, freeing a cell changes those that it zeroes. -/
theorem State.byte_freeCell (s : State) (c : Cell) (q : Nat) : (s.freeCell c).byte q = (s.zeroRange c.slot 4096).byte q := rfl

theorem State.not_mem_freeCell (s : State) (c : Cell) : c ∉ (s.freeCell c).mem.cells := fun h => by
  simpa using (List.mem_filter.mp h).2

/-! ## TAGQRY (R108) -/

/-- The word for a tag, by its state. -/
theorem tagWord_eq (s : State) (p e k : Nat) :
    tagWord s p e k =
      if k = 0 ∨ k = 0xFFFF then BitVec.allOnes 64
      else if s.tagState p k = .free then 0
      else if (s.tagState p k).isRetiring = true then 3
      else if (s.tagState p k).liveIn = some e then
        BitVec.ofNat 64 (1 + (s.tagCells p (BitVec.ofNat 16 k)).length * 2 ^ 32)
      else 2 := by
  unfold tagWord
  congr 1
  cases s.tagState p k with
  | free => rfl
  | live _ => rfl
  | leaving _ _ _ => rfl
  | retiring _ _ => rfl

/-- Settles O36: the allocator, each outcome of TAGNEW and TAGRET, each step of TAG_CELL_FREE and each word of TAGQRY by the
lemma about it. -/
theorem tagLifeCycle : Obligations.TagLifeCycle := by
  unfold Obligations.TagLifeCycle
  refine ⟨⟨fun s p k => State.freeTag_eq_some, ?tagnew, ?tagret, fun s p e o n g => exec_tagCellFree_leaving,
    fun s p e g o hst => ⟨exec_tagCellFree_none hst, fun c => exec_tagCellFree_last hst,
      fun c d cs => exec_tagCellFree_more hst⟩, ?freed, ?wakes⟩, ?queries⟩
  case tagnew =>
    intro s a h T p since gives noTag
    refine ⟨fun hT => issues_plain h (inEnclave_empty hT), fun hT he => issues_trap h (inEnclave_outside hT he),
      fun hT he => ⟨fun k hold hfree => ?_, exec_tagnew_waits h hT he, fun hnone w hw hlong => ?_⟩⟩
    · exact exec_tagnew_takes h hT he hold hfree
    · exact exec_tagnew_fails h hT he hnone hw hlong
  case tagret =>
    intro s a h T p e k o n s1
    exact ⟨fun hT => issues_plain h (inEnclave_empty hT), fun hT he hbad => exec_tagret_refused h hT he hbad,
      fun hT he h0 hmax hlive hroom => exec_tagret_accepted h hT he rfl h0 hmax hlive hroom⟩
  case freed =>
    refine fun s c => ⟨fun q hlow hhigh => ?_, fun q hout => ?_, s.not_mem_freeCell c⟩
    · exact (s.byte_freeCell c q).trans (s.byte_zeroRange_in hlow hhigh)
    · exact (s.byte_freeCell c q).trans (s.byte_zeroRange_out hout)
  case wakes =>
    intro s g w a hw hi awake ok
    rw [exec_tagnewGrant_eq hw hi, exec_tagnewTimeout_eq hw hi]
    exact ⟨fun hok => by rw [if_pos hok], fun hok => by rw [if_neg hok], fun hlong => by rw [if_pos hlong],
      fun hshort => by rw [if_neg hshort.not_ge]⟩
  case queries =>
    intro s a i v p e x live ret st hi h
    obtain ⟨rfl, rfl⟩ | ⟨rfl, rfl⟩ | ⟨rfl, rfl⟩ : (i = .tagqryFree a ∧ v = _) ∨ (i = .tagqryTag a ∧ v = _) ∨
        (i = .tagqryPool a ∧ v = _) := by simpa only [List.mem_cons, List.not_mem_nil, or_false, Prod.mk.injEq] using hi
    · exact issues_inEnclave_plain h rfl
    · rw [← tagWord_eq]
      exact issues_inEnclave_plain h rfl
    · exact issues_inEnclave_plain h rfl

end Sys2Proof.Machine
end

section
/-! PROOFS. GROW, SHRINK and GROW_GRANT (05 R132-R134): the resized team, the room of a crew's blob, the queue of the waiting
teams, and from these the statement RegistersGrowAndShrink. -/
namespace Sys2Proof.Machine

/-! ## The resized team (05 R133) -/

/-- The registers below the new count keep their values and the others read 0. -/
theorem Team.vreg_resize (t : Team) (m l : Nat) {r : Nat} (hr : r < 256) :
    (t.resize m).vreg l r = if r < m then t.vreg l r else 0 := by
  have hkey : (l * 256 + r) % 256 = r := by omega
  show tget 0 (t.v.filter (fun x => decide (x.1 % 256 < m))) (l * 256 + r) = _
  split
  case isTrue h => exact tget_filter_key 0 (fun k => decide (k % 256 < m)) t.v _ (by simpa [hkey] using h)
  case isFalse h =>
    by_contra hne
    obtain ⟨x, hx, hxk⟩ := List.mem_map.mp (mem_keys_of_tget_ne hne)
    have : x.1 % 256 < m := by simpa using (List.mem_filter.mp hx).2
    rw [hxk, hkey] at this
    exact h this

/-! ## The room of the crew's blob (16 R414) -/

namespace State

theorem growFits_iff (s : State) (g m : Nat) :
    s.growFits g m = true ↔
      s.rowsWith (crewNo g) (teamNo g) m ≤ s.rows (crewNo g) +
        (s.freeOn (s.crew (crewNo g)).part ((s.crew (crewNo g)).core.getD 0) (s.crew (crewNo g)).fx).regs ∧
      s.moreRoom (crewNo g) (teamNo g) m ≤ (s.freeRoom (s.crew (crewNo g)).eid).length := by
  simp only [growFits, Bool.and_eq_true, decide_eq_true_eq]

/-- The crew takes free frames, and nothing else of it changes. -/
theorem crew_reserveRoom (s : State) (n k m : Nat) :
    (s.reserveRoom n k m).crew n =
      { s.crew n with frames := (s.crew n).frames ++ (s.freeRoom (s.crew n).eid).take (s.moreRoom n k m) } :=
  crew_setCrew_self ..

/-- A crew that reserves room stays on its core, so every agent keeps its clock. -/
theorem mcyc_reserveRoom (s : State) (n k m a : Nat) : (s.reserveRoom n k m).mcyc a = s.mcyc a := by
  have hcore : ∀ j, ((s.reserveRoom n k m).crew j).core = (s.crew j).core := fun j => by
    by_cases hj : j = n
    · rw [hj, crew_reserveRoom]
    · exact congrArg Crew.core (crew_setCrew_ne _ _ hj)
  show mcycOf s (clusterOfCore (if isThread a then _ else ((s.reserveRoom n k m).crew (crewNo a)).core.getD 0)) = _
  rw [hcore]
  rfl

end State

/-! ## The waiting teams (05 R133) -/

theorem sortBy_eq_insertionSort (le : Nat → Nat → Bool) (l : List Nat) :
    sortBy le l = l.insertionSort (fun a b => le a b = true) := by
  induction l with
  | nil => rfl
  | cons x l ih =>
    rw [List.insertionSort_cons_eq_take_drop, ← ih]
    simp [sortBy]

/-- What is put in order by a number stands in its order. -/
theorem sortBy_key_sorted (key : Nat → Nat) (l : List Nat) :
    (sortBy (fun a b => decide (key a ≤ key b)) l).Pairwise (fun a b => key a ≤ key b) := by
  rw [sortBy_eq_insertionSort]
  simp only [decide_eq_true_eq]
  have : Std.Total (fun a b => key a ≤ key b) := ⟨fun a b => Nat.le_total _ _⟩
  have : IsTrans Nat (fun a b => key a ≤ key b) := ⟨fun a b c => Nat.le_trans⟩
  exact List.pairwise_insertionSort _ l

/-! ## GROW and SHRINK (05 R133) -/

/-- The rows of a team of `m` registers exceed what a register may number or the partition has on the core (05 R133). -/
def State.overQuota (s : State) (g m : Nat) : Prop :=
  255 < m ∨ (s.cap (s.crew (crewNo g)).part ((s.crew (crewNo g)).core.getD 0)).regs < s.rowsWith (crewNo g) (teamNo g) m

/-- The teams that wait on the core of an agent's crew, oldest first. -/
abbrev State.growQueue (s : State) (g : Nat) : List Nat :=
  s.growers (s.crew (crewNo g)).part ((s.crew (crewNo g)).core.getD 0)

/-- Nobody waits before the team: it has not begun to wait, or it is the oldest that waits (05 R133). -/
def State.growTurn (s : State) (g : Nat) : Prop :=
  (s.team g).waiting = none ∨ (s.growQueue g).head? = some g

section
variable {s : State} {a : SArgs} (h : Issues (.grow a) (ruleS a) s)
include h

theorem exec_grow_idle (hn : s.mask a.g = 0 ∨ isThread s.cur = true ∨ growArg s.me a ≤ s.me.regs) :
    exec (.grow a) s = .next (s.after s) := by
  refine issues_plain h ?_
  by_cases hT : s.mask a.g = 0
  · exact once_empty hT
  · refine (once_run hT).trans (if_pos ?_)
    simpa only [Bool.or_eq_true, decide_eq_true_eq] using hn.resolve_left hT

variable (hT : s.mask a.g ≠ 0) (hthr : isThread s.cur = false) (hmore : s.me.regs < growArg s.me a)
include hT hthr hmore

/-- A GROW of a SIMT team beyond its registers reaches the quota. -/
theorem exec_grow_quota (hq : s.overQuota s.cur (growArg s.me a)) :
    exec (.grow a) s =
      .next (State.complete s.cur s.me.pc { s := s, k := trapAll s.me.width (s.mask a.g) .regquota }) :=
  issues_trap h ((once_run hT).trans ((if_neg (by simp [hthr, hmore])).trans (if_pos hq)))

variable (hq : ¬ s.overQuota s.cur (growArg s.me a))
include hq

theorem exec_grow_fits (hfits : s.growFits s.cur (growArg s.me a) = true) (hturn : s.growTurn s.cur) :
    exec (.grow a) s = .next (s.after
      ((s.reserveRoom (crewNo s.cur) (teamNo s.cur) (growArg s.me a)).setTeam s.cur (s.me.resize (growArg s.me a)))) := by
  refine issues_plain h ((once_run hT).trans ((if_neg (by simp [hthr, hmore])).trans ((if_neg hq).trans (if_pos ?_))))
  simpa [hfits, State.growTurn] using hturn

theorem exec_grow_waits (hfull : s.growFits s.cur (growArg s.me a) = false) (hw : s.me.waiting = none) :
    exec (.grow a) s = .next (s.waits (.grow a)) := by
  refine issues_wait h hw ((once_run hT).trans ((if_neg (by simp [hthr, hmore])).trans ((if_neg hq).trans (if_neg ?_))))
  simp [hfull]

end

section
variable {s : State} {a : SArgs} (h : Issues (.shrink a) (ruleS a) s)
include h

theorem exec_shrink_idle
    (hn : s.mask a.g = 0 ∨ isThread s.cur = true ∨ (8 ≤ growArg s.me a ∧ s.me.regs ≤ growArg s.me a)) :
    exec (.shrink a) s = .next (s.after s) := by
  refine issues_plain h ?_
  by_cases hT : s.mask a.g = 0
  · exact once_empty hT
  · refine (once_run hT).trans ?_
    by_cases hthr : isThread s.cur = true
    · exact if_pos hthr
    · obtain ⟨hlow, hregs⟩ := (hn.resolve_left hT).resolve_left hthr
      exact (if_neg hthr).trans ((if_neg hlow.not_gt).trans (if_pos hregs))

variable (hT : s.mask a.g ≠ 0) (hthr : isThread s.cur = false)
include hT hthr

theorem exec_shrink_quota (hlow : growArg s.me a < 8) :
    exec (.shrink a) s =
      .next (State.complete s.cur s.me.pc { s := s, k := trapAll s.me.width (s.mask a.g) .regquota }) :=
  issues_trap h ((once_run hT).trans ((if_neg (by simp [hthr])).trans (if_pos hlow)))

theorem exec_shrink_less (hlow : 8 ≤ growArg s.me a) (hless : growArg s.me a < s.me.regs) :
    exec (.shrink a) s = .next (s.after (s.setTeam s.cur (s.me.resize (growArg s.me a)))) :=
  issues_plain h ((once_run hT).trans ((if_neg (by simp [hthr])).trans ((if_neg hlow.not_gt).trans (if_neg hless.not_ge))))

end

/-! ## GROW_GRANT (05 R133, R134) -/

section
variable {s : State} {g : Nat} {w : Waiting} {x : SArgs}

theorem growWant_of_waiting {t : Team} (hw : t.waiting = some w) (hi : w.instr = .grow x) : growWant t = growArg t x := by
  obtain ⟨i, _⟩ := w
  obtain rfl : i = .grow x := hi
  simp only [growWant, hw]

/-- The grant of a wait that no lane dies in. -/
theorem State.growDone_eq (hw : (s.team g).waiting = some w) (hi : w.instr = .grow x) (hue : w.ue = 0) :
    s.growDone g = State.complete g (s.team g).pc
      { s := (s.reserveRoom (crewNo g) (teamNo g) (growArg (s.team g) x)).setTeam g
          ({ s.team g with waiting := none, since := s.mcyc g }.resize (growArg (s.team g) x)) } := by
  simp only [State.growDone, hw, hi, State.lateDeath, hue, if_true, State.mcyc_reserveRoom]

theorem exec_growGrant_turnless
    (h : (s.growQueue g).head? ≠ some g ∨ (s.crew (crewNo g)).core = none) :
    exec (.growGrant g) s = .next s := by
  refine congrArg Host.Outcome.next (if_pos ?_)
  simpa using h

variable (hhead : (s.growQueue g).head? = some g)
  (hcore : (s.crew (crewNo g)).core.isSome = true)
include hhead hcore

/-- The oldest waiter of a core: its growth fits, or some team there may still run, or the youngest waiter gives way. -/
theorem exec_growGrant_turn :
    exec (.growGrant g) s = .next (
      if s.growFits g (growWant (s.team g)) then s.growDone g
      else if s.growStuck (s.crew (crewNo g)).part ((s.crew (crewNo g)).core.getD 0) = false then s
      else
        let young := (s.growQueue g).getLastD g
        if crewNo young = crewNo g then s.growQuota young
        else
          let s1 := (s.evict (crewNo young)).lookPart (s.crew (crewNo g)).part
          if s1.growFits g (growWant (s1.team g)) then s1.growDone g else s1) := by
  refine congrArg Host.Outcome.next ((if_neg (by simp [hhead, Option.isSome_iff_ne_none.mp hcore])).trans ?_)
  simp only [Bool.not_eq_true']

end

/-- Settles O45: each outcome of GROW, SHRINK and GROW_GRANT by the lemma about it. -/
theorem registersGrowAndShrink : Obligations.RegistersGrowAndShrink := by
  unfold Obligations.RegistersGrowAndShrink
  refine ⟨fun t m => ⟨rfl, fun l r hr => t.vreg_resize m l hr, rfl⟩, fun s a => ⟨fun h => ?grow, fun h => ?shrink⟩,
    fun s g m => s.growFits_iff g m, ?room, fun s part core => sortBy_key_sorted _ _, ?grant⟩
  case grow =>
    exact ⟨exec_grow_idle h, exec_grow_quota h, exec_grow_fits h, exec_grow_waits h⟩
  case shrink =>
    exact ⟨exec_shrink_idle h, exec_shrink_quota h, exec_shrink_less h⟩
  case room =>
    refine fun s n k m hroom => ⟨_, s.crew_reserveRoom n k m, ?_, fun f => List.mem_of_mem_take, rfl, rfl⟩
    rw [List.length_take, Nat.min_eq_left hroom]
  case grant =>
    intro s g w x hw hi t c m q
    have hwant : growWant (s.team g) = m := growWant_of_waiting hw hi
    refine ⟨exec_growGrant_turnless, fun hhead hcore hfits hue => ?_,
      fun hhead hcore hfull hstuck => ⟨fun hsame => ?_, fun hother => ?_⟩, fun hhead hcore hfull hstuck => ?_⟩
    all_goals rw [exec_growGrant_turn hhead hcore, hwant]
    · rw [if_pos hfits, State.growDone_eq hw hi hue]
      rfl
    · rw [if_neg (by simp [hfull]), if_neg (by simp [c, hstuck]), if_pos hsame]
    · rw [if_neg (by simp [hfull]), if_neg (by simp [c, hstuck])]
      exact congrArg Host.Outcome.next (if_neg hother)
    · rw [if_neg (by simp [hfull]), if_pos hstuck]

end Sys2Proof.Machine
end

section
/-! PROOFS. Engine leases (05 R122-R124, R131): the dealing of a class's engines, one to each partition in turn, and the period
boundary. -/
namespace Sys2Proof.Machine

/-! ## One round of the dealing (05 R122) -/

/-- The partitions of a list, each with its wanted number of engines. -/
def wanting (ps : List Nat) (w : Nat → Nat) : List (Nat × Nat) := ps.map (fun p => (p, w p))

/-- The partitions that receive an engine in one round, while `n` are left. -/
def dealt (ps : List Nat) (w : Nat → Nat) (n : Nat) : List Nat := (ps.filter (fun p => w p != 0)).take n

/-- What each partition still wants after one round. -/
def less (w : Nat → Nat) (p : Nat) : Nat := w p - 1

section
variable {ps : List Nat} {w : Nat → Nat} {n : Nat}

theorem length_dealt_le : (dealt ps w n).length ≤ n := List.length_take_le ..

theorem mem_dealt {p : Nat} (h : p ∈ dealt ps w n) : p ∈ ps ∧ w p ≠ 0 := by
  simpa using List.mem_of_mem_take h

/-- A partition that wants an engine receives one, or none is left after the round. -/
theorem mem_dealt_or_full {p : Nat} (hp : p ∈ ps) (hw : w p ≠ 0) : p ∈ dealt ps w n ∨ (dealt ps w n).length = n := by
  obtain hle | hlt := le_or_gt (ps.filter (fun p => w p != 0)).length n
  · left
    rw [dealt, List.take_of_length_le hle]
    simpa using ⟨hp, hw⟩
  · right
    rw [dealt, List.length_take, Nat.min_eq_left (Nat.le_of_lt hlt)]

/-- The first elements of a list without repetition: one that stands before one of them is one of them. -/
theorem pairwise_mem_take {l : List Nat} (h : l.Nodup) (n : Nat) : l.Pairwise (fun p q => q ∈ l.take n → p ∈ l.take n) := by
  rw [List.pairwise_iff_getElem]
  intro i j hi hj hij hq
  obtain ⟨k, hk, hkj⟩ := List.mem_iff_getElem.mp hq
  rw [List.getElem_take] at hkj
  rw [List.length_take] at hk
  have : k = j := (h.getElem_inj_iff).mp hkj
  exact List.mem_iff_getElem.mpr ⟨i, by rw [List.length_take]; omega, List.getElem_take⟩

/-- In a round the earlier partition of two receives its engine first. -/
theorem pairwise_mem_dealt (h : ps.Nodup) (w : Nat → Nat) (n : Nat) :
    ps.Pairwise (fun p q => w p ≠ 0 → q ∈ dealt ps w n → p ∈ dealt ps w n) := by
  refine (List.pairwise_filter.mp (pairwise_mem_take (h.filter (fun p => w p != 0)) n)).imp (fun hpq hp hq => ?_)
  exact hpq (by simpa using hp) (by simpa using (mem_dealt hq).2) hq

theorem count_dealt (h : ps.Nodup) (w : Nat → Nat) (n p : Nat) : (dealt ps w n).count p = if p ∈ dealt ps w n then 1 else 0 :=
  (h.filter _ |>.sublist (List.take_sublist ..)).count

/-- A partition that receives no engine when some are left wants none, in this round and in the next. -/
theorem dealt_less_eq_nil (h : dealt ps w n = []) : dealt ps (less w) n = [] := by
  obtain rfl | hn := Nat.eq_zero_or_pos n
  · rfl
  · rw [dealt, List.take_eq_nil_iff, List.filter_eq_nil_iff] at h ⊢
    refine .inr (fun p hp => ?_)
    have := h.resolve_left (by omega) p hp
    simp only [bne_iff_ne, ne_eq, not_not] at this ⊢
    rw [less, this]

/-- A round serves every partition that wants an engine, or it is the last. -/
theorem dealt_all_or_last :
    (∀ p ∈ ps, (if p ∈ dealt ps w n then 1 else 0) = min 1 (w p)) ∨ n - (dealt ps w n).length = 0 := by
  by_cases hfull : (dealt ps w n).length = n
  · exact .inr (by omega)
  · refine .inl (fun p hp => ?_)
    by_cases hw : w p = 0
    · rw [if_neg (fun hmem => (mem_dealt hmem).2 hw), hw]; rfl
    · rw [if_pos ((mem_dealt_or_full hp hw).resolve_right hfull)]; omega

end

/-! ## All rounds -/

theorem dealEngines_succ (f n : Nat) (ps : List Nat) (w : Nat → Nat) :
    dealEngines (f + 1) n (wanting ps w) =
      if dealt ps w n = [] then []
      else dealt ps w n ++ dealEngines f (n - (dealt ps w n).length) (wanting ps (less w)) := by
  have hnow : (((wanting ps w).filter (fun x => x.2 != 0)).map (fun x => x.1)).take n = dealt ps w n := by
    simp [wanting, dealt, List.filter_map, Function.comp_def]
  have hnext : (wanting ps w).map (fun x => (x.1, x.2 - 1)) = wanting ps (less w) := by
    simp [wanting, less]
  simp only [dealEngines, hnow, hnext, List.isEmpty_iff]

theorem dealEngines_nothing {f n : Nat} {ps : List Nat} {w : Nat → Nat} (h : dealt ps w n = []) :
    dealEngines f n (wanting ps w) = [] := by
  cases f with
  | zero => rfl
  | succ f => rw [dealEngines_succ, if_pos h]

/-- The first round and then the others. -/
theorem dealEngines_round (f n : Nat) (ps : List Nat) (w : Nat → Nat) :
    dealEngines (f + 1) n (wanting ps w) =
      dealt ps w n ++ dealEngines f (n - (dealt ps w n).length) (wanting ps (less w)) := by
  rw [dealEngines_succ]
  split
  case isTrue h => simpa [h] using (dealEngines_nothing (dealt_less_eq_nil h)).symm
  case isFalse => rfl

/-- Never more engines are bound than there are. -/
theorem length_dealEngines_le (f n : Nat) (l : List (Nat × Nat)) : (dealEngines f n l).length ≤ n := by
  induction f generalizing n l with
  | zero => exact Nat.zero_le n
  | succ f ih =>
    unfold dealEngines
    dsimp only
    split
    · exact Nat.zero_le n
    · have hnow := List.length_take_le n ((l.filter (fun x => x.2 != 0)).map (fun x => x.1))
      have := ih (n - (((l.filter (fun x => x.2 != 0)).map (fun x => x.1)).take n).length) (l.map (fun x => (x.1, x.2 - 1)))
      rw [List.length_append]
      omega

/-- When no engine is left nothing more is dealt. -/
theorem dealEngines_none_left (f : Nat) (l : List (Nat × Nat)) : dealEngines f 0 l = [] :=
  List.length_eq_zero_iff.mp (Nat.le_zero.mp (length_dealEngines_le f 0 l))

/-- Of two partitions the earlier has at least as many engines as the later, and at most one more, unless it is content
with fewer or the later is. -/
def FairShare (w got : Nat → Nat) (p q : Nat) : Prop :=
  (got q ≤ got p ∨ got p = w p) ∧ (got p ≤ got q + 1 ∨ got q = w q)

section
variable {ps : List Nat} (h : ps.Nodup)
include h

/-- No partition gets more engines than it wants. -/
theorem count_dealEngines_le (f n : Nat) (w : Nat → Nat) (p : Nat) : (dealEngines f n (wanting ps w)).count p ≤ w p := by
  induction f generalizing n w with
  | zero => exact Nat.zero_le _
  | succ f ih =>
    rw [dealEngines_round, List.count_append, count_dealt h]
    have hrest := ih (n - (dealt ps w n).length) (less w)
    unfold less at hrest ⊢
    split
    case isTrue hp => have := (mem_dealt hp).2; omega
    case isFalse => omega

/-- While a partition goes short, every engine is bound: each round binds one at least, so `n` rounds are enough. -/
theorem length_dealEngines_eq {f n : Nat} {w : Nat → Nat} (hf : n ≤ f) {p : Nat} (hp : p ∈ ps)
    (hshort : (dealEngines f n (wanting ps w)).count p < w p) : (dealEngines f n (wanting ps w)).length = n := by
  induction f generalizing n w with
  | zero => rw [Nat.le_zero.mp hf]; rfl
  | succ f ih =>
    rw [dealEngines_round, List.count_append, count_dealt h] at hshort
    rw [dealEngines_round, List.length_append]
    have hle : (dealt ps w n).length ≤ n := length_dealt_le
    obtain hmem | hfull := mem_dealt_or_full (n := n) hp (Nat.ne_of_gt (Nat.zero_lt_of_lt hshort))
    · rw [if_pos hmem] at hshort
      have hpos : 0 < (dealt ps w n).length := List.length_pos_of_mem hmem
      have := ih (n := n - (dealt ps w n).length) (w := less w) (by omega) (by unfold less at hshort ⊢; omega)
      omega
    · rw [hfull, Nat.sub_self, dealEngines_none_left, List.length_nil]
      exact Nat.add_zero n

/-- The number of engines of a partition: one in the first round if it is served there, and those of the later rounds. -/
theorem count_dealEngines_succ (f n : Nat) (w : Nat → Nat) (p : Nat) :
    (dealEngines (f + 1) n (wanting ps w)).count p =
      (if p ∈ dealt ps w n then 1 else 0) + (dealEngines f (n - (dealt ps w n).length) (wanting ps (less w))).count p := by
  rw [dealEngines_round, List.count_append, count_dealt h]

/-- The dealing is fair: by induction on the rounds, each of which is fair and keeps the order. -/
theorem dealEngines_fair (f n : Nat) (w : Nat → Nat) :
    ps.Pairwise (FairShare w (fun p => (dealEngines f n (wanting ps w)).count p)) := by
  induction f generalizing n w with
  | zero => exact List.pairwise_of_forall (fun p q => ⟨.inl (Nat.le_refl 0), .inl (Nat.zero_le 1)⟩)
  | succ f ih =>
    have hmem : ps.Pairwise (fun p q => p ∈ ps ∧ q ∈ ps) := List.pairwise_of_forall_mem_list (fun p hp q hq => ⟨hp, hq⟩)
    refine ((ih (n - (dealt ps w n).length) (less w)).and ((pairwise_mem_dealt h w n).and hmem)).imp ?_
    rintro p q ⟨hrest, hfirst, hp, hq⟩
    simp only [FairShare, count_dealEngines_succ h]
    obtain hall | hlast := dealt_all_or_last (ps := ps) (w := w) (n := n)
    · rw [hall p hp, hall q hq]
      have hlep := count_dealEngines_le h f (n - (dealt ps w n).length) (less w) p
      have hleq := count_dealEngines_le h f (n - (dealt ps w n).length) (less w) q
      simp only [FairShare, less] at hrest hlep hleq ⊢
      omega
    · simp only [hlast, dealEngines_none_left, List.count_nil]
      by_cases hw : w p = 0
      · rw [if_neg (fun hmem => (mem_dealt hmem).2 hw), hw]
        exact ⟨.inr rfl, .inl (Nat.zero_le _)⟩
      · have := hfirst hw
        split <;> split <;> simp_all

end

/-! ## Tables of partitions -/

section
variable {β : Type} [DecidableEq β]

omit [DecidableEq β] in
theorem keys_tdel (t : List (Nat × β)) (k : Nat) : (tdel t k).map Prod.fst = (t.map Prod.fst).filter (fun j => j != k) := by
  induction t with
  | nil => rfl
  | cons x t ih =>
    obtain ⟨j, v⟩ := x
    by_cases hk : k = j
    · subst hk
      simpa [tdel] using ih
    · simp [tdel, hk, ih, Ne.symm hk]

omit [DecidableEq β] in
theorem keys_tins (t : List (Nat × β)) (k : Nat) (v : β) : ((tins t k v).map Prod.fst).Perm (k :: t.map Prod.fst) := by
  induction t with
  | nil => exact List.Perm.refl _
  | cons x t ih =>
    by_cases hk : k < x.1
    · simp [tins, hk]
    · simpa [tins, hk] using (ih.cons x.1).trans (List.Perm.swap k x.1 _)

/-- A write repeats no key. -/
theorem nodup_keys_tset (d : β) {t : List (Nat × β)} (h : (t.map Prod.fst).Nodup) (k : Nat) (v : β) :
    ((tset d t k v).map Prod.fst).Nodup := by
  have hdel : ((tdel t k).map Prod.fst).Nodup := by
    rw [keys_tdel]
    exact h.filter _
  unfold tset
  split
  · exact hdel
  · refine (keys_tins _ k v).nodup_iff.mpr (List.nodup_cons.mpr ⟨?_, hdel⟩)
    simp [keys_tdel]

omit [DecidableEq β] in
/-- Where no key is repeated, each entry is the value of its key. -/
theorem tget_of_mem (d : β) {t : List (Nat × β)} (h : (t.map Prod.fst).Nodup) {x : Nat × β} (hx : x ∈ t) :
    tget d t x.1 = x.2 := by
  induction t with
  | nil => exact absurd hx (List.not_mem_nil)
  | cons y t ih =>
    rw [List.map_cons, List.nodup_cons] at h
    obtain rfl | hx := List.mem_cons.mp hx
    · simp [tget]
    · have : x.1 ≠ y.1 := fun he => h.1 (he ▸ List.mem_map_of_mem hx)
      simpa [tget, this] using ih h.2 hx

end

/-- Without a configuration a partition wants no engine. -/
theorem Part.want_unconfigured {x : Part} (h : x.cfg.isSome = false) (col : Bool) : x.want col = 0 := by
  simp [Part.want, Part.ceil, Option.isNone_iff_eq_none.mp (by simpa using h)]

theorem Part.want_eq (x : Part) (col : Bool) : x.want col =
    min (max (if col then x.reqCol else x.reqCpy) (if (if col then x.impCol else x.impCpy) then 1 else 0))
      (match x.cfg with | some c => if col then c.colMax else c.cpyMax | Option.none => 0) := by
  unfold Part.want Part.ceil bit
  cases col <;> cases x.cfg <;> rfl

theorem rotateLeft_eq_rotate {α : Type} (l : List α) (n : Nat) : l.rotateLeft n = l.rotate n := by
  unfold List.rotateLeft
  dsimp only
  split
  case isTrue h =>
    obtain rfl | ⟨x, rfl⟩ : l = [] ∨ ∃ x, l = [x] := by
      match l, h with
      | [], _ => exact .inl rfl
      | [x], _ => exact .inr ⟨x, rfl⟩
    · simp
    · simp
  case isFalse => rw [List.rotate_eq_drop_append_take_mod]

/-! ## The binding of a class (05 R122) -/

namespace State

/-- The partitions that want a class, in the order in which a period serves them. -/
def turnOrder (s : State) (col : Bool) : List Nat :=
  ((s.parts.map (fun x => x.1)).filter (fun p => (s.part p).want col != 0)).rotateLeft s.eng.rotation

section
variable {s : State} (h : (s.parts.map (fun x => x.1)).Nodup)
include h

theorem nodup_turnOrder (col : Bool) : (s.turnOrder col).Nodup := by
  rw [turnOrder, rotateLeft_eq_rotate, List.nodup_rotate]
  exact h.filter _

theorem wanters_eq (col : Bool) : s.wanters col = wanting (s.turnOrder col) (fun p => (s.part p).want col) := by
  have hpart : ∀ x ∈ s.parts, s.part x.1 = x.2 := fun x hx => tget_of_mem Part.none h hx
  have hlist : (s.parts.filter (fun x => x.2.cfg.isSome && x.2.want col != 0)).map (fun x => (x.1, x.2.want col)) =
      wanting ((s.parts.map (fun x => x.1)).filter (fun p => (s.part p).want col != 0)) (fun p => (s.part p).want col) := by
    rw [wanting, List.filter_map, List.map_map]
    have hfilter : s.parts.filter (fun x => x.2.cfg.isSome && x.2.want col != 0) =
        s.parts.filter ((fun p => (s.part p).want col != 0) ∘ fun x => x.1) := by
      refine List.filter_congr (fun x hx => ?_)
      rw [Function.comp_apply, hpart x hx]
      cases hcfg : x.2.cfg.isSome with
      | true => rfl
      | false => simp [Part.want_unconfigured hcfg]
    rw [hfilter]
    refine List.map_congr_left (fun x hx => ?_)
    rw [Function.comp_apply, hpart x (List.mem_of_mem_filter hx)]
  show List.rotateLeft _ _ = _
  rw [hlist, turnOrder, rotateLeft_eq_rotate, rotateLeft_eq_rotate, wanting, wanting, List.map_rotate]

end

/-- The engines of a binding are numbered in the order in which they were dealt. -/
theorem bindOf_numbers (s : State) (col : Bool) (n : Nat) :
    (s.bindOf col n).map (fun x => x.1) = List.range (s.bindOf col n).length := by
  simp only [bindOf, List.map_map, List.length_map, List.length_zipIdx]
  exact (List.zipIdx_map_snd 0 _).trans List.range_eq_range'.symm

theorem length_bindOf (s : State) (col : Bool) (n : Nat) :
    (s.bindOf col n).length = (dealEngines 16 n (s.wanters col)).length := by
  simp [bindOf]

/-- A partition's engines in a binding are those dealt to it. -/
theorem bindOf_got (s : State) (col : Bool) (n p : Nat) :
    ((s.bindOf col n).filter (fun x => x.2 == p + 1)).length = (dealEngines 16 n (s.wanters col)).count p := by
  rw [bindOf, ← List.countP_eq_length_filter, List.countP_map, List.count]
  conv_rhs => rw [← List.zipIdx_map_fst 0 (dealEngines 16 n (s.wanters col)), List.countP_map]
  refine List.countP_congr (fun x _ => ?_)
  simp

/-! ## The period boundary (05 R122-R124) -/

@[simp] theorem part_lapse_self (s : State) (p : Nat) : (s.lapse p).part p =
    { s.part p with
      impCpy := (s.part p).impCpy && ((s.part p).usedCpy || s.eng.copyOps.any (fun o => o.part == p && o.kind != .wsld))
      usedCpy := s.eng.copyOps.any (fun o => o.part == p && o.kind != .wsld)
      impCol := (s.part p).impCol && ((s.part p).usedCol || s.eng.collOps.any (fun o => o.ring / 4096 == p))
      usedCol := s.eng.collOps.any (fun o => o.ring / 4096 == p) } :=
  part_setPart_self ..

/-- The implicit requests lapse, and nothing changes but the partitions. -/
theorem foldl_lapse_rest (ps : List Nat) (s : State) : ps.foldl lapse s = { s with parts := (ps.foldl lapse s).parts } := by
  induction ps generalizing s with
  | nil => rfl
  | cons p ps ih =>
    rw [List.foldl_cons, ih (s.lapse p)]
    rfl

theorem nodup_parts_foldl_lapse (ps : List Nat) {s : State} (h : (s.parts.map (fun x => x.1)).Nodup) :
    ((ps.foldl lapse s).parts.map (fun x => x.1)).Nodup := by
  induction ps generalizing s with
  | nil => exact h
  | cons p ps ih => exact ih (nodup_keys_tset Part.none h p _)

/-- `s` after the implicit requests without an operation in the period have lapsed. -/
def lapsed (s : State) : State := (s.parts.map (fun x => x.1)).foldl lapse s

/-- `s` after a period boundary. -/
def nextPeriod (s : State) : State :=
  { s.lapsed with eng := { s.eng with
      bindCpy := s.lapsed.bindOf false 16, bindCol := s.lapsed.bindOf true 8, period := s.eng.nextPeriod
      boundary := s.eng.boundary + 1000 * s.eng.nextPeriod, rotation := s.eng.rotation + 1 } }

theorem lapsed_rest (s : State) : s.lapsed = { s with parts := s.lapsed.parts } := foldl_lapse_rest _ s

end State

theorem exec_leasePeriodBoundary_due {s : State} (hpow : s.board.power = .on) (hdue : s.eng.boundary ≤ s.clk.ptp) :
    exec .leasePeriodBoundary s = .next s.nextPeriod := by
  have heng : s.lapsed.eng = s.eng := by rw [s.lapsed_rest]
  refine congrArg Host.Outcome.next ((if_pos (by simp [hpow, hdue])).trans ?_)
  rw [State.nextPeriod, ← heng]
  rfl

theorem exec_leasePeriodBoundary_early {s : State} (h : s.board.power ≠ .on ∨ s.clk.ptp < s.eng.boundary) :
    exec .leasePeriodBoundary s = .next s := by
  refine congrArg Host.Outcome.next (if_neg ?_)
  simpa [imp_iff_not_or] using h

/-- Each class's engines go to the partitions of its turn order, one at a time. -/
theorem bindOf_fair {s : State} (h : (s.parts.map (fun x => x.1)).Nodup) (col : Bool) {n : Nat} (hn : n ≤ 16) :
    let b := s.bindOf col n
    let want := fun p => (s.part p).want col
    let got := fun p => (b.filter (fun x => x.2 == p + 1)).length
    let order := s.turnOrder col
    b.map (fun x => x.1) = List.range b.length ∧ (∀ p, got p ≤ want p) ∧ ((∃ p, got p < want p) → b.length = n) ∧
      ∀ (i j p q : Nat), i < j → order[i]? = some p → order[j]? = some q → FairShare want got p q := by
  intro b want got order
  have hnodup := State.nodup_turnOrder h col
  have hgot : got = fun p => (dealEngines 16 n (wanting (s.turnOrder col) want)).count p := by
    funext p
    rw [← State.wanters_eq h]
    exact s.bindOf_got col n p
  rw [hgot]
  refine ⟨s.bindOf_numbers col n, count_dealEngines_le hnodup 16 n want, fun ⟨p, hp⟩ => ?_, fun i j p q hij hi hj => ?_⟩
  · have hmem : p ∈ s.turnOrder col := by
      have hwant : want p ≠ 0 := Nat.ne_of_gt (Nat.zero_lt_of_lt hp)
      rw [State.turnOrder, rotateLeft_eq_rotate, List.mem_rotate, List.mem_filter]
      refine ⟨mem_keys_of_tget_ne (d := Part.none) (fun hnone => hwant ?_), by simpa using hwant⟩
      show Part.want (tget Part.none s.parts p) col = 0
      rw [hnone]
      exact Part.want_unconfigured rfl col
    rw [s.length_bindOf col n, State.wanters_eq h]
    exact length_dealEngines_eq hnodup hn hmem hp
  · obtain ⟨hilen, rfl⟩ := List.getElem?_eq_some_iff.mp hi
    obtain ⟨hjlen, rfl⟩ := List.getElem?_eq_some_iff.mp hj
    exact List.pairwise_iff_getElem.mp (dealEngines_fair hnodup 16 n want) i j hilen hjlen hij

end Sys2Proof.Machine
end

section
/-! PROOFS. LAUNCH (05 R110, R128), the event counters (05 R112, R129, R130; 15 R397), LEASE and UNLEASE (05 R131), and from
these and the period boundary the statement LaunchAndEvents. -/
namespace Sys2Proof.Machine

/-! ## Looking at fixtures (05 R111) -/

namespace State

/-- The look at a fixture writes that fixture alone, and there only its eligibility. -/
theorem lookFixture_eq (s : State) (n : Nat) :
    s.lookFixture n = s ∨ ∃ met elig, s.lookFixture n = s.setFixture n { s.fixture n with met := met, elig := elig } := by
  unfold lookFixture
  dsimp only
  split
  case isTrue => exact .inl rfl
  case isFalse =>
    right
    split
    · exact ⟨_, _, rfl⟩
    · exact ⟨_, _, rfl⟩

theorem lookFixture_rest (s : State) (n : Nat) : s.lookFixture n = { s with fixtures := (s.lookFixture n).fixtures } := by
  obtain h | ⟨met, elig, h⟩ := s.lookFixture_eq n
  · rw [h]
  · rw [h]; rfl

theorem foldl_lookFixture_rest (ns : List Nat) (s : State) :
    ns.foldl lookFixture s = { s with fixtures := (ns.foldl lookFixture s).fixtures } := by
  induction ns generalizing s with
  | nil => rfl
  | cons n ns ih =>
    rw [List.foldl_cons, ih (s.lookFixture n), s.lookFixture_rest n]

theorem lookPart_rest (s : State) (p : Nat) : s.lookPart p = { s with fixtures := (s.lookPart p).fixtures } :=
  foldl_lookFixture_rest _ s

@[simp] theorem lookPart_mem (s : State) (p : Nat) : (s.lookPart p).mem = s.mem := by rw [lookPart_rest]
@[simp] theorem lookPart_teams (s : State) (p : Nat) : (s.lookPart p).teams = s.teams := by rw [lookPart_rest]
@[simp] theorem lookPart_event (s : State) (p q i : Nat) : (s.lookPart p).event q i = s.event q i := by rw [lookPart_rest]; rfl

/-! ## Counters (05 R112) -/

theorem event_putEvent (s : State) (p i : Nat) (v : W32) (j : Nat) :
    (s.putEvent p i v).event p j = if j = i then v else s.event p j := by
  rw [putEvent, lookPart_event, event, modPart, part_setPart_self, tget_tset]
  rfl

@[simp] theorem putEvent_mem (s : State) (p i : Nat) (v : W32) : (s.putEvent p i v).mem = s.mem := by
  rw [putEvent, lookPart_mem]; rfl
@[simp] theorem putEvent_teams (s : State) (p i : Nat) (v : W32) : (s.putEvent p i v).teams = s.teams := by
  rw [putEvent, lookPart_teams]; rfl

theorem addEvent_eq (s : State) (p i v : Nat) :
    s.addEvent p i v = s.putEvent p i (BitVec.ofNat 32 (min ((s.event p i).toNat + v) (2 ^ 32 - 1))) := by
  unfold addEvent evSat
  simp only [decide_eq_true_eq]
  split
  case isTrue h => rw [Nat.min_eq_right (by omega)]; rfl
  case isFalse h => rw [Nat.min_eq_left (by omega)]

end State

/-! ## Instructions on a counter: EVSIG (05 R129, 15 R397) -/

section
variable {s : State} {a : SArgs}

/-- A counter number above 4,095 traps PERM. -/
theorem eventId_above {c : Ctx} {f : Nat → Res} (h : 4095 < (c.t.opndU a.a).toNat) : eventId c s a f = c.trap s .perm :=
  if_pos h

theorem eventId_at {c : Ctx} {f : Nat → Res} (h : (c.t.opndU a.a).toNat ≤ 4095) : eventId c s a f = f (c.t.opndU a.a).toNat :=
  if_neg h.not_gt

/-- An instruction on a counter with T empty, outside every enclave, or with a number above 4,095. -/
theorem issues_eventId_none {i : Instr} {r : Rule} {f : Ctx → Nat → Res} (h : Issues i r s) :
    let x := issues i r s (fun c => inEnclave s c (fun _ => eventId c s a (f c)))
    let T := s.mask r.guard
    (T = 0 → x = .next (s.after s)) ∧
    (T ≠ 0 → s.eidOf s.cur = 0 ∨ 4095 < (s.me.opndU a.a).toNat →
      x = .next (State.complete s.cur s.me.pc { s := s, k := trapAll s.me.width T .perm })) := by
  refine ⟨fun hT => issues_plain h (inEnclave_empty hT), fun hT hbad => issues_trap h ?_⟩
  by_cases he : s.eidOf s.cur = 0
  · exact inEnclave_outside hT he
  · exact (inEnclave_inside hT he).trans (eventId_above (hbad.resolve_left he))

variable (hT : s.mask a.g ≠ 0) (he : s.eidOf s.cur ≠ 0) (hid : (s.me.opndU a.a).toNat ≤ 4095)
include hT he hid

/-- What an instruction on a counter runs. -/
theorem inEnclave_eventId {r : Rule} (hg : r.guard = a.g) (f : Nat → Res) :
    inEnclave s (s.ctx r) (fun _ => eventId (s.ctx r) s a f) = f (s.me.opndU a.a).toNat :=
  (inEnclave_inside (by rw [← hg] at hT; exact hT) he).trans (eventId_at hid)

end

/-- The addend of EVSIG, and the value that EVWAIT waits for. -/
abbrev State.evArg (s : State) (a : SArgs) : Nat := (s.me.opndU a.b).toNat % 2 ^ 32

/-- The counter that an instruction of the current agent names. -/
abbrev State.evVal (s : State) (a : SArgs) : Nat := (s.event (s.partOf s.cur) (s.me.opndU a.a).toNat).toNat

/-- The key of the ring whose doorbell that counter may be. -/
abbrev State.evKey (s : State) (a : SArgs) : Nat := s.partOf s.cur * 4096 + (s.me.opndU a.a).toNat

/-- `s` after the addition of one EVSIG, which raises EVSAT when the sum exceeds 32 bits. -/
def State.signalled (s : State) (a : SArgs) : State :=
  (s.modTeam s.cur (fun t => t.raise 0 (if 2 ^ 32 ≤ s.evVal a + s.evArg a then dEVSAT else 0))).addEvent
    (s.partOf s.cur) (s.me.opndU a.a).toNat (s.evArg a)

/-- `s` after the collectives of one EVSIG on a doorbell have been posted. -/
def State.posted (s : State) (a : SArgs) : State :=
  (postColl (s.signalled a) (s.ownOf s.cur) (s.evKey a) (s.evArg a)).modTeam s.cur (fun t =>
    { t with cnt := { t.cnt with coll := t.cnt.coll + s.evArg a } })

/-- The addition as EVSIG performs it. -/
theorem State.signalled_eq (s : State) (a : SArgs) :
    s.signalled a = (s.modTeam s.cur (fun t => t.raise 0
      (flagIf (evSat (s.event (s.partOf s.cur) (s.me.opndU a.a).toNat) (s.evArg a)) dEVSAT))).addEvent
        (s.partOf s.cur) (s.me.opndU a.a).toNat (s.evArg a) := by
  simp only [signalled, evSat, flagIf, decide_eq_true_eq]

section
variable {s : State} {a : SArgs} (hT : s.mask a.g ≠ 0) (he : s.eidOf s.cur ≠ 0) (hid : (s.me.opndU a.a).toNat ≤ 4095)
include hT he hid

section
variable (h : Issues (.evsig a) (ruleS a) s)
include h

theorem exec_evsig_plain (hr : (s.ringAt (s.evKey a)).eid = 0) : exec (.evsig a) s = .next (s.after (s.signalled a)) := by
  rw [s.signalled_eq]
  exact issues_plain h ((inEnclave_eventId hT he hid rfl _).trans (if_pos hr))

variable (hr : (s.ringAt (s.evKey a)).eid ≠ 0)
include hr

/-- A ring that would hold more than 64 collectives that are not consumed. -/
theorem exec_evsig_ring_full (hfull : 64 < s.evVal a + s.evArg a - (s.ringAt (s.evKey a)).consumed) :
    exec (.evsig a) s = .next (State.complete s.cur s.me.pc { s := s, k := trapAll s.me.width (s.mask a.g) .perm }) :=
  issues_trap h ((inEnclave_eventId hT he hid rfl _).trans ((if_neg hr).trans (if_pos hfull)))

theorem exec_evsig_posts (hroom : s.evVal a + s.evArg a - (s.ringAt (s.evKey a)).consumed ≤ 64)
    (hcnt : s.me.cnt.coll + s.evArg a ≤ 255) :
    exec (.evsig a) s =
      .next (s.after (if s.evArg a = 0 then s.posted a else implicitCol (s.posted a) (s.partOf s.cur))) := by
  rw [State.posted, s.signalled_eq]
  exact issues_plain h
    ((inEnclave_eventId hT he hid rfl _).trans ((if_neg hr).trans ((if_neg hroom.not_gt).trans (if_neg hcnt.not_gt))))

end

section
variable (h : Issues (.evsigClr a) (ruleS a) s)
include h

theorem exec_evsigClr_plain (hr : (s.ringAt (s.evKey a)).eid = 0) :
    exec (.evsigClr a) s = .next (s.after (s.putEvent (s.partOf s.cur) (s.me.opndU a.a).toNat 0)) :=
  issues_plain h ((inEnclave_eventId hT he hid rfl _).trans (if_neg (not_not.mpr hr)))

theorem exec_evsigClr_doorbell (hr : (s.ringAt (s.evKey a)).eid ≠ 0) :
    exec (.evsigClr a) s = .next (State.complete s.cur s.me.pc { s := s, k := trapAll s.me.width (s.mask a.g) .perm }) :=
  issues_trap h ((inEnclave_eventId hT he hid rfl _).trans (if_pos hr))

end

/-! ## EVWAIT (05 R130) -/

/-- `s` after the counter and the comparison have been written to D and PD. -/
def State.evRead (s : State) (a : SArgs) : State :=
  s.setTeam s.cur ((s.me.putUni true a.d ((s.event (s.partOf s.cur) (s.me.opndU a.a).toNat).setWidth 64)).setPredMask
    a.pd.toNat (s.mask a.g) (decide (s.evArg a ≤ s.evVal a)))

omit hT he hid in
theorem evMet_me (s : State) (a : SArgs) : evMet s s.cur s.me a = decide (s.evArg a ≤ s.evVal a) := rfl

section
variable (h : Issues (.evwait a) { ruleS a with banned := true } s)
include h

theorem exec_evwait_met (hmet : s.evArg a ≤ s.evVal a) : exec (.evwait a) s = .next (s.after (s.evRead a)) :=
  issues_plain h ((inEnclave_eventId hT he hid rfl _).trans (if_pos (by rw [evMet_me]; simpa using hmet)))

theorem exec_evwait_waits (hlow : s.evVal a < s.evArg a) (hw : s.me.waiting = none) :
    exec (.evwait a) s = .next (s.waits (.evwait a)) :=
  issues_wait h hw ((inEnclave_eventId hT he hid rfl _).trans (if_neg (by rw [evMet_me]; simpa using hlow)))

end

theorem exec_evwaitTry_reads (h : Issues (.evwaitTry a) (ruleS a) s) : exec (.evwaitTry a) s = .next (s.after (s.evRead a)) :=
  issues_plain h (inEnclave_eventId hT he hid rfl _)

end

/-- EVWAIT_WAKE ends a wait whose comparison holds, and no other. -/
theorem exec_evwaitWake_eq {s : State} {g : Nat} {w : Waiting} {x : SArgs} (hw : (s.team g).waiting = some w)
    (hi : w.instr = .evwait x) :
    exec (.evwaitWake g) s = .next (if evMet s g (s.team g) x then s.awake g w else s) := by
  rw [← State.wake_waiting hw]
  obtain ⟨i, _⟩ := w
  obtain rfl : i = .evwait x := hi
  show execEvwaitWake g s = _
  simp only [execEvwaitWake, hw]

/-! ## LAUNCH (05 R110, R128) -/

/-- D and PD of LAUNCH: the word, and whether its status is OK. -/
def State.launched (s : State) (g : Nat) (a : SArgs) (m : Mask) (w : W64) : State :=
  s.modTeam g (fun t => (t.setdU a.d w).setPredMask a.pd.toNat m (w.toNat / 2 ^ 16 % 256 = 0))

theorem exec_launch_inside {s : State} {a : SArgs} (h : Issues (.launch a) { ruleS a with banned := true } s)
    (hT : s.mask a.g ≠ 0) (he : s.eidOf s.cur ≠ 0) {u : State} {w : W64}
    (hl : launch s s.cur (s.me.opndU a.a).toNat (s.me.opndU a.b).toNat = (u, w)) :
    exec (.launch a) s = .next (s.after (u.launched s.cur a (s.mask a.g) w)) := by
  refine issues_plain h ((inEnclave_inside hT he).trans ?_)
  dsimp only
  rw [hl]
  rfl

/-- In a word for D the status is read back, whatever reason stands above it. -/
theorem status_of_word {st : Nat} (hst : st < 256) (k : Nat) :
    (BitVec.ofNat 64 (st * 2 ^ 16 + k * 2 ^ 24)).toNat / 2 ^ 16 % 256 = st := by
  rw [BitVec.toNat_ofNat]; omega

/-- A fixture ID leaves status OK. -/
theorem status_of_fid (fid : W32) : (BitVec.ofNat 64 (fid.toNat * 2 ^ 32)).toNat / 2 ^ 16 % 256 = 0 := by
  rw [BitVec.toNat_ofNat]; have := fid.isLt; omega

/-- What LAUNCH answers by the outcome of admission: the reason of a refusal, or the ID of the fixture that it appends. -/
def State.admitted (s : State) (part eid q : Nat) (d : Desc) : Admit → State × W64
  | .refused k => (s, BitVec.ofNat 64 (0x11 * 2 ^ 16 + k * 2 ^ 24))
  | m => (s.accept part eid q d m, BitVec.ofNat 64 ((s.part part).nextFid.toNat * 2 ^ 32))

theorem State.admitted_unrefused (s : State) (part eid q : Nat) (d : Desc) {m : Admit} (h : ∀ k, m ≠ .refused k) :
    s.admitted part eid q d m = (s.accept part eid q d m, BitVec.ofNat 64 ((s.part part).nextFid.toNat * 2 ^ 32)) := by
  cases m with
  | refused k => exact absurd rfl (h k)
  | slot k => rfl
  | cores cs => rfl

section
variable {s : State} {a q va : Nat}

theorem launch_not_sealed (hst : (s.enc (s.eidOf a)).st ≠ .sealed) : launch s a q va = (s, BitVec.ofNat 64 (0x08 * 2 ^ 16)) :=
  if_pos hst

variable (hst : (s.enc (s.eidOf a)).st = .sealed)
include hst

theorem launch_badreq (hbad : 15 < q ∨ va % 64 ≠ 0) : launch s a q va = (s, BitVec.ofNat 64 (0x02 * 2 ^ 16)) := by
  refine (if_neg (not_not.mpr hst)).trans ?_
  by_cases hq : 15 < q
  · exact if_pos hq
  · exact (if_neg hq).trans (if_pos (hbad.resolve_left hq))

variable (hq : q ≤ 15) (hva : va % 64 = 0)
include hq hva

theorem launch_fault {u : State} (hr : readBlock s (s.req a) va 256 = (u, none)) :
    launch s a q va = (u, BitVec.ofNat 64 (0x03 * 2 ^ 16)) := by
  refine (if_neg (not_not.mpr hst)).trans ((if_neg hq.not_gt).trans ((if_neg (not_not.mpr hva)).trans ?_))
  rw [hr]

/-- What LAUNCH does with a descriptor that it could read. -/
theorem launch_read {u : State} {b : List Byte} (hr : readBlock s (s.req a) va 256 = (u, some b)) :
    launch s a q va =
      if descOk b = false then (u, BitVec.ofNat 64 (0x10 * 2 ^ 16))
      else if u.noFit (s.partOf a) (descOf b) = true then (u, BitVec.ofNat 64 (0x13 * 2 ^ 16))
      else if u.queueFull (s.partOf a) q = true then (u, BitVec.ofNat 64 (0x12 * 2 ^ 16))
      else u.admitted (s.partOf a) (s.eidOf a) q (descOf b) (u.admission (s.partOf a) (s.eidOf a) (descOf b)) := by
  refine (if_neg (not_not.mpr hst)).trans ((if_neg hq.not_gt).trans ((if_neg (not_not.mpr hva)).trans ?_))
  rw [hr]
  simp only [Bool.not_eq_true']
  rfl

end

/-- Fixture `f` is as LAUNCH appends it: its eligibility is not yet looked at. -/
structure Appended (s : State) (p e q : Nat) (d : Desc) (f : Fixture) : Prop where
  part : f.part = p
  eid : f.eid = e
  queue : f.queue = q
  desc : f.desc = d
  fid : f.fid = (s.part p).nextFid
  crews : f.ncrews = d.crews
  open_ : f.retired = false

/-- What LAUNCH leaves beside the fixture: the counts have gone on, memory and teams are as they were. -/
structure Counted (s : State) (p : Nat) (u : State) : Prop where
  nextFx : u.nextFx = s.nextFx + 1
  nextFid : (u.part p).nextFid = nextFixId (s.part p).nextFid
  mem : u.mem = s.mem
  teams : u.teams = s.teams

/-- LAUNCH writes a new fixture and then looks at its eligibility. -/
theorem State.accept_looks (s : State) (part eid q : Nat) (d : Desc) (m : Admit) :
    ∃ (u : State) (f : Fixture), s.accept part eid q d m = (u.setFixture s.nextFx f).lookFixture s.nextFx ∧
      Appended s part eid q d f ∧ Counted s part u :=
  ⟨_, _, rfl, ⟨rfl, rfl, rfl, rfl, rfl, rfl, rfl⟩, ⟨rfl, congrArg Part.nextFid (part_setPart_self ..), rfl, rfl⟩⟩

/-- The look leaves all of the fixture but its eligibility. -/
theorem State.accept_eq (s : State) (part eid q : Nat) (d : Desc) (m : Admit) :
    ∃ (u : State) (f : Fixture), s.accept part eid q d m = u.setFixture s.nextFx f ∧
      Appended s part eid q d f ∧ Counted s part u := by
  obtain ⟨u, f, haccept, hf, hu⟩ := s.accept_looks part eid q d m
  obtain hlook | ⟨met, elig, hlook⟩ := (u.setFixture s.nextFx f).lookFixture_eq s.nextFx
  · exact ⟨u, f, haccept.trans hlook, hf, hu⟩
  · rw [fixture_setFixture_self] at hlook
    exact ⟨_, { f with met := met, elig := elig }, haccept.trans hlook, { hf with }, { hu with }⟩

/-! ## LEASE and UNLEASE (05 R131) -/

/-- The number of engines that LEASE asks for. -/
abbrev State.leaseArg (s : State) (a : SArgs) : Nat := (s.me.opndU a.b).toNat % 32

section
variable {s : State} {a : SArgs} (hT : s.mask a.g ≠ 0)
include hT

theorem exec_lease_above (h : Issues (.lease a) { ruleS a with banned := true } s) (hn : 16 < s.leaseArg a) :
    exec (.lease a) s = .next (State.complete s.cur s.me.pc { s := s, k := trapAll s.me.width (s.mask a.g) .perm }) := by
  refine issues_trap h ?_
  by_cases he : s.eidOf s.cur = 0
  · exact inEnclave_outside hT he
  · exact (inEnclave_inside hT he).trans (if_pos hn)

theorem exec_lease_requests (h : Issues (.lease a) { ruleS a with banned := true } s) (he : s.eidOf s.cur ≠ 0)
    (hn : s.leaseArg a ≤ 16) :
    exec (.lease a) s = .next (s.after
      ((s.modPart (s.partOf s.cur) (fun x => x.setReq (isCol a) (min (s.leaseArg a) (x.ceil (isCol a))))).modTeam s.cur (fun t =>
        t.putUni true a.d (BitVec.ofNat 64 (s.boundTo (isCol a) (s.partOf s.cur)))))) :=
  issues_plain h ((inEnclave_inside hT he).trans (if_neg hn.not_gt))

end

/-- Settles O46: LAUNCH, EVSIG, EVWAIT and LEASE by the lemma for each outcome; a period boundary by the fair dealing of a
class's engines. -/
theorem launchAndEvents : Obligations.LaunchAndEvents := by
  unfold Obligations.LaunchAndEvents
  refine ⟨⟨?refused, ?launch, ?accept, ?counters, ?added, ?woken⟩, ?lease, ?boundary, Part.want_eq,
    fun s p => s.part_lapse_self p⟩
  case refused =>
    intro s a p hp h
    simp only [List.mem_cons, List.not_mem_nil, or_false] at hp
    obtain rfl | rfl | rfl | rfl | rfl := hp
    · refine ⟨fun hT => issues_plain h (inEnclave_empty hT), fun hT hbad => issues_trap h (inEnclave_outside hT ?_)⟩
      exact hbad.resolve_right (fun hbad => hbad.1 rfl)
    all_goals
      obtain ⟨hempty, htrap⟩ := issues_eventId_none (a := a) h
      exact ⟨hempty, fun hT hbad => htrap hT (hbad.imp_right And.right)⟩
  case launch =>
    intro s a h hT he part eid q va gives
    have hgives : ∀ {u : State} {w : Nat} {ok : Bool}, decide ((BitVec.ofNat 64 w).toNat / 2 ^ 16 % 256 = 0) = ok →
        launch s s.cur q va = (u, BitVec.ofNat 64 w) → gives u w ok := fun hok hl => by
      subst hok
      exact exec_launch_inside h hT he hl
    refine ⟨fun hst => hgives (by decide) (launch_not_sealed hst), fun hst hbad => hgives (by decide) (launch_badreq hst hbad),
      fun hst hq hva => ⟨fun u hr => hgives (by decide) (launch_fault hst hq hva hr), fun u b hr => ?_⟩⟩
    have hl := launch_read hst hq hva hr
    refine ⟨fun hbad => hgives (by decide) (hl.trans (if_pos hbad)), fun hok hfit => ?_, fun hok hfit hfull => ?_,
      fun k hk hok hfit hroom hadm => ?_, fun m hok hfit hroom hadm hm => ?_⟩
    all_goals rw [if_neg (by simp [hok])] at hl
    · exact hgives (by decide) (hl.trans (if_pos hfit))
    all_goals rw [if_neg (by simp [part, hfit])] at hl
    · exact hgives (by decide) (hl.trans (if_pos hfull))
    all_goals rw [if_neg (by simp [part, hroom]), hadm] at hl
    · exact hgives (by rw [status_of_word (by decide)]; rfl) hl
    · exact hgives (by rw [status_of_fid]; rfl) (hl.trans (State.admitted_unrefused _ _ _ _ _ hm))
  case accept =>
    intro s part eid q d m t f
    obtain ⟨u, f0, ht, hf0, hu⟩ := s.accept_eq part eid q d m
    have hf : f = f0 := by
      simp only [f, t, ht, State.fixture_setFixture_self]
    rw [hf, show t = _ from ht]
    exact ⟨hf0.part, hf0.eid, hf0.queue, hf0.desc, hf0.fid, hf0.crews, hf0.open_, hu.nextFx, hu.nextFid, hu.mem, hu.teams⟩
  case counters =>
    intro s a hT he hid T p i v c r added done
    exact ⟨fun h => ⟨exec_evsig_plain hT he hid h, exec_evsig_ring_full hT he hid h, exec_evsig_posts hT he hid h⟩,
      fun h => ⟨exec_evsigClr_plain hT he hid h, exec_evsigClr_doorbell hT he hid h⟩,
      fun h => ⟨exec_evwait_met hT he hid h, exec_evwait_waits hT he hid h⟩, exec_evwaitTry_reads hT he hid⟩
  case added =>
    intro s p i v
    rw [s.addEvent_eq]
    refine ⟨?_, fun j hj => ?_, ?_, State.putEvent_mem .., State.putEvent_teams ..⟩
    · rw [State.event_putEvent, if_pos rfl, BitVec.toNat_ofNat]
      omega
    · rw [State.event_putEvent, if_neg hj]
    · rw [State.event_putEvent, if_pos rfl]
  case woken =>
    intro s g w x hw hi
    rw [exec_evwaitWake_eq hw hi]
    exact ⟨fun hmet => by rw [if_pos hmet], fun hmet => by rw [if_neg (by simp [hmet])]⟩
  case lease =>
    intro s a i hi h T p n col perm
    obtain rfl | rfl : i = .lease a ∨ i = .unlease a := by simpa using hi
    · refine ⟨fun hT => issues_plain h (inEnclave_empty hT), fun hT he => issues_trap h (inEnclave_outside hT he),
        fun hT _ hn => exec_lease_above hT h hn, fun hT he _ hn => exec_lease_requests hT h he hn, nofun⟩
    · obtain ⟨hempty, hout, hin⟩ := issues_inEnclave_plain (f := fun c _ =>
        { s := s.modPart (s.partOf c.a) (fun x => x.setReq (isCol a) 0) }) h rfl
      exact ⟨hempty, hout, nofun, nofun, fun hT he _ => hin hT he⟩
  case boundary =>
    refine fun s => ⟨fun hpow hdue => ⟨s.nextPeriod, exec_leasePeriodBoundary_due hpow hdue, ?_⟩, exec_leasePeriodBoundary_early⟩
    refine ⟨rfl, rfl, rfl, ?_, ?_, ?_, ?_, ?_, rfl, ?_⟩
    · exact (s.lapsed.length_bindOf false 16).trans_le (length_dealEngines_le ..)
    · exact (s.lapsed.length_bindOf true 8).trans_le (length_dealEngines_le ..)
    · rw [State.nextPeriod, s.lapsed_rest]
    · rw [State.nextPeriod, s.lapsed_rest]
    · rw [State.nextPeriod, s.lapsed_rest]
    · intro hkeys b col n hb want got order
      have hnodup : (s.lapsed.parts.map (fun x => x.1)).Nodup := State.nodup_parts_foldl_lapse _ hkeys
      have horder : order = s.lapsed.turnOrder col := by rw [State.turnOrder, s.lapsed_rest]; rfl
      obtain ⟨hbind, hn⟩ : b = s.lapsed.bindOf col n ∧ n ≤ 16 := by
        simp only [List.mem_cons, List.not_mem_nil, or_false, Prod.mk.injEq] at hb
        obtain ⟨rfl, rfl, rfl⟩ | ⟨rfl, rfl, rfl⟩ := hb
        · exact ⟨rfl, by decide⟩
        · exact ⟨rfl, by decide⟩
      subst hbind
      rw [horder]
      exact bindOf_fair hnodup col hn

end Sys2Proof.Machine
end

section
/-! PROOFS. Scores and unit tests (18 R458, R459), the time base (05 R113), the power manager and the board's registers (22 R480,
R481, R485), the firewall's registers (02 R37, R38), and from these the statement HealthTimeAndLimits. -/
namespace Sys2Proof.Machine

/-! ## Scores and tests (18 R458, R459) -/

/-- The units of the module have different keys. -/
theorem unitKey_ne {u v : UnitName} (hu : unitExists u = true) (hv : unitExists v = true) (h : v ≠ u) :
    State.unitKey v ≠ State.unitKey u := by
  cases u <;> cases v <;> simp [unitExists, State.unitKey] at * <;> omega

/-- A table whose values a function that keeps the default has changed. -/
theorem tget_tmap {β : Type} [DecidableEq β] (d : β) {f : β → β} (hf : f d = d) {t : List (Nat × β)} (hw : twf d t = true)
    (k : Nat) : tget d (tmap d f t) k = f (tget d t k) := by
  induction t with
  | nil => exact hf.symm
  | cons x t ih =>
    obtain ⟨j, v⟩ := x
    simp only [twf, Bool.and_eq_true] at hw
    obtain ⟨⟨-, habove⟩, hwt⟩ := hw
    have hcons : tmap d f ((j, v) :: t) = if f v = d then tmap d f t else (j, f v) :: tmap d f t := by
      by_cases hv : f v = d <;> simp [tmap, hv]
    rw [hcons]
    by_cases hk : k = j
    · subst hk
      by_cases hv : f v = d
      · simp [hv, tget, ih hwt, tget_above d t habove hwt, hf]
      · simp [hv, tget]
    · by_cases hv : f v = d <;> simp [hv, tget, hk, ih hwt]

namespace State

theorem dropGroup_rest (s : State) (g : Nat) : s.dropGroup g = { s with links := (s.dropGroup g).links } := by
  unfold dropGroup
  by_cases h : tget 0 s.links.group g = 0
  · simp only [if_pos h]
  · simp only [if_neg h]

/-- A unit whose score is `k` starts to drain, and the event is recorded. -/
def drains (s : State) (u : UnitName) (k : Nat) : State :=
  (s.setUnitState u .draining).log 0x0A (unitCode u).1 0 (unitCode u).2 0 (BitVec.ofNat 64 k)

theorem drains_frame (s : State) (u : UnitName) (k : Nat) :
    (s.drains u k).health.score = s.health.score ∧ (s.drains u k).mem = s.mem ∧ (s.drains u k).teams = s.teams :=
  ⟨rfl, rfl, rfl⟩

/-- A charge raises the score; a unit in service that reaches 256 then drains, and a lane group leaves service. -/
theorem charge_cases (s : State) (u : UnitName) (n : Nat) :
    let k := min 65535 (s.score u + n)
    s.charge u n = s.setScore u k ∨ s.charge u n = (s.setScore u k).drains u k ∨
      ∃ g, s.charge u n = ((s.setScore u k).drains u k).dropGroup g := by
  unfold charge
  dsimp only
  split
  case isTrue =>
    right
    cases u with
    | laneGroup g => exact .inr ⟨g, rfl⟩
    | core _ => exact .inl rfl
    | slice _ => exact .inl rfl
    | channel _ => exact .inl rfl
  case isFalse => exact .inl rfl

/-- Of the scores a charge changes that of its unit, and it leaves memory and teams. -/
theorem charge_frame (s : State) (u : UnitName) (n : Nat) :
    (s.charge u n).health.score = tset 0 s.health.score (unitKey u) (min 65535 (s.score u + n)) ∧
      (s.charge u n).mem = s.mem ∧ (s.charge u n).teams = s.teams := by
  obtain h | h | ⟨g, h⟩ := s.charge_cases u n
  · rw [h]; exact ⟨rfl, rfl, rfl⟩
  · rw [h]; exact drains_frame ..
  · rw [h, dropGroup_rest]; exact drains_frame ..

/-- `s` after a corrected error of a unit. -/
def corrected (s : State) (u : UnitName) : State := (s.log 0x08 (unitCode u).1 0xFF (unitCode u).2 0 0).charge u 1

theorem score_corrected (s : State) (u v : UnitName) :
    (s.corrected u).score v = if unitKey v = unitKey u then min 65535 (s.score u + 1) else s.score v := by
  rw [corrected, score, (charge_frame _ u 1).1, tget_tset]
  rfl

theorem unitPass_health (s : State) (u : UnitName) :
    (s.unitPass u).unitState u = .inService ∧ (s.unitPass u).score u = 64 := by
  have hst : (s.unitPass u).health.st = tset .inService s.health.st (unitKey u) .inService := by cases u <;> rfl
  have hscore : (s.unitPass u).health.score = tset 0 s.health.score (unitKey u) 64 := by cases u <;> rfl
  exact ⟨by rw [unitState, hst, tget_tset_self], by rw [score, hscore, tget_tset_self]⟩

theorem unitFail_health (s : State) (u : UnitName) :
    (s.unitFail u).unitState u = .retired ∧ u ∈ (s.unitFail u).hold.retiredUnits := by
  have hst : (s.unitFail u).health.st = tset .inService (s.unitGone u).health.st (unitKey u) .retired := rfl
  exact ⟨by rw [unitState, hst, tget_tset_self], List.mem_append_right _ (List.mem_singleton_self u)⟩

/-- Instructions of a module that has power. -/
theorem powered_on {s : State} (h : s.board.power = .on) : s.powered = true := by simp [powered, h]

end State

section
variable {s : State} {u : UnitName} (hpow : s.board.power = .on) (hu : unitExists u = true)
include hpow hu

theorem exec_correctedError_on : exec (.correctedError u) s = .next (s.corrected u) :=
  congrArg Host.Outcome.next (if_pos (by simp [State.powered_on hpow, hu]))

theorem exec_unitTestComplete_tested (b : Bool) (h : s.unitState u = .draining ∨ s.unitState u = .testing) :
    exec (.unitTestComplete u b) s = .next (if b = true then (s.drain u).unitPass u else (s.drain u).unitFail u) := by
  refine congrArg Host.Outcome.next (if_neg ?_)
  obtain h | h := h <;> simp [State.powered_on hpow, hu, h]

omit hpow hu in
theorem exec_unitTestComplete_untested (b : Bool) (h : s.unitState u = .inService ∨ s.unitState u = .retired) :
    exec (.unitTestComplete u b) s = .next s := by
  refine congrArg Host.Outcome.next (if_pos ?_)
  obtain h | h := h <;> simp [h]

end

/-! ## The time base (05 R113) -/

/-- The rate under discipline lies within 100 ppm either way. -/
theorem State.discipline_rate (s : State) : -100000 ≤ s.discipline.clk.ptpRate ∧ s.discipline.clk.ptpRate ≤ 100000 := by
  have hlt : (Config.freeWord s.free).toNat % 200001 < 200001 := Nat.mod_lt _ (by decide)
  simp only [State.discipline]
  omega

/-- A requested step takes place unless a calendar entry is armed. -/
theorem State.tryStep_eq (s : State) {target : Nat} (h : s.clk.step = some target) :
    s.tryStep = if s.parts.any (fun x => x.2.cal.any (fun y => y.2.armed)) = true then s
      else { s with clk := { s.clk with ptp := target, step := none } } := by
  simp only [State.tryStep, h]

section
variable {s : State} (hpow : s.board.power = .on)
include hpow

theorem exec_scoreHalving_due (h : s.clk.halved + 86400 * 10 ^ 9 ≤ s.clk.ptp) :
    exec .scoreHalving s = .next { s with
      health := { s.health with score := tmap 0 (fun n => n / 2) s.health.score }
      clk := { s.clk with halved := s.clk.halved + 86400 * 10 ^ 9 } } :=
  congrArg Host.Outcome.next (if_pos (by rw [State.powered_on hpow, Bool.true_and]; exact decide_eq_true h))

omit hpow in
theorem exec_scoreHalving_early (h : s.clk.ptp < s.clk.halved + 86400 * 10 ^ 9) : exec .scoreHalving s = .next s :=
  congrArg Host.Outcome.next (if_neg (by rw [decide_eq_false h.not_ge, Bool.and_false]; exact Bool.false_ne_true))

theorem exec_discipline {m : Nat} {i : Instr} (h : i ∈ [Instr.ptpTimestamp m, .ppsPulse]) : exec i s = .next s.discipline := by
  obtain rfl | rfl : i = .ptpTimestamp m ∨ i = .ppsPulse := by simpa using h
  · exact congrArg Host.Outcome.next (if_pos (State.powered_on hpow))
  · exact congrArg Host.Outcome.next (if_pos (State.powered_on hpow))

theorem exec_syncLoss_on : exec .syncLoss s = .next { s with clk := { s.clk with holdover := true, ptpRate := 0 } } :=
  congrArg Host.Outcome.next (if_pos (State.powered_on hpow))

theorem exec_timeStep_on (target : Nat) : exec (.timeStep target) s = .next (
    if s.parts.any (fun x => x.2.cal.any (fun y => y.2.armed)) = true then { s with clk := { s.clk with step := some target } }
    else { s with clk := { s.clk with ptp := target, step := none } }) := by
  refine congrArg Host.Outcome.next ((if_pos (State.powered_on hpow)).trans ?_)
  exact State.tryStep_eq _ rfl

/-! ## Throttling (22 R481) -/

omit hpow in
theorem State.tooHot_measured_iff (s : State) (p d : Nat) : (s.measured p d).tooHot = true ↔
    (∃ t0, (s.board.measured s.clk.now p d).overAt = some t0 ∧ t0 + 100000 ≤ s.clk.now) ∨ 105 < d := by
  simp only [State.tooHot, Bool.or_eq_true, Option.any_eq_true, decide_eq_true_eq]
  rfl

omit hpow in
theorem State.coolLong_measured_iff (s : State) (p d : Nat) : (s.measured p d).coolLong = true ↔
    ∃ t0, (s.board.measured s.clk.now p d).calmAt = some t0 ∧ t0 + 1000000 ≤ s.clk.now := by
  simp only [State.coolLong, Option.any_eq_true, decide_eq_true_eq]
  rfl

theorem exec_throttleDown_on {c : Nat} (hc : c ≤ 3) (p d : Nat) : exec (.throttleDown c p d) s = .next (
    if (s.measured p d).tooHot = true then (s.measured p d).setMhz c (s.mhzOf c - 100) else s.measured p d) :=
  congrArg Host.Outcome.next (if_neg (by simp [State.powered_on hpow, hc]))

theorem exec_throttleUp_on {c : Nat} (hc : c ≤ 3) (p d : Nat) : exec (.throttleUp c p d) s = .next (
    if (s.measured p d).coolLong = true then (s.measured p d).setMhz c (s.mhzOf c + 100) else s.measured p d) :=
  congrArg Host.Outcome.next (if_neg (by simp [State.powered_on hpow, hc]))

end

/-- A measurement after which the cluster's clock is set to `n` when the condition `P`, which `b` decides, holds. -/
theorem State.throttled_facts (s : State) {b : Bool} {P : Prop} (hb : b = true ↔ P) (c n p d : Nat) :
    let t := if b = true then (s.measured p d).setMhz c n else s.measured p d
    t.board = s.board.measured s.clk.now p d ∧ t.mem = s.mem ∧ t.teams = s.teams ∧
      (P → tget 3300 t.clk.mhz c = max 1650 (min 3300 n)) ∧ (¬ P → t.clk = s.clk) := by
  rw [← hb]
  cases b with
  | true => exact ⟨rfl, rfl, rfl, fun _ => tget_tset_self .., fun h => absurd rfl h⟩
  | false => exact ⟨rfl, rfl, rfl, fun h => absurd h Bool.false_ne_true, fun _ => rfl⟩

/-- What a measurement leaves in the times of 22 R481. -/
theorem Board.measured_facts (b : Board) (now p d : Nat) :
    let m := b.measured now p d
    m = { b with pkgPower := p, dieTemp := d, overAt := m.overAt, calmAt := m.calmAt } ∧
    (p ≤ b.plim → m.overAt = none) ∧ (b.plim < p → m.overAt = some (b.overAt.getD now)) ∧
    (b.plim < p ∨ 105 < d → m.calmAt = none) ∧ (p ≤ b.plim → d ≤ 105 → m.calmAt = some (b.calmAt.getD now)) :=
  ⟨rfl, fun h => if_neg h.not_gt, fun h => if_pos h, fun h => if_pos h, fun hp hd => if_neg (by omega)⟩

/-! ## The board's registers (22 R480, R481, R485) -/

theorem exec_bankLow_up {s : State} (h : s.board.power = .on ∨ s.board.power = .quiesce ∨ s.board.power = .saving) :
    exec .bankLow s = .next { s with board := { s.board with bankReady := false, bankLow := true, bankDown := true } } :=
  congrArg Host.Outcome.next (if_pos (by simpa [or_assoc] using h))

theorem exec_modstatWrite_on {s : State} (h : s.board.power ≠ .off) (v : W32) :
    exec (.modstatWrite v) s = .next { s with board := { s.board with
      thermTrip := s.board.thermTrip && !v.getLsbD 4, bankLow := s.board.bankLow && !v.getLsbD 5 } } :=
  congrArg Host.Outcome.next (if_neg (by simpa using h))

theorem exec_plimWrite_set {s : State} (h : s.board.power ≠ .off) {w : Nat} (hlow : 1500 ≤ w) (hhigh : w ≤ 4000) :
    exec (.plimWrite w) s = .next { s with
      board := ({ s.board with plim := w } : Board).measured s.clk.now s.board.pkgPower s.board.dieTemp } :=
  congrArg Host.Outcome.next (if_neg (by simp [h, hlow, hhigh]))

theorem exec_plimWrite_ignored {s : State} {w : Nat} (h : w < 1500 ∨ 4000 < w) : exec (.plimWrite w) s = .next s :=
  congrArg Host.Outcome.next (if_pos (by obtain h | h := h <;> simp [h]))

theorem bit_le_one (b : Bool) : bit b ≤ 1 := by cases b <;> decide

theorem bit_eq_one_iff (b : Bool) : bit b = 1 ↔ b = true := by cases b <;> decide

/-- The word of MODSTAT from its six flags and the byte of the reserve. -/
def modstatWord (b0 b1 b2 b3 b4 b5 : Bool) (r : BitVec 8) : W32 :=
  BitVec.ofNat 32 (bit b0 + 2 * bit b1 + 4 * bit b2 + 8 * bit b3 + 16 * bit b4 + 32 * bit b5 + 256 * r.toNat)

/-- Each field of the word is read back. -/
theorem modstatWord_fields (b0 b1 b2 b3 b4 b5 : Bool) (r : BitVec 8) :
    let v := modstatWord b0 b1 b2 b3 b4 b5 r
    v.getLsbD 0 = b0 ∧ v.getLsbD 1 = b1 ∧ v.getLsbD 2 = b2 ∧ v.getLsbD 3 = b3 ∧ v.getLsbD 4 = b4 ∧ v.getLsbD 5 = b5 ∧
      v.extractLsb' 6 2 = 0 ∧ v.extractLsb' 8 8 = r ∧ v.extractLsb' 16 16 = 0 := by
  intro v
  have hr := r.isLt
  have h0 := bit_le_one b0
  have h1 := bit_le_one b1
  have h2 := bit_le_one b2
  have h3 := bit_le_one b3
  have h4 := bit_le_one b4
  have h5 := bit_le_one b5
  have hv : v.toNat = bit b0 + 2 * bit b1 + 4 * bit b2 + 8 * bit b3 + 16 * bit b4 + 32 * bit b5 + 256 * r.toNat :=
    Nat.mod_eq_of_lt (by omega)
  refine ⟨?_, ?_, ?_, ?_, ?_, ?_, ?_, ?_, ?_⟩
  iterate 6
    rw [BitVec.getLsbD, Nat.testBit_eq_decide_div_mod_eq, Bool.eq_iff_iff, decide_eq_true_eq, ← bit_eq_one_iff, hv]
    omega
  all_goals
    refine BitVec.eq_of_toNat_eq ?_
    rw [BitVec.extractLsb'_toNat, Nat.shiftRight_eq_div_pow, hv]
  · rw [show (0 : BitVec 2).toNat = 0 from rfl]; omega
  · omega
  · rw [show (0 : BitVec 16).toNat = 0 from rfl]; omega

theorem State.modstat_on {s : State} (h : s.board.power ≠ .off) :
    s.modstat = some (modstatWord (s.board.power == .on || s.board.power == .quiesce || s.board.power == .saving)
      s.board.bankReady (s.board.power == .quiesce || s.board.power == .saving) ((List.range 4).any (fun k => decide (s.mhzOf k < 3300)))
      s.board.thermTrip s.board.bankLow s.board.reserve) :=
  if_neg (by simpa using h)

/-! ## The firewall (02 R37, R38) -/

section
variable {s : State} (hpow : s.board.power = .on) (hlock : s.fw.lock = false)
include hpow hlock

theorem exec_fwmWrite_open {i : Nat} (hi : i ≤ 15) (v : W32) :
    exec (.fwmWrite 1 i v) s = .next { s with fw := { s.fw with fwm := tset 0 s.fw.fwm i v } } :=
  congrArg Host.Outcome.next ((if_neg (by simp [State.powered_on hpow, hi])).trans (if_neg (by simp [hlock, State.mayWriteFw])))

theorem exec_fwlockWrite_open (v : W32) :
    exec (.fwlockWrite 1 v) s = .next { s with fw := { s.fw with lock := v.getLsbD 0 } } :=
  congrArg Host.Outcome.next ((if_neg (by simp [State.powered_on hpow])).trans (if_neg (by simp [hlock, State.mayWriteFw])))

omit hpow hlock in
theorem exec_fwmWrite_above (world : Nat) {i : Nat} (hi : 15 < i) (v : W32) : exec (.fwmWrite world i v) s = .next s :=
  congrArg Host.Outcome.next (if_pos (by simp [hi]))

end

/-- A locked firewall stays as it is: a write is recorded at most. -/
theorem exec_fwWrite_locked {s : State} (h : s.fw.lock = true) (w i : Nat) (v : W32) :
    (∃ t, exec (.fwmWrite w i v) s = .next t ∧ t.fw = s.fw ∧ t.mem = s.mem) ∧
      ∃ t, exec (.fwlockWrite w v) s = .next t ∧ t.fw = s.fw ∧ t.mem = s.mem := by
  have hrefused : (s.fw.lock || !s.mayWriteFw w) = true := by simp [h]
  constructor
  · by_cases hoff : (!s.powered || decide (15 < i)) = true
    · exact ⟨_, congrArg Host.Outcome.next (if_pos hoff), rfl, rfl⟩
    · exact ⟨_, congrArg Host.Outcome.next ((if_neg hoff).trans (if_pos hrefused)), rfl, rfl⟩
  · by_cases hoff : (!s.powered) = true
    · exact ⟨_, congrArg Host.Outcome.next (if_pos hoff), rfl, rfl⟩
    · exact ⟨_, congrArg Host.Outcome.next ((if_neg hoff).trans (if_pos hrefused)), rfl, rfl⟩

/-- The targets of world `t` that the policy admits world `i` to (02 R38). -/
abbrev PolicyAdmits (i t : Nat) : Prop := i ≤ 1 ∨ (i = 2 ∧ 2 ≤ t) ∨ (i = 3 ∧ (t = 2 ∨ t = 3)) ∨ (4 ≤ i ∧ t = i)

/-- The policy's words hold both bits of a target to which a world is admitted, and neither of another. -/
theorem policy_bits : ∀ i < 16, ∀ t < 16,
    (tget 0 Firewall.policy.fwm i).getLsbD (2 * t) = decide (PolicyAdmits i t) ∧
    (tget 0 Firewall.policy.fwm i).getLsbD (2 * t + 1) = decide (PolicyAdmits i t) := by
  decide

/-- Settles O54: each event of the health, time and power managers by the lemma about it, MODSTAT by its fields, and the firewall
by its lock and its policy. -/
theorem healthTimeAndLimits : Obligations.HealthTimeAndLimits := by
  unfold Obligations.HealthTimeAndLimits
  refine ⟨⟨fun s u hpow hu => ⟨?error, ?tested, fun h b => exec_unitTestComplete_untested b h⟩, ?time,
    Board.measured_facts, fun s => exec_bankLow_up,
    fun s v w h => ⟨exec_modstatWrite_on h v, exec_plimWrite_set h, exec_plimWrite_ignored⟩, ?modstat⟩,
    fun s i t ht => ⟨rfl, rfl, rfl⟩, ?writes, ?locked, fun s => rfl, ?policy⟩
  case error =>
    obtain ⟨-, hmem, hteams⟩ := State.charge_frame (s.log 0x08 (State.unitCode u).1 0xFF (State.unitCode u).2 0 0) u 1
    refine ⟨s.corrected u, exec_correctedError_on hpow hu, ?_, hmem, hteams, fun v hv hne => ?_⟩
    · rw [State.score_corrected, if_pos rfl]
    · rw [State.score_corrected, if_neg (unitKey_ne hu hv hne)]
  case tested =>
    intro h
    obtain ⟨hservice, hscore⟩ := (s.drain u).unitPass_health u
    obtain ⟨hretired, hlife⟩ := (s.drain u).unitFail_health u
    exact ⟨⟨_, exec_unitTestComplete_tested hpow hu true h, hservice, hscore⟩,
      ⟨_, exec_unitTestComplete_tested hpow hu false h, hretired, hlife⟩⟩
  case time =>
    refine fun s hpow => ⟨fun hdue => ⟨_, exec_scoreHalving_due hpow hdue, fun hw u => ?_, rfl, rfl⟩, exec_scoreHalving_early,
      fun m i hi => ?_, exec_syncLoss_on hpow, fun target => ?_, fun c p d hc => ?_⟩
    · exact tget_tmap 0 (f := fun n => n / 2) rfl hw _
    · obtain ⟨hlow, hhigh⟩ := s.discipline_rate
      exact ⟨s.discipline, exec_discipline hpow hi, rfl, hlow, hhigh, rfl⟩
    · refine ⟨_, exec_timeStep_on hpow target, fun hfree => ?_, fun harmed => ?_⟩
      · rw [hfree]; exact ⟨rfl, rfl⟩
      · rw [harmed]; exact ⟨rfl, rfl⟩
    · intro b hot calm
      exact ⟨⟨_, exec_throttleDown_on hpow hc p d, s.throttled_facts (s.tooHot_measured_iff p d) c _ p d⟩,
        ⟨_, exec_throttleUp_on hpow hc p d, s.throttled_facts (s.coolLong_measured_iff p d) c _ p d⟩⟩
  case modstat =>
    refine fun s => ⟨fun hoff => if_pos (by simp [hoff]), fun hon => ⟨_, State.modstat_on hon, ?_⟩⟩
    obtain ⟨h0, h1, h2, h3, h4, h5, hzero, hreserve, hhigh⟩ := modstatWord_fields
      (s.board.power == .on || s.board.power == .quiesce || s.board.power == .saving) s.board.bankReady
      (s.board.power == .quiesce || s.board.power == .saving) ((List.range 4).any (fun k => decide (s.mhzOf k < 3300)))
      s.board.thermTrip s.board.bankLow s.board.reserve
    refine ⟨?_, h1, ?_, ?_, h4, h5, hzero, hreserve, hhigh⟩
    · rw [h0]; simp [or_assoc]
    · rw [h2]; simp
    · have hslow : (List.range 4).any (fun k => decide (s.mhzOf k < 3300)) = true ↔ ∃ k < 4, s.mhzOf k < 3300 := by
        simp only [List.any_eq_true, List.mem_range, decide_eq_true_eq]
      rw [h3]
      exact hslow
  case writes =>
    refine fun s i v hpow hlock => ⟨fun hi => ⟨_, exec_fwmWrite_open hpow hlock hi v, ?_⟩, fun hi => exec_fwmWrite_above 1 hi v,
      exec_fwlockWrite_open hpow hlock v⟩
    exact ⟨tget_tset_self .., fun j hj => tget_tset_ne _ _ _ hj, rfl⟩
  case locked =>
    intro s w i v h
    obtain ⟨⟨t, ht, htfw, htmem⟩, ⟨u, hu, hufw, humem⟩⟩ := exec_fwWrite_locked h w i v
    exact ⟨t, u, ht, hu, htfw, hufw, htmem, humem⟩
  case policy =>
    intro s h
    refine ⟨by rw [h]; rfl, fun i t hi ht => ?_⟩
    obtain ⟨hread, hwrite⟩ := policy_bits i hi t ht
    simp only [State.fwAdmits, h]
    exact ⟨hread, hwrite⟩

end Sys2Proof.Machine
end

section
/-! PROOFS. Decoding and encoding (06 R146-R156, R169): each format's fields read back in both directions, the instruction that the
mode bits of a shared opcode name, and from these the statements DecodeAndEncodeAgree and WordsDecodeToTheirInstructions. -/
namespace Sys2Proof

/-! ## A word is the sum of its fields -/

/-- The fields of the given widths of a word, from bit `lo` up. -/
def fieldsFrom (w : Word96) : Nat → List Nat → List Nat
  | _, [] => []
  | lo, n :: ws => fld w lo n :: fieldsFrom w (lo + n) ws

theorem packF_fieldsFrom (w : Word96) (lo : Nat) (ws : List Nat) :
    packF ws (fieldsFrom w lo ws) = w.toNat / 2 ^ lo % 2 ^ ws.sum := by
  induction ws generalizing lo with
  | nil => simp [packF, Nat.mod_one]
  | cons n ws ih =>
    rw [fieldsFrom, packF, ih, List.sum_cons, Nat.pow_add 2 n, Nat.mod_mul, Nat.div_div_eq_div_mul, ← Nat.pow_add]
    rfl

/-- A word whose fields are `vs` is the word packed from `vs`. -/
theorem packF_of_fields {w : Word96} {ws vs : List Nat} (hs : ws.sum = 96) (h : fieldsFrom w 0 ws = vs) :
    BitVec.ofNat 96 (packF ws vs) = w := by
  rw [← h, packF_fieldsFrom, hs, pow_zero, Nat.div_one, Nat.mod_eq_of_lt w.isLt]
  rw [BitVec.ofNat_toNat, BitVec.setWidth_eq]

/-! ## Codes read back -/

theorem Operand.code_of_ofCode {c : Nat} {o : Operand} (h : Operand.ofCode c = some o) : o.code = c := by
  unfold Operand.ofCode at h
  split_ifs at h <;> cases h <;> simp only [Operand.code, BitVec.toNat_ofNat] <;> omega

theorem Rnd.code_of_ofCode {c : Nat} {r : Rnd} (h : Rnd.ofCode c = some r) : r.code = c := by
  unfold Rnd.ofCode at h
  split at h <;> cases h <;> rfl

theorem Ord4.code_of_ofCode {c : Nat} {o : Ord4} (h : Ord4.ofCode c = some o) : o.code = c := by
  unfold Ord4.ofCode at h
  split at h <;> cases h <;> rfl

theorem Scope.code_of_ofCode {c : Nat} {s : Scope} (h : Scope.ofCode c = some s) : s.code = c := by
  unfold Scope.ofCode at h
  split at h <;> cases h <;> rfl

theorem Vec.code_of_ofCode {c : Nat} {v : Vec} (h : Vec.ofCode c = some v) : v.code = c := by
  unfold Vec.ofCode at h
  split at h <;> cases h <;> rfl

theorem Ty.code_of_ofCode {c : Nat} {t : Ty} (h : Ty.ofCode c = some t) : t.code = c := by
  unfold Ty.ofCode at h
  split at h <;> cases h <;> rfl

theorem Ty.code?_of_ofCode? {c : Nat} {t : Option Ty} (h : Ty.ofCode? c = some t) : Ty.code? t = c := by
  unfold Ty.ofCode? at h
  split_ifs at h with hc
  · cases h; exact hc.symm
  · obtain ⟨t, ht, rfl⟩ := Option.map_eq_some_iff.mp h
    exact Ty.code_of_ofCode ht

theorem fld_lt (w : Word96) (lo n : Nat) : fld w lo n < 2 ^ n := Nat.mod_lt _ (Nat.two_pow_pos n)

theorem toNat_fld (w : Word96) (lo n : Nat) : (BitVec.ofNat n (fld w lo n)).toNat = fld w lo n := by
  rw [BitVec.toNat_ofNat, Nat.mod_eq_of_lt (fld_lt w lo n)]

theorem bit_flag (w : Word96) (lo : Nat) : bit (flag w lo) = fld w lo 1 := by
  have := fld_lt w lo 1
  obtain h | h : fld w lo 1 = 0 ∨ fld w lo 1 = 1 := by omega
  · rw [flag, h]; rfl
  · rw [flag, h]; rfl

/-! ## Words packed from what was parsed -/

theorem packS_of_parseS {w : Word96} {a : SArgs} (h : parseS w = some a) : packS (fld w 86 10) a = w := by
  rw [packS_fields]
  refine packF_of_fields (by decide) ?_
  unfold parseS at h
  split at h
  case h_2 => cases h
  case h_1 d ra rb hd ha hb =>
    split_ifs at h with hz
    cases h
    simp only [widthsS, valuesS, fieldsFrom, Nat.reduceAdd, parseGuard, toNat_fld, bit_flag, hz, Operand.code_of_ofCode hd,
      Operand.code_of_ofCode ha, Operand.code_of_ofCode hb]

theorem packR_of_parseR {w : Word96} {a : RArgs} (h : parseR w = some a) : packR (fld w 86 10) a = w := by
  rw [packR_fields]
  refine packF_of_fields (by decide) ?_
  unfold parseR at h
  split at h
  case h_2 => cases h
  case h_1 d ra rb rc ty rnd hd ha hb hc hty hrnd =>
    split_ifs at h with hz
    cases h
    obtain ⟨hcc, hhz⟩ : fld w 79 2 = 0 ∧ fld w 76 2 = 0 := by simpa using hz
    simp only [widthsR, valuesR, fieldsFrom, Nat.reduceAdd, parseGuard, toNat_fld, bit_flag, hcc, hhz,
      Operand.code_of_ofCode hd, Operand.code_of_ofCode ha, Operand.code_of_ofCode hb, Operand.code_of_ofCode hc,
      Ty.code_of_ofCode hty, Rnd.code_of_ofCode hrnd]

theorem packI_of_parseI {w : Word96} {a : IArgs} (h : parseI w = some a) : packI (fld w 86 10) (fld w 40 3) a = w := by
  rw [packI_fields]
  refine packF_of_fields (by decide) ?_
  unfold parseI at h
  split at h
  case h_2 => cases h
  case h_1 d ty hd hty =>
    split_ifs at h with hz
    cases h
    obtain ⟨⟨⟨⟨hcc, hhz⟩, ha⟩, hb⟩, hfn⟩ :
        (((fld w 79 2 = 0 ∧ fld w 76 2 = 0) ∧ fld w 58 9 = 0xFF) ∧ fld w 49 9 = 0x1FF) ∧ fld w 43 6 = 0 := by simpa using hz
    simp only [widthsI, valuesI, fieldsFrom, Nat.reduceAdd, parseGuard, toNat_fld, bit_flag, hcc, hhz, ha, hb, hfn,
      Operand.code_of_ofCode hd, Ty.code_of_ofCode hty]

theorem packM_of_parseM {w : Word96} {a : MArgs} (h : parseM w = some a) : packM (fld w 86 10) a = w := by
  rw [packM_fields]
  refine packF_of_fields (by decide) ?_
  unfold parseM at h
  split at h
  case h_2 => cases h
  case h_1 d ra rb ord scope vec ty hd ha hb hord hscope hvec hty =>
    split_ifs at h with hz
    cases h
    simp only [widthsM, valuesM, fieldsFrom, Nat.reduceAdd, parseGuard, toNat_fld, bit_flag, hz,
      Operand.code_of_ofCode hd, Operand.code_of_ofCode ha, Operand.code_of_ofCode hb, Ord4.code_of_ofCode hord,
      Scope.code_of_ofCode hscope, Vec.code_of_ofCode hvec, Ty.code_of_ofCode hty]

theorem packB_of_parseB {w : Word96} {a : BArgs} (h : parseB w = some a) : packB (fld w 86 10) a = w := by
  rw [packB_fields]
  refine packF_of_fields (by decide) ?_
  unfold parseB at h
  split at h
  case h_2 => cases h
  case h_1 d ra hd ha =>
    split_ifs at h with hz
    cases h
    obtain ⟨⟨⟨⟨hcc, hhz⟩, hb⟩, hbit⟩, hfn⟩ :
        (((fld w 79 2 = 0 ∧ fld w 76 2 = 0) ∧ fld w 49 9 = 0xFF) ∧ fld w 48 1 = 0) ∧ fld w 0 16 = 0 := by simpa using hz
    simp only [widthsB, valuesB, fieldsFrom, Nat.reduceAdd, parseGuard, toNat_fld, bit_flag, hcc, hhz, hb, hbit, hfn,
      Operand.code_of_ofCode hd, Operand.code_of_ofCode ha]

theorem packT_of_parseT {w : Word96} {a : TArgs} (h : parseT w = some a) : packT (fld w 86 10) a = w := by
  rw [packT_fields]
  refine packF_of_fields (by decide) ?_
  unfold parseT at h
  split at h
  case h_2 => cases h
  case h_1 d ra rb ty rnd hd ha hb hty hrnd =>
    split_ifs at h with hz
    cases h
    simp only [widthsT, valuesT, fieldsFrom, Nat.reduceAdd, parseGuard, toNat_fld, bit_flag, hz,
      Operand.code_of_ofCode hd, Operand.code_of_ofCode ha, Operand.code_of_ofCode hb, Ty.code?_of_ofCode? hty,
      Rnd.code_of_ofCode hrnd]

/-! ## The instruction that the mode bits of a shared opcode name -/

theorem fnBits_of_toNat {n v : Nat} {x : BitVec n} (h : x.toNat = v) (lo k : Nat) : fnBits x lo k = v / 2 ^ lo % 2 ^ k := by
  rw [fnBits, h]

theorem encode_pickPmov {a : RArgs} {i : Instr} (h : pickPmov a = some i) : encode i = some (packR 0x00E a) := by
  unfold pickPmov at h
  split at h <;> cases h <;> rfl

theorem encode_pickVote {a : RArgs} {i : Instr} (h : pickVote a = some i) : encode i = some (packR 0x00F a) := by
  unfold pickVote at h
  split at h <;> cases h <;> rfl

theorem encode_pickMovi {n : Nat} {a : IArgs} {i : Instr} (h : pickMovi n a = some i) : encode i = some (packI 0x041 n a) := by
  unfold pickMovi at h
  split at h <;> cases h <;> rfl

theorem encode_pickLdw {a : TArgs} {i : Instr} (h : pickLdw a = some i) : encode i = some (packT 0x1C0 a) := by
  unfold pickLdw at h
  split at h <;> cases h <;> rfl

theorem encode_pickAmov {a : TArgs} {i : Instr} (h : pickAmov a = some i) : encode i = some (packT 0x1C5 a) := by
  unfold pickAmov at h
  split at h <;> cases h <;> rfl

theorem encode_pickTagqry {a : SArgs} {i : Instr} (h : pickTagqry a = some i) : encode i = some (packS 0x244 a) := by
  unfold pickTagqry at h
  split at h <;> cases h <;> rfl

theorem encode_pickMsdecl {a : SArgs} {i : Instr} (h : pickMsdecl a = some i) : encode i = some (packS 0x245 a) := by
  unfold pickMsdecl at h
  split at h <;> cases h <;> rfl

theorem encode_pickMsqry {a : SArgs} {i : Instr} (h : pickMsqry a = some i) : encode i = some (packS 0x247 a) := by
  unfold pickMsqry at h
  split at h <;> cases h <;> rfl

theorem encode_pickEret {a : SArgs} {i : Instr} (h : pickEret a = some i) : encode i = some (packS 0x282 a) := by
  unfold pickEret at h
  split at h <;> cases h <;> rfl

theorem encode_pickEvsig {a : SArgs} {i : Instr} (h : pickEvsig a = some i) : encode i = some (packS 0x284 a) := by
  unfold pickEvsig at h
  split at h <;> cases h <;> rfl

theorem encode_pickEvwait {a : SArgs} {i : Instr} (h : pickEvwait a = some i) : encode i = some (packS 0x285 a) := by
  unfold pickEvwait at h
  split at h <;> cases h <;> rfl

theorem encode_pickTlbinv {a : SArgs} {i : Instr} (h : pickTlbinv a = some i) : encode i = some (packS 0x286 a) := by
  unfold pickTlbinv at h
  split at h <;> cases h <;> rfl

theorem encode_pickTsave {a : SArgs} {i : Instr} (h : pickTsave a = some i) : encode i = some (packS 0x28F a) := by
  unfold pickTsave at h
  split at h <;> cases h <;> rfl

theorem encode_pickTrest {a : SArgs} {i : Instr} (h : pickTrest a = some i) : encode i = some (packS 0x290 a) := by
  unfold pickTrest at h
  split at h <;> cases h <;> rfl

/-! ## A decoded word encodes again -/

theorem finish_eq_ok {o : Option Instr} {i : Instr} : finish o = .ok i ↔ o = some i ∧ wellFormed i = true := by
  cases o with
  | none => simp [finish]
  | some j =>
    by_cases hj : wellFormed j = true
    · simp only [finish, hj, if_true, Except.ok.injEq, Option.some.injEq]
      exact ⟨fun h => ⟨h, h ▸ hj⟩, fun h => h.1⟩
    · simp only [finish, hj, Option.some.injEq]
      exact ⟨fun h => by simp at h, fun h => absurd (h.1 ▸ h.2) hj⟩

section
variable {α : Type} {w : Word96} {op : Nat} {i : Instr} {p : Option α} {pack : Nat → α → Word96}

/-- A row of the opcode map that reads operands in one format and picks the instruction by its mode bits. -/
theorem encode_of_bind (hpack : ∀ {a}, p = some a → pack (fld w 86 10) a = w) (hop : fld w 86 10 = op)
    {pick : α → Option Instr} (hpick : ∀ {a i}, pick a = some i → encode i = some (pack op a))
    (h : finish (p.bind pick) = .ok i) : encode i = some w ∧ wellFormed i = true := by
  obtain ⟨hbind, hw⟩ := finish_eq_ok.mp h
  obtain ⟨a, ha, hi⟩ := Option.bind_eq_some_iff.mp hbind
  exact ⟨(hpick hi).trans (congrArg some (hop ▸ hpack ha)), hw⟩

/-- A row with one instruction. -/
theorem encode_of_map (hpack : ∀ {a}, p = some a → pack (fld w 86 10) a = w) (hop : fld w 86 10 = op)
    {c : α → Instr} (hc : ∀ a, encode (c a) = some (pack op a))
    (h : finish (p.map c) = .ok i) : encode i = some w ∧ wellFormed i = true := by
  rw [Option.map_eq_bind] at h
  exact encode_of_bind hpack hop (fun hi => Option.some.inj hi ▸ hc _) h

end


/-- Every row of the map reads one of the six formats, and 14 rows then pick the instruction by its mode bits. -/
theorem encode_of_decodeWord {w : Word96} {i : Instr} (h : decodeWord w = .ok i) : encode i = some w ∧ wellFormed i = true := by
  have hS := @packS_of_parseS w
  have hB := @packB_of_parseB w
  have hR := @packR_of_parseR w
  have hM := @packM_of_parseM w
  have hT := @packT_of_parseT w
  unfold decodeWord at h
  generalize hop : fld w 86 10 = op at h
  split at h
  all_goals try exact encode_of_map (by assumption) hop (fun _ => rfl) h
  · exact encode_of_bind hR hop encode_pickPmov h
  · exact encode_of_bind hR hop encode_pickVote h
  · exact encode_of_bind (pack := fun op => packI op (fld w 40 3)) packI_of_parseI hop encode_pickMovi h
  · exact encode_of_bind hT hop encode_pickLdw h
  · exact encode_of_bind hT hop encode_pickAmov h
  · exact encode_of_bind hS hop encode_pickTagqry h
  · exact encode_of_bind hS hop encode_pickMsdecl h
  · exact encode_of_bind hS hop encode_pickMsqry h
  · exact encode_of_bind hS hop encode_pickEret h
  · exact encode_of_bind hS hop encode_pickEvsig h
  · exact encode_of_bind hS hop encode_pickEvwait h
  · exact encode_of_bind hS hop encode_pickTlbinv h
  · exact encode_of_bind hS hop encode_pickTsave h
  · exact encode_of_bind hS hop encode_pickTrest h
  · cases h

/-! ## The mode bits of a well-formed instruction -/

theorem pmovOk_mode {a : RArgs} {m : Nat} (h : pmovOk a m = true) : fnBits a.fn 0 2 = m := by
  simp only [pmovOk, Bool.and_eq_true, beq_iff_eq] at h
  obtain ⟨⟨⟨⟨-, hmode⟩, -⟩, -⟩, -⟩ := h
  exact hmode

theorem pickPmov_of_wellFormed {a : RArgs} {i : Instr} (hi : i ∈ [.pmovPack a, .pmovUnpack a, .pmovSet a])
    (hw : wellFormed i = true) : pickPmov a = some i := by
  obtain rfl | rfl | rfl : i = .pmovPack a ∨ i = .pmovUnpack a ∨ i = .pmovSet a := by simpa using hi
  all_goals rw [pickPmov, pmovOk_mode hw]; rfl

theorem voteOk_mode {a : RArgs} {m : Nat} (h : voteOk a m = true) : fnBits a.fn 0 3 = m := by
  simp only [voteOk, Bool.and_eq_true, beq_iff_eq] at h
  obtain ⟨⟨⟨⟨-, hmode⟩, -⟩, -⟩, -⟩ := h
  exact hmode

theorem pickVote_of_wellFormed {a : RArgs} {i : Instr}
    (hi : i ∈ [.voteAll a, .voteAny a, .voteUni a, .voteBallot a, .voteCount a]) (hw : wellFormed i = true) :
    pickVote a = some i := by
  obtain rfl | rfl | rfl | rfl | rfl :
      i = .voteAll a ∨ i = .voteAny a ∨ i = .voteUni a ∨ i = .voteBallot a ∨ i = .voteCount a := by simpa using hi
  all_goals rw [pickVote, voteOk_mode hw]; rfl

theorem pickLdw_of_wellFormed {a : TArgs} {i : Instr} (hi : i ∈ [.ldw a, .ldwWs a]) (hw : wellFormed i = true) :
    pickLdw a = some i := by
  obtain rfl | rfl : i = .ldw a ∨ i = .ldwWs a := by simpa using hi
  all_goals
    simp only [wellFormed, Bool.and_eq_true, beq_iff_eq] at hw
    obtain ⟨⟨-, hmode⟩, -⟩ := hw
    rw [pickLdw, hmode]
    rfl

theorem pickAmov_of_wellFormed {a : TArgs} {i : Instr} (hi : i ∈ [.amov a, .amovTile a]) (hw : wellFormed i = true) :
    pickAmov a = some i := by
  obtain rfl | rfl : i = .amov a ∨ i = .amovTile a := by simpa using hi
  · simp only [wellFormed, Bool.and_eq_true, beq_iff_eq] at hw
    obtain ⟨⟨-, hmode⟩, -⟩ := hw
    rw [pickAmov, hmode]
    rfl
  · simp only [wellFormed, Bool.and_eq_true, beq_iff_eq] at hw
    obtain ⟨⟨⟨-, hmode⟩, -⟩, -⟩ := hw
    rw [pickAmov, hmode]
    rfl

theorem tagOk_sel {a : SArgs} {k : SAdmit} {sel : Nat} {r : Bool} (h : tagOk a k sel r = true) : fnBits a.sfn 38 2 = sel := by
  simp only [tagOk, Bool.and_eq_true, beq_iff_eq] at h
  obtain ⟨⟨-, hsel⟩, -⟩ := h
  exact hsel

theorem pickTagqry_of_wellFormed {a : SArgs} {i : Instr} (hi : i ∈ [.tagqryFree a, .tagqryTag a, .tagqryPool a])
    (hw : wellFormed i = true) : pickTagqry a = some i := by
  obtain rfl | rfl | rfl : i = .tagqryFree a ∨ i = .tagqryTag a ∨ i = .tagqryPool a := by simpa using hi
  · obtain ⟨htag, -⟩ := Bool.and_eq_true_iff.mp hw
    rw [pickTagqry, tagOk_sel htag]
    rfl
  all_goals
    obtain ⟨⟨htag, -⟩, -⟩ : (tagOk a _ _ false = true ∧ _) ∧ _ := by simpa only [wellFormed, Bool.and_eq_true] using hw
    rw [pickTagqry, tagOk_sel htag]
    rfl

theorem SArgs.ok_sfn {a : SArgs} {k : SAdmit} (h : a.ok k = true) : a.sfn.toNat < 2 ^ k.sfn := by
  simp only [SArgs.ok, Bool.and_eq_true, decide_eq_true_eq] at h
  exact h.2

theorem pickMsdecl_of_wellFormed {a : SArgs} {i : Instr} (hi : i ∈ [.msdecl a, .msdeclRec a]) (hw : wellFormed i = true) :
    pickMsdecl a = some i := by
  obtain rfl | rfl : i = .msdecl a ∨ i = .msdeclRec a := by simpa using hi
  · simp only [wellFormed, Bool.and_eq_true] at hw
    obtain ⟨⟨⟨hok, -⟩, -⟩, -⟩ := hw
    rw [pickMsdecl, fnBits_of_toNat (Nat.lt_one_iff.mp (SArgs.ok_sfn hok))]
    rfl
  · simp only [wellFormed, Bool.and_eq_true, beq_iff_eq] at hw
    rw [pickMsdecl, hw.2]
    rfl

theorem pickMsqry_of_wellFormed {a : SArgs} {i : Instr} (hi : i ∈ [.msqryCap a, .msqryItem a, .msqryRst a, .msqryLost a])
    (hw : wellFormed i = true) : pickMsqry a = some i := by
  obtain rfl | rfl | rfl | rfl : i = .msqryCap a ∨ i = .msqryItem a ∨ i = .msqryRst a ∨ i = .msqryLost a := by
    simpa using hi
  all_goals
    simp only [wellFormed, Bool.and_eq_true, beq_iff_eq] at hw
    rw [pickMsqry, hw.2]
    rfl

theorem eretTok_sfn {a : SArgs} {m : Nat} (h : eretTok a m = true) : a.sfn.toNat = 4 + m := by
  simp only [eretTok, Bool.and_eq_true, beq_iff_eq] at h
  exact h.2

theorem pickEret_of_wellFormed {a : SArgs} {i : Instr}
    (hi : i ∈ [.eretRetry a, .eretSkip a, .eretKill a, .eretResume a, .eretDecline a, .eretAbort a])
    (hw : wellFormed i = true) : pickEret a = some i := by
  have htok0 : ∀ {v : BitVec 45}, (a.ok { sfn := 3 } && a.sfn == v) = true → a.sfn.toNat = v.toNat := fun h => by
    simp only [Bool.and_eq_true, beq_iff_eq] at h
    rw [h.2]
  obtain rfl | rfl | rfl | rfl | rfl | rfl : i = .eretRetry a ∨ i = .eretSkip a ∨ i = .eretKill a ∨ i = .eretResume a ∨
      i = .eretDecline a ∨ i = .eretAbort a := by simpa using hi
  · rw [pickEret, fnBits_of_toNat (htok0 hw)]; rfl
  · rw [pickEret, fnBits_of_toNat (htok0 hw)]; rfl
  · rw [pickEret, fnBits_of_toNat (htok0 hw)]; rfl
  · rw [pickEret, fnBits_of_toNat (eretTok_sfn hw)]; rfl
  · rw [pickEret, fnBits_of_toNat (eretTok_sfn hw)]; rfl
  · rw [pickEret, fnBits_of_toNat (eretTok_sfn hw)]; rfl

theorem pickEvsig_of_wellFormed {a : SArgs} {i : Instr} (hi : i ∈ [.evsig a, .evsigClr a]) (hw : wellFormed i = true) :
    pickEvsig a = some i := by
  obtain rfl | rfl : i = .evsig a ∨ i = .evsigClr a := by simpa using hi
  · simp only [wellFormed, Bool.and_eq_true, beq_iff_eq] at hw
    obtain ⟨⟨⟨⟨-, hsfn⟩, -⟩, -⟩, -⟩ := hw
    rw [pickEvsig, hsfn]
    rfl
  · simp only [wellFormed, Bool.and_eq_true, beq_iff_eq] at hw
    obtain ⟨⟨⟨-, hsfn⟩, -⟩, -⟩ := hw
    rw [pickEvsig, fnBits_of_toNat hsfn]
    rfl

theorem pickEvwait_of_wellFormed {a : SArgs} {i : Instr} (hi : i ∈ [.evwait a, .evwaitTry a]) (hw : wellFormed i = true) :
    pickEvwait a = some i := by
  obtain rfl | rfl : i = .evwait a ∨ i = .evwaitTry a := by simpa using hi
  · simp only [wellFormed, Bool.and_eq_true, beq_iff_eq] at hw
    obtain ⟨⟨⟨⟨⟨-, hsfn⟩, -⟩, -⟩, -⟩, -⟩ := hw
    rw [pickEvwait, hsfn]
    rfl
  · simp only [wellFormed, Bool.and_eq_true, beq_iff_eq] at hw
    obtain ⟨⟨⟨⟨⟨⟨-, hsfn⟩, -⟩, -⟩, -⟩, -⟩, -⟩ := hw
    rw [pickEvwait, fnBits_of_toNat hsfn]
    rfl

theorem tlbOk_sfn {a : SArgs} {k : Nat} (h : tlbOk a k = true) : a.sfn.toNat = k * 2 ^ 42 := by
  simp only [tlbOk, Bool.and_eq_true, beq_iff_eq] at h
  exact h.2

theorem pickTlbinv_of_wellFormed {a : SArgs} {i : Instr} (hi : i ∈ [.tlbinv a, .tlbinvAll a, .tlbinvAp a])
    (hw : wellFormed i = true) : pickTlbinv a = some i := by
  obtain rfl | rfl | rfl : i = .tlbinv a ∨ i = .tlbinvAll a ∨ i = .tlbinvAp a := by simpa using hi
  all_goals rw [pickTlbinv, fnBits_of_toNat (tlbOk_sfn hw)]; rfl

theorem pickTsave_of_wellFormed {a : SArgs} {i : Instr} (hi : i ∈ [.tsavePart a, .tsaveExport a]) (hw : wellFormed i = true) :
    pickTsave a = some i := by
  obtain rfl | rfl : i = .tsavePart a ∨ i = .tsaveExport a := by simpa using hi
  all_goals
    simp only [wellFormed, Bool.and_eq_true, beq_iff_eq] at hw
    rw [pickTsave, hw.2]
    rfl

theorem pickTrest_of_wellFormed {a : SArgs} {i : Instr} (hi : i ∈ [.trestPart a, .trestImport a]) (hw : wellFormed i = true) :
    pickTrest a = some i := by
  obtain rfl | rfl : i = .trestPart a ∨ i = .trestImport a := by simpa using hi
  all_goals
    simp only [wellFormed, Bool.and_eq_true, beq_iff_eq] at hw
    rw [pickTrest, hw.2]
    rfl

/-! ## An encoded instruction decodes again -/

section
variable {op : Nat} {w : Word96}

theorem read_packS {a : SArgs} (ho : op < 2 ^ 10) (h : packS op a = w) : fld w 86 10 = op ∧ parseS w = some a :=
  h ▸ ⟨op_packS a ho, parseS_packS a ho⟩

theorem read_packB {a : BArgs} (ho : op < 2 ^ 10) (h : packB op a = w) : fld w 86 10 = op ∧ parseB w = some a :=
  h ▸ ⟨op_packB a ho, parseB_packB a ho⟩

theorem read_packR {a : RArgs} (ho : op < 2 ^ 10) (h : packR op a = w) : fld w 86 10 = op ∧ parseR w = some a :=
  h ▸ ⟨op_packR a ho, parseR_packR a ho⟩

theorem read_packM {a : MArgs} (ho : op < 2 ^ 10) (h : packM op a = w) : fld w 86 10 = op ∧ parseM w = some a :=
  h ▸ ⟨op_packM a ho, parseM_packM a ho⟩

theorem read_packT {a : TArgs} (ho : op < 2 ^ 10) (h : packT op a = w) : fld w 86 10 = op ∧ parseT w = some a :=
  h ▸ ⟨op_packT a ho, parseT_packT a ho⟩

theorem read_packI {n : Nat} {a : IArgs} (ho : op < 2 ^ 10) (hn : n < 2 ^ 3) (h : packI op n a = w) :
    fld w 86 10 = op ∧ parseI w = some a ∧ fld w 40 3 = n :=
  h ▸ ⟨op_packI a ho hn, parseI_packI a ho hn, fn3_packI a ho hn⟩

variable {α : Type} {a : α} {p : Option α} {i : Instr}

/-- A well-formed instruction that its row picks is decoded. `hrow` is the row itself, read off `decodeWord`. -/
theorem decodes_bind (hop : fld w 86 10 = op) (ha : p = some a) (hopc : opcode i = some op) {pick : α → Option Instr}
    (hpick : wellFormed i = true → pick a = some i)
    (hrow : fld w 86 10 = op → decodeWord w = finish (p.bind pick) := by
      intro h; unfold decodeWord; generalize fld w 86 10 = op at h; subst h; rfl) :
    opcode i = some (fld w 86 10) ∧ (wellFormed i = true → decodeWord w = .ok i) := by
  refine ⟨hop ▸ hopc, fun hw => (hrow hop).trans (finish_eq_ok.mpr ⟨?_, hw⟩)⟩
  rw [ha]
  exact hpick hw

/-- A well-formed instruction whose row holds it alone is decoded. -/
theorem decodes_map {c : α → Instr} (hop : fld w 86 10 = op) (ha : p = some a) (hopc : opcode (c a) = some op)
    (hrow : fld w 86 10 = op → decodeWord w = finish (p.map c) := by
      intro h; unfold decodeWord; generalize fld w 86 10 = op at h; subst h; rfl) :
    opcode (c a) = some (fld w 86 10) ∧ (wellFormed (c a) = true → decodeWord w = .ok (c a)) :=
  decodes_bind hop ha hopc (fun _ => rfl) (fun h => (hrow h).trans (congrArg finish (Option.map_eq_bind ..)))

end

/-- The word of an instruction holds its opcode, and a well-formed instruction is decoded from its word. -/
theorem decodeWord_of_encode {w : Word96} {i : Instr} (he : encode i = some w) :
    opcode i = some (fld w 86 10) ∧ (wellFormed i = true → decodeWord w = .ok i) := by
  cases i with
  | nop a | yield a | rdsr a | wrsr a | grow a | shrink a | clock a | bpt a | brset a | brget a | wswin a | fence a
  | bar a | barq a | arrive a | await a | stgrel a | stgacq a | wait a | cntrd a | sleep a | tagnew a | tagset a
  | tagget a | tagret a | msdrop a | pfret a | syscall a | trap a | launch a | encreate a | enadd a | enseal a
  | enenter a | enexit a | enpgout a | enpgin a | enkill a | lease a | unlease a =>
    obtain ⟨hop, ha⟩ := read_packS (by decide) (Option.some.inj he)
    exact decodes_map hop ha rfl
  | bra a | brx a | call a | callx a | ret a | split a | join a | exit a =>
    obtain ⟨hop, ha⟩ := read_packB (by decide) (Option.some.inj he)
    exact decodes_map hop ha rfl
  | pcmpi a | pcmpf a | plog a | mov a | sel a | iadd a | isub a | imul a | imulh a | imad a | imin a | imax a
  | iabs a | idiv a | irem a | lop3 a | and a | or a | xor a | not a | shl a | shr a | sar a | rotl a | funsh a
  | bfx a | bfi a | popc a | clz a | brev a | idot4 a | xset a | xadd a | xget a | shfl a | redux a | scan a
  | matchLanes a | prmt a | fadd a | fsub a | fmul a | ffma a | fmin a | fmax a | fclass a | frcp a | frsq a
  | fsqrt a | fdiv a | fexp2 a | flog2 a | fsin a | fcos a | ftanh a | hadd2 a | hmul2 a | hfma2 a | hmin2 a
  | hmax2 a | dadd a | dmul a | dfma a | cvt a | cvtpk a | frnd a | fscl a | fdot2 a =>
    obtain ⟨hop, ha⟩ := read_packR (by decide) (Option.some.inj he)
    exact decodes_map hop ha rfl
  | ld a | st a | ldx a | atom a | atomc a | red a | lds a | sts a | atoms a | ldq a | stq a | pref a | pin a
  | unpin a | cinv a | cflush a | icinv a =>
    obtain ⟨hop, ha⟩ := read_packM (by decide) (Option.some.inj he)
    exact decodes_map hop ha rfl
  | tdecl a | tfree a | tfill a | tmcast a | tdrain a | tstat a | cpyt a | cpyz a | wsld a | swpw a | mma a | mmas a
  | aclr a | ald a | scacc a | wstat a =>
    obtain ⟨hop, ha⟩ := read_packT (by decide) (Option.some.inj he)
    exact decodes_map hop ha rfl
  | pmovPack a | pmovUnpack a | pmovSet a =>
    obtain ⟨hop, ha⟩ := read_packR (by decide) (Option.some.inj he)
    exact decodes_bind hop ha rfl (pickPmov_of_wellFormed (by simp))
  | voteAll a | voteAny a | voteUni a | voteBallot a | voteCount a =>
    obtain ⟨hop, ha⟩ := read_packR (by decide) (Option.some.inj he)
    exact decodes_bind hop ha rfl (pickVote_of_wellFormed (by simp))
  | movi a | moviHi a =>
    obtain ⟨hop, ha, hfn⟩ := read_packI (by decide) (by decide) (Option.some.inj he)
    exact decodes_bind (pick := pickMovi (fld w 40 3)) hop ha rfl (fun _ => by rw [hfn]; rfl)
  | ldw a | ldwWs a =>
    obtain ⟨hop, ha⟩ := read_packT (by decide) (Option.some.inj he)
    exact decodes_bind hop ha rfl (pickLdw_of_wellFormed (by simp))
  | amov a | amovTile a =>
    obtain ⟨hop, ha⟩ := read_packT (by decide) (Option.some.inj he)
    exact decodes_bind hop ha rfl (pickAmov_of_wellFormed (by simp))
  | tagqryFree a | tagqryTag a | tagqryPool a =>
    obtain ⟨hop, ha⟩ := read_packS (by decide) (Option.some.inj he)
    exact decodes_bind hop ha rfl (pickTagqry_of_wellFormed (by simp))
  | msdecl a | msdeclRec a =>
    obtain ⟨hop, ha⟩ := read_packS (by decide) (Option.some.inj he)
    exact decodes_bind hop ha rfl (pickMsdecl_of_wellFormed (by simp))
  | msqryCap a | msqryItem a | msqryRst a | msqryLost a =>
    obtain ⟨hop, ha⟩ := read_packS (by decide) (Option.some.inj he)
    exact decodes_bind hop ha rfl (pickMsqry_of_wellFormed (by simp))
  | eretRetry a | eretSkip a | eretKill a | eretResume a | eretDecline a | eretAbort a =>
    obtain ⟨hop, ha⟩ := read_packS (by decide) (Option.some.inj he)
    exact decodes_bind hop ha rfl (pickEret_of_wellFormed (by simp))
  | evsig a | evsigClr a =>
    obtain ⟨hop, ha⟩ := read_packS (by decide) (Option.some.inj he)
    exact decodes_bind hop ha rfl (pickEvsig_of_wellFormed (by simp))
  | evwait a | evwaitTry a =>
    obtain ⟨hop, ha⟩ := read_packS (by decide) (Option.some.inj he)
    exact decodes_bind hop ha rfl (pickEvwait_of_wellFormed (by simp))
  | tlbinv a | tlbinvAll a | tlbinvAp a =>
    obtain ⟨hop, ha⟩ := read_packS (by decide) (Option.some.inj he)
    exact decodes_bind hop ha rfl (pickTlbinv_of_wellFormed (by simp))
  | tsavePart a | tsaveExport a =>
    obtain ⟨hop, ha⟩ := read_packS (by decide) (Option.some.inj he)
    exact decodes_bind hop ha rfl (pickTsave_of_wellFormed (by simp))
  | trestPart a | trestImport a =>
    obtain ⟨hop, ha⟩ := read_packS (by decide) (Option.some.inj he)
    exact decodes_bind hop ha rfl (pickTrest_of_wellFormed (by simp))
  | _ => cases he

theorem encode_isNone (i : Instr) : (encode i).isNone = (opcode i).isNone := by
  cases i <;> rfl

/-- Settles O57: one row of the map at a time, in each direction. -/
theorem decodeAndEncodeAgree : Obligations.DecodeAndEncodeAgree := by
  unfold Obligations.DecodeAndEncodeAgree
  refine ⟨fun i w he hw => (decodeWord_of_encode he).2 hw, fun w i => encode_of_decodeWord, fun i => ?_, fun i w op he hop => ?_⟩
  · rw [← Option.isNone_iff_eq_none, ← Option.isNone_iff_eq_none, encode_isNone]
  · have hfld : fld w 86 10 = op := Option.some.inj ((decodeWord_of_encode he).1.symm.trans hop)
    have hlt : w.toNat / 2 ^ 86 < 2 ^ 10 := by have := w.isLt; omega
    rw [← hfld, fld, fnBits, Nat.mod_eq_of_lt hlt]

/-- Settles O56 by decoding each word. -/
theorem wordsDecodeToTheirInstructions : Obligations.WordsDecodeToTheirInstructions := by
  unfold Obligations.WordsDecodeToTheirInstructions
  refine ⟨by decide, by decide, by decide, by decide, by decide, by decide, by decide, by decide, by decide, by decide,
    by decide, by decide, ?_, by decide⟩
  simp only [List.forall_mem_cons]
  exact ⟨by decide, by decide, by decide, by decide, by decide, List.forall_mem_nil _⟩

end Sys2Proof
end

section
/-! PROOFS. The checks of the issue stage (06 R165, R166): every instruction of the opcode map is an `issues`, what its rule asks of
the place where it stands, one lemma per check, and from these the statement IssueChecksTrap. -/
namespace Sys2Proof.Machine

/-! ## The rules of the instructions -/

/-- The opcodes whose encoding rules need the slot, the record, the crew, the ring or the barrier. -/
def placed (op : Nat) : Bool :=
  op == 0x004 || op == 0x005 || op == 0x008 || op == 0x28A || (0x142 ≤ op && op ≤ 0x158) || (0x1C0 ≤ op && op ≤ 0x1C7) ||
    (0x201 ≤ op && op ≤ 0x206)

/-- Every instruction with an opcode issues under a rule, which asks nothing of its place unless its opcode is `placed`. -/
theorem exec_issues {i : Instr} {op : Nat} (h : opcode i = some op) (s : State) :
    ∃ r body, exec i s = issues i r s body ∧ ((r.ends = false ∧ r.ctx = true) ∨ placed op = true) := by
  cases i
  all_goals cases h
  all_goals refine ⟨_, _, rfl, ?_⟩
  all_goals try exact .inl ⟨rfl, rfl⟩
  all_goals exact .inr rfl

/-- The integer and bit instructions that a CP or MX team may issue with scalar operands alone (01 R25). -/
def scalarOnly (a : RArgs) : List Instr :=
  [.mov a, .sel a, .iadd a, .isub a, .imul a, .imulh a, .imad a, .imin a, .imax a, .iabs a, .idiv a, .irem a, .lop3 a, .and a,
    .or a, .xor a, .not a, .shl a, .shr a, .sar a, .rotl a, .funsh a, .bfx a, .bfi a, .popc a, .clz a, .brev a, .prmt a]

/-- Their rule asks whether all four operands are scalar. -/
theorem exec_scalarOnly {a : RArgs} {i : Instr} (hi : i ∈ scalarOnly a) (s : State) :
    ∃ r body op, exec i s = issues i r s body ∧ r.ends = false ∧ r.ctx = true ∧
      r.scalar = (a.d.isScalar && a.a.isScalar && a.b.isScalar && a.c.isScalar) ∧
      opcode i = some op ∧ simtOnly op = false ∧ threadOnly op = false ∧ ((0x040 ≤ op && op ≤ 0x05B) || op == 0x064) = true := by
  unfold scalarOnly at hi
  fin_cases hi <;> exact ⟨_, _, _, rfl, rfl, rfl, rfl, rfl, rfl, rfl, rfl⟩

/-! ## The checks in their order (06 R165) -/

/-- The profile of agent `g`'s core lacks the opcode (06 R169). -/
abbrev Lacks (g op : Nat) : Prop := (isThread g = true ∧ simtOnly op = true) ∨ (isThread g = false ∧ threadOnly op = true)

section
variable {s : State} {g op : Nat} {i : Instr} {r : Rule}

theorem issueCheck_lacks (h : opcode i = some op) (hl : Lacks g op) : issueCheck s g i r = some .illop := by
  have hcond : (isThread g && simtOnly op || !isThread g && threadOnly op) = true := by
    obtain ⟨ht, hop⟩ | ⟨ht, hop⟩ := hl <;> simp [ht, hop]
  simp only [issueCheck, h, hcond, if_true]

/-- Past the profile: the encoding, the role, the level. -/
theorem issueCheck_has (h : opcode i = some op) (hl : ¬ Lacks g op) : issueCheck s g i r =
    if !wellFormed i || (r.ends && !(s.team g).lastSlot (s.team g).pc) || !r.ctx then some .illenc
    else if !roleOk op r.scalar (s.team g).role then some .role
    else if levelOne op && s.levelOf g == .l0 then some .priv
    else none := by
  have hcond : ¬ (isThread g && simtOnly op || !isThread g && threadOnly op) = true := by simpa [Lacks] using hl
  simp only [issueCheck, h, hcond]
  rfl

theorem issueCheck_illFormed (h : opcode i = some op) (hl : ¬ Lacks g op) (hw : wellFormed i = false) :
    issueCheck s g i r = some .illenc := by
  simp [issueCheck_has h hl, hw]

/-- A team whose role may not issue the opcode. -/
theorem issueCheck_role (h : opcode i = some op) (hl : ¬ Lacks g op) (hw : wellFormed i = true)
    (hr : roleOk op r.scalar (s.team g).role = false) :
    issueCheck s g i r = some .role ∨ (¬ (r.ends = false ∧ r.ctx = true) ∧ issueCheck s g i r = some .illenc) := by
  rw [issueCheck_has h hl, hw, hr]
  by_cases hp : (r.ends && !(s.team g).lastSlot (s.team g).pc || !r.ctx) = true
  · refine .inr ⟨fun ⟨he, hc⟩ => ?_, by simp [hp]⟩
    simp [he, hc] at hp
  · exact .inl (by simp [hp])

theorem issueCheck_priv (h : opcode i = some op) (hl : ¬ Lacks g op) (hw : wellFormed i = true)
    (hp : r.ends = false ∧ r.ctx = true) (hr : roleOk op r.scalar (s.team g).role = true) (hlevel : levelOne op = true)
    (hl0 : s.levelOf g = .l0) : issueCheck s g i r = some .priv := by
  obtain ⟨he, hc⟩ := hp
  simp [issueCheck_has h hl, hw, he, hc, hr, hlevel, hl0]

end

/-! ## The roles of staged mode (01 R25) -/

/-- The opcode lies in one of the ranges. -/
abbrev Within (op : Nat) (rs : List (Nat × Nat)) : Prop := ∃ x ∈ rs, x.1 ≤ op ∧ op ≤ x.2

theorem roleOk_vx {op : Nat} (b : Bool) (h : Within op [(0x153, 0x157), (0x159, 0x15B), (0x1C0, 0x1C7)]) :
    roleOk op b .vx = false := by
  simp only [Within, List.exists_mem_cons_iff, List.not_mem_nil, false_and, exists_false, or_false] at h
  simp only [roleOk, Bool.not_eq_false', Bool.or_eq_true, Bool.and_eq_true, decide_eq_true_eq]
  omega

theorem roleOk_mx {op : Nat} (b : Bool)
    (h : Within op [(0x05C, 0x063), (0x0C0, 0x0DC), (0x142, 0x157), (0x159, 0x15B), (0x280, 0x280)]) :
    roleOk op b .mx = false := by
  simp only [Within, List.exists_mem_cons_iff, List.not_mem_nil, false_and, exists_false, or_false] at h
  have hint : ¬ ((0x040 ≤ op && op ≤ 0x05B) || op == 0x064) = true := by
    simp only [Bool.or_eq_true, Bool.and_eq_true, decide_eq_true_eq, beq_iff_eq]
    omega
  simp only [roleOk, hint, Bool.false_eq_true, if_false, Bool.not_eq_false', Bool.or_eq_true, Bool.and_eq_true, decide_eq_true_eq, beq_iff_eq]
  omega

theorem roleOk_cp {op : Nat} (b : Bool)
    (h : Within op [(0x05C, 0x063), (0x0C0, 0x0DC), (0x142, 0x152), (0x1C0, 0x1C7), (0x280, 0x280)]) :
    roleOk op b .cp = false := by
  simp only [Within, List.exists_mem_cons_iff, List.not_mem_nil, false_and, exists_false, or_false] at h
  have hint : ¬ ((0x040 ≤ op && op ≤ 0x05B) || op == 0x064) = true := by
    simp only [Bool.or_eq_true, Bool.and_eq_true, decide_eq_true_eq, beq_iff_eq]
    omega
  simp only [roleOk, hint, Bool.false_eq_true, if_false, Bool.not_eq_false', Bool.or_eq_true, Bool.and_eq_true, decide_eq_true_eq, beq_iff_eq]
  omega

/-- The integer and bit instructions of an MX or CP team ask for scalar operands. -/
theorem roleOk_scalar {op : Nat} {ρ : Role} (b : Bool) (hop : ((0x040 ≤ op && op ≤ 0x05B) || op == 0x064) = true)
    (hρ : ρ = .mx ∨ ρ = .cp) : roleOk op b ρ = b := by
  obtain rfl | rfl := hρ <;> simp only [roleOk, hop, if_true]

/-- The table of staged mode denies the opcode to the role, whatever its operands. -/
abbrev Denied (ρ : Role) (op : Nat) : Prop :=
  (ρ = .vx ∧ Within op [(0x153, 0x157), (0x159, 0x15B), (0x1C0, 0x1C7)]) ∨
  (ρ = .mx ∧ Within op [(0x05C, 0x063), (0x0C0, 0x0DC), (0x142, 0x157), (0x159, 0x15B), (0x280, 0x280)]) ∨
  (ρ = .cp ∧ Within op [(0x05C, 0x063), (0x0C0, 0x0DC), (0x142, 0x152), (0x1C0, 0x1C7), (0x280, 0x280)])

theorem roleOk_denied {ρ : Role} {op : Nat} (b : Bool) (h : Denied ρ op) : roleOk op b ρ = false := by
  obtain ⟨rfl, h⟩ | ⟨rfl, h⟩ | ⟨rfl, h⟩ := h
  · exact roleOk_vx b h
  · exact roleOk_mx b h
  · exact roleOk_cp b h

/-- A denied instruction that asks something of its place is a memory, tile or matrix instruction. -/
theorem within_of_denied_placed {ρ : Role} {op : Nat} (h : Denied ρ op) (hp : placed op = true) :
    Within op [(0x142, 0x152), (0x153, 0x157), (0x1C0, 0x1C7)] := by
  simp only [Denied, Within, List.exists_mem_cons_iff, List.not_mem_nil, false_and, exists_false, or_false] at h ⊢
  simp only [placed, Bool.or_eq_true, Bool.and_eq_true, decide_eq_true_eq, beq_iff_eq] at hp
  omega

/-- The instructions of level 1 from 0x286 on ask nothing of their place. -/
theorem not_placed_of_levelOne {op : Nat} (hop : 0x286 ≤ op) (hl : levelOne op = true) : ¬ placed op = true := by
  simp only [levelOne, Bool.or_eq_true, Bool.and_eq_true, decide_eq_true_eq, beq_iff_eq] at hl
  simp only [placed, Bool.or_eq_true, Bool.and_eq_true, decide_eq_true_eq, beq_iff_eq]
  omega

/-- Settles O18: the check that refuses an instruction, by the lemma about it. -/
theorem issueChecksTrap : Obligations.IssueChecksTrap := by
  unfold Obligations.IssueChecksTrap
  refine ⟨fun i op s h => ?_, fun a i s hi hw hρ hscalar => ?_⟩
  · intro traps lacks
    obtain ⟨r, body, hexec, hplace⟩ := exec_issues h s
    have refused : ∀ {c}, issueCheck s s.cur i r = some c → traps c := fun hc => hexec.trans (issues_refused body hc)
    refine ⟨fun hl => refused (issueCheck_lacks h hl), fun hl hw => refused (issueCheck_illFormed h hl hw), ?_⟩
    intro within denied
    refine ⟨fun hl hw hd => ?_, fun hl hw hsolo hop hlevel hl0 => refused ?_⟩
    · refine (issueCheck_role h hl hw (roleOk_denied _ hd)).imp refused fun ⟨hask, hc⟩ => ⟨?_, refused hc⟩
      exact within_of_denied_placed hd (hplace.resolve_left hask)
    · have hask := hplace.resolve_right (not_placed_of_levelOne hop hlevel)
      exact issueCheck_priv h hl hw hask (hsolo ▸ rfl) hlevel hl0
  · obtain ⟨r, body, op, hexec, hends, hctx, hrs, hop, hsimt, hthread, hint⟩ := exec_scalarOnly hi s
    have hl : ¬ Lacks s.cur op := by simp [Lacks, hsimt, hthread]
    have hrole : roleOk op r.scalar s.me.role = false := by rw [roleOk_scalar _ hint hρ, hrs, hscalar]
    have hcheck := (issueCheck_role hop hl hw hrole).resolve_right (fun ⟨hask, _⟩ => hask ⟨hends, hctx⟩)
    exact hexec.trans (issues_refused body hcheck)

end Sys2Proof.Machine
end

section
/-! PROOFS. The special registers (06 R161, 07 R200-R203, 08 R224, R228, R229) and from their laws the statement
SpecialRegistersReadAndWrite. -/
namespace Sys2Proof.Machine

theorem fnBits_low {n : Nat} (x : BitVec n) (k : Nat) : fnBits x 0 k = x.toNat % 2 ^ k := by
  rw [fnBits, pow_zero, Nat.div_one]

/-- An instruction whose body computes each lane's result and meets no trap completes. -/
theorem completes_perLane {i : Instr} {r : Rule} {s : State} {d : Operand} {wide : Bool} {res : Nat → LaneRes}
    {f : Ctx → Nat → Except Cause LaneRes} (h : Ready i r s d wide res)
    (hexec : exec i s = issues i r s (fun c => c.perLane s d wide (f c)))
    (hf : ∀ l ∈ s.me.lanesOf (s.mask r.guard), f (s.ctx r) l = .ok (res l))
    (hx : ∀ l ∈ s.me.lanesOf (s.mask r.guard), ∀ w, (res l).xw = some w → w.1 < 8) : Completes i r s d wide res := by
  obtain ⟨hnone, hwrote⟩ := runLanes_wrote h.dest hf h.nofpx hx
  refine ⟨_, hexec.trans (issues_plain h.toIssues ?_), hwrote⟩
  simp only [Ctx.perLane, Ctx.done, Res.plain, hnone]

/-- The registers that hold a field of the team or a clock. -/
theorem special_fields (s : State) (g l w : Nat) : let t := s.team g
    ∀ x ∈ [(0x00, BitVec.ofNat 64 l), (0x07, BitVec.ofNat 64 t.width), (0x08, (t.live.extractLsb' (32 * w) 32).setWidth 64),
            (0x10, t.fpmode.setWidth 64), (0x11, t.srseed.setWidth 64), (0x12, t.fpflags.setWidth 64),
            (0x13, t.devflags.setWidth 64), (0x14, t.tag.setWidth 64), (0x19, BitVec.ofNat 64 s.clk.ptp), (0x1B, t.sppass),
            (0x20, t.trapcause.setWidth 64), (0x21, t.trappc), (0x22, (t.trapmask.extractLsb' (32 * w) 32).setWidth 64),
            (0x28, BitVec.ofNat 64 t.regs), (0x29, BitVec.ofNat 64 t.uwc.length)], s.special g l x.1 w = x.2 := by
  intro t
  simp only [List.forall_mem_cons]
  exact ⟨rfl, rfl, rfl, rfl, rfl, rfl, rfl, rfl, rfl, rfl, rfl, rfl, rfl, rfl, rfl, List.forall_mem_nil _⟩

/-- A control thread has no rank, squad or fixture. -/
theorem special_thread {s : State} {g : Nat} (h : isThread g = true) (l w : Nat) :
    ∀ n ∈ [0x02, 0x03, 0x04], s.special g l n w = 0xFFFFFFFF := by
  simp only [List.forall_mem_cons]
  refine ⟨?_, ?_, ?_, List.forall_mem_nil _⟩ <;> exact if_pos h

/-- A write to each special register but sr.tag keeps the bits the register has. -/
theorem writeSpecial_fields (t : Team) (v : W32) :
    ∀ x ∈ [(0x10, { t with fpmode := v &&& 0xFF3F }), (0x12, { t with fpflags := v &&& 0x7F }),
        (0x13, { t with devflags := v &&& 0x3F }),
        (0x11, { t with srseed := if v = 0 then 0x2545F491 else v, amovGen := if v = 0 then 0x2545F491 else v })],
      t.writeSpecial x.1 v = x.2 ∧ x.1 ≠ 0x14 := by
  simp only [List.forall_mem_cons]
  exact ⟨⟨rfl, by decide⟩, ⟨rfl, by decide⟩, ⟨rfl, by decide⟩, ⟨rfl, by decide⟩, List.forall_mem_nil _⟩

section
variable {s : State} {a : SArgs}

theorem exec_rdsr (s : State) (a : SArgs) : exec (.rdsr a) s = issues (.rdsr a) (ruleS a) s (fun c =>
    c.perLane s a.d (srWide (a.sfn.toNat % 2 ^ 8)) (fun l =>
      .ok { val := s.special c.a l (a.sfn.toNat % 2 ^ 8) (a.sfn.toNat / 2 ^ 8 % 2 ^ 5) })) := by
  rw [← fnBits_low]
  rfl

theorem exec_wrsr {t : Team} (h : Issues (.wrsr a) (ruleS a) s) (hT : s.mask a.g ≠ 0) {num : Nat}
    (hnum : a.sfn.toNat % 2 ^ 8 = num) (htag : num ≠ 0x14) (ht : s.me.writeSpecial num ((s.me.opndU a.a).setWidth 32) = t) :
    exec (.wrsr a) s = .next (s.after (s.setTeam s.cur t)) := by
  have hfn : fnBits a.sfn 0 8 = num := by rw [fnBits_low, hnum]
  refine issues_plain h ((once_run hT).trans ?_)
  simp only [hfn, htag, if_false, ht]
  rfl

theorem exec_clock (h : Issues (.clock a) (ruleS a) s) (hT : s.mask a.g ≠ 0) :
    exec (.clock a) s = .next (s.after (s.setTeam s.cur (s.me.putUni true a.d
      (if a.sfn.toNat % 2 = 0 then s.cycle s.cur else BitVec.ofNat 64 s.clk.ptp)))) := by
  refine issues_plain h ((once_run hT).trans ?_)
  simp only [fnBits_low, pow_one]
  rfl

end

/-- Settles O17: RDSR by the law of per-lane results, the writes register by register. -/
theorem specialRegistersReadAndWrite : Obligations.SpecialRegistersReadAndWrite := by
  unfold Obligations.SpecialRegistersReadAndWrite
  refine ⟨fun s a => ?rdsr, fun s g l w => ⟨special_fields s g l w, fun h => special_thread h l w⟩, fun s a h => ?wrsr,
    fun s a h => ⟨fun hT => issues_plain h (once_empty hT), exec_clock h⟩, fun s a h => issues_trap h rfl⟩
  case rdsr =>
    intro r num wide res h
    exact completes_perLane h (exec_rdsr s a) (fun _ _ => rfl) (fun _ _ _ hxw => nomatch hxw)
  case wrsr =>
    intro v
    refine ⟨fun hT => issues_plain h (once_empty hT), fun hT x hx hnum => ?_⟩
    obtain ⟨hwrite, htag⟩ := writeSpecial_fields s.me v x hx
    exact exec_wrsr h hT hnum htag hwrite

end Sys2Proof.Machine
end

section
/-! PROOFS. Leaving a slot (06 R139-R141, 07 R183-R188), NOP and YIELD (07 R198, R199): the next place, the end of a team, the lanes
that die at SIGMIS or at the end of a wait, and from these the statement LeavingASlot. -/
namespace Sys2Proof.Machine

/-! ## The next place (06 R139) -/

namespace Team

/-- The block is left through its last slot, checked, with another S than its header's (07 R188). -/
theorem sigBad_iff (t : Team) (pc : W64) :
    t.sigBad pc = true ↔ t.header.sigx = true ∧ t.lastSlot pc = true ∧ t.sig ≠ t.header.sig := by
  simp only [sigBad, Bool.and_eq_true, bne_iff_ne]
  tauto

theorem move_seq (t : Team) (pc : W64) : t.move pc .seq =
    if t.lastSlot pc then
      { t.fresh with pc := blockOf pc + 64, sig := if t.header.sigx then 0 else t.sig, block := [] }
    else { t.fresh with pc := pc + 1 } := rfl

theorem cur_move_seq (t : Team) (pc : W64) : (t.move pc .seq).cur = t.cur := by
  rw [move_seq]
  split <;> rfl

/-- The fields that a move to the next slot or block changes. -/
theorem move_seq_rest (t : Team) (pc : W64) : t.move pc .seq = { t with
    pc := (t.move pc .seq).pc, sig := (t.move pc .seq).sig, block := (t.move pc .seq).block
    folded := (t.move pc .seq).folded, replay := none, counted := [], waiting := none
    frame := if t.replay = none then t.frame else { t.frame with rpm := 0 } } := by
  have hframe : t.fresh.frame = if t.replay = none then t.frame else { t.frame with rpm := 0 } := by
    cases h : t.replay <;> simp [fresh, h]
  rw [← hframe, move_seq]
  split <;> rfl

theorem move_seq_folded (t : Team) (pc : W64) : (t.move pc .seq).folded = false := by
  rw [move_seq]
  split <;> rfl

theorem move_seq_inside {t : Team} {pc : W64} (h : t.lastSlot pc = false) :
    (t.move pc .seq).pc = pc + 1 ∧ (t.move pc .seq).sig = t.sig ∧ (t.move pc .seq).block = t.block := by
  rw [move_seq, h]
  exact ⟨rfl, rfl, rfl⟩

theorem move_seq_last {t : Team} {pc : W64} (h : t.lastSlot pc = true) :
    (t.move pc .seq).pc = blockOf pc + 64 ∧ (t.move pc .seq).block = [] ∧
      (t.move pc .seq).sig = if t.header.sigx = true then 0 else t.sig := by
  rw [move_seq, h]
  exact ⟨rfl, rfl, rfl⟩

/-- A team when it has ended. -/
def ended (t : Team) : Team :=
  { t with run := .ended, active := 0, stack := [], waiting := none, replay := none, block := [] }

end Team

namespace State

section
variable {s : State} {g : Nat} {pc : W64} {fl : Flow}

theorem settle_running (h : (s.team g).cur ≠ 0) : s.settle g = s := if_pos (.inl h)

theorem leave_good (h : (s.team g).sigBad pc = false) :
    s.leave g pc fl = (s.setTeam g ((s.team g).move pc fl)).settle g := by
  simp only [leave, h]
  rfl

/-- A team with an active lane is at the next slot. -/
theorem leave_running (hcur : (s.team g).cur ≠ 0) (h : (s.team g).sigBad pc = false) :
    s.leave g pc .seq = s.setTeam g ((s.team g).move pc .seq) := by
  rw [leave_good h, settle_running]
  rwa [team_setTeam_self, Team.cur_move_seq]

theorem leave_bad (h : (s.team g).sigBad pc = true) (hg : isThread g = false) : s.leave g pc fl = s.sigmisTeam g pc := by
  simp only [leave, h, sigmis, hg]
  rfl

end

/-! ## The end of a team (07 R184, 14 R372) -/

theorem checkBarriers_frame (s : State) (n : Nat) : (s.checkBarriers n).teams = s.teams ∧ (s.checkBarriers n).mem = s.mem := by
  unfold checkBarriers
  dsimp only
  split <;> exact ⟨rfl, rfl⟩

theorem endTeam_frame (s : State) (g : Nat) :
    (s.endTeam g).teams = (s.setTeam g (s.team g).ended).teams ∧ (s.endTeam g).mem = s.mem := by
  unfold endTeam
  dsimp only
  refine ⟨(checkBarriers_frame _ _).1.trans ?_, (checkBarriers_frame _ _).2.trans ?_⟩
  · repeat' split
    all_goals rfl
  · repeat' split
    all_goals rfl

@[simp] theorem team_endTeam (s : State) (g : Nat) : (s.endTeam g).team g = (s.team g).ended := by
  rw [team, (endTeam_frame s g).1]
  exact team_setTeam_self ..

theorem recordTrap_frame (s : State) (g : Nat) (m : Mask) (c : Cause) (pc : W64) :
    (s.recordTrap g m c pc).team g = { ((s.team g).setTrap m pc c.code).countTrap c with
      causes := (lanes (s.team g).width m).map (fun l => (l, c)) } ∧ (s.recordTrap g m c pc).mem = s.mem :=
  ⟨team_setTeam_self .., rfl⟩

theorem team_log (s : State) (ty u w n e : Nat) (d : W64) (g : Nat) : (s.log ty u w n e d).team g = s.team g := rfl

theorem team_charge (s : State) (x : UnitName) (k g : Nat) : (s.charge x k).team g = s.team g := by
  obtain ⟨-, -, hteams⟩ := charge_frame s x k
  rw [team, hteams]
  rfl

end State

/-! ## Lanes that die -/

/-- The live lanes of `t` do not meet `n`. -/
abbrev Team.Dead (t : Team) (n : Mask) : Prop := t.live &&& n = 0

theorem and_right_dead {x n : Mask} (h : x &&& n = 0) (y : Mask) : (x &&& y) &&& n = 0 := by
  rw [BitVec.and_assoc, BitVec.and_comm y, ← BitVec.and_assoc, h]
  exact BitVec.zero_and

namespace Team

@[simp] theorem live_countTrap (t : Team) (c : Cause) : (t.countTrap c).live = t.live := by
  unfold countTrap
  split <;> rfl

@[simp] theorem trap_countTrap (t : Team) (c : Cause) :
    (t.countTrap c).trapcause = t.trapcause ∧ (t.countTrap c).trappc = t.trappc := by
  unfold countTrap
  split <;> exact ⟨rfl, rfl⟩

/-- Lanes that die of a kill are dead. -/
theorem kill_dead (t : Team) (m : Mask) (c : Cause) : (t.kill m c).Dead m := by
  show t.live &&& ~~~ (m &&& t.live) &&& m = 0
  ext l
  cases hm : m[l] <;> simp [hm]

/-- The dead stay dead. -/
theorem kill_keeps_dead {t : Team} {n : Mask} (h : t.Dead n) (m : Mask) (c : Cause) : (t.kill m c).Dead n :=
  and_right_dead h _

theorem implicitJoin_live (t : Team) (st : List DivEntry) : (t.implicitJoin st).1.live = t.live := by
  induction st with
  | nil => rfl
  | cons e st ih =>
    unfold implicitJoin
    dsimp only
    split
    · rfl
    · split
      · rfl
      · exact ih

end Team

namespace State
section
variable {s : State} {g : Nat} {pc : W64} {n : Mask}

/-- SIGMIS kills every live lane, and the team ends (07 R188). -/
theorem sigmisTeam_facts (s : State) (g : Nat) (pc : W64) :
    let t := s.team g
    let u := (s.sigmisTeam g pc).team g
    u.live = 0 ∧ u.run = .ended ∧ (s.sigmisTeam g pc).mem = s.mem ∧
      (t.live ≠ 0 → u.trapcause = Cause.code .sigmis ∧ u.trappc = pc) := by
  intro t u
  have hteam : ((s.log 0x05 1 (s.worldOf g) (s.coreOf g) (s.eidOf g) pc).charge (.core (s.coreOf g)) 64).team g = t :=
    (team_charge ..).trans (team_log ..)
  have hmem := (charge_frame (s.log 0x05 1 (s.worldOf g) (s.coreOf g) (s.eidOf g) pc) (.core (s.coreOf g)) 64).2.1
  simp only [u, sigmisTeam]
  generalize (s.log 0x05 1 (s.worldOf g) (s.coreOf g) (s.eidOf g) pc).charge (.core (s.coreOf g)) 64 = s0 at hteam hmem ⊢
  by_cases hl : t.live = 0
  · rw [if_pos hl, team_endTeam, hteam]
    exact ⟨hl, rfl, (endTeam_frame ..).2.trans hmem, fun h => absurd hl h⟩
  · rw [if_neg hl, team_endTeam]
    obtain ⟨hrec, hrecmem⟩ := recordTrap_frame s0 g t.live .sigmis pc
    have hkill : ((s0.recordTrap g t.live .sigmis pc).killLanes g t.live .sigmis).team g =
        ({ (t.setTrap t.live pc (Cause.code .sigmis)).countTrap .sigmis with
          causes := (lanes t.width t.live).map (fun l => (l, Cause.sigmis)) } : Team).kill t.live .sigmis := by
      rw [killLanes, modTeam, team_setTeam_self, hrec, hteam]
    rw [hkill]
    obtain ⟨hcause, htpc⟩ := (t.setTrap t.live pc (Cause.code .sigmis)).trap_countTrap .sigmis
    refine ⟨?_, rfl, (endTeam_frame ..).2.trans (hrecmem.trans hmem), fun _ => ⟨hcause, htpc⟩⟩
    show (Team.countTrap _ _).live &&& ~~~ (t.live &&& (Team.countTrap _ _).live) = 0
    rw [Team.live_countTrap]
    show t.live &&& ~~~ (t.live &&& t.live) = 0
    rw [BitVec.and_self]
    exact BitVec.and_not_self _

end

/-- The lanes whose trap a handler returns from, killed (16 R422). -/
def handlerKill (t : Team) (ls : List Nat) : Team :=
  ls.foldl (fun t l =>
    t.kill (oneLane l) (((t.causes.find? (fun x => x.1 == l)).map (·.2)).getD (Cause.ofCode t.trapcause))) t

theorem handlerKill_keeps_dead {n : Mask} (ls : List Nat) {t : Team} (h : t.Dead n) : (handlerKill t ls).Dead n := by
  induction ls generalizing t with
  | nil => exact h
  | cons l ls ih => exact ih (Team.kill_keeps_dead h ..)

theorem handlerReturn_live (s : State) (g : Nat) :
    ((s.handlerReturn g false true).team g).live =
      (handlerKill (s.team g) (lanes (s.team g).width (s.team g).trapmask)).live := by
  simp only [handlerReturn, team_setTeam_self, if_true, handlerKill]

section
variable {s : State} {g : Nat} {pc : W64} {n : Mask}

theorem handlerReturn_keeps_dead (h : (s.team g).Dead n) : ((s.handlerReturn g false true).team g).Dead n := by
  rw [Team.Dead, handlerReturn_live]
  exact handlerKill_keeps_dead _ h

/-- Where a team of a crew settles: as it is or back from its handler, and then there, on the path of an implicit join, in its
ended power-fail handler, or at its end (07 R184, 16 R403). -/
theorem settle_cases (hg : isThread g = false) : s.settle g = s ∨ ∃ s1, (s1 = s ∨ s1 = s.handlerReturn g false true) ∧
    (s.settle g = s1 ∨ s.settle g = s1.setTeam g ((s1.team g).implicitJoin (s1.team g).stack).1 ∨ s.settle g = s1.pfStop g ∨
      s.settle g = (s1.setTeam g ((s1.team g).implicitJoin (s1.team g).stack).1).endTeam g) := by
  by_cases hrun : (s.team g).cur ≠ 0 ∨ (s.team g).run = .ended ∨ (s.team g).run = .retired
  · exact .inl (if_pos hrun)
  · let c := (s.team g).frame.inh && !isThread g && (s.team g).run != .pfHandler
    let s1 := if c then s.handlerReturn g false true else s
    refine .inr ⟨s1, ?_, ?_⟩
    · cases hc : c
      · exact .inl (by simp only [s1, hc]; rfl)
      · exact .inr (by simp only [s1, hc]; rfl)
    · have hsettle : s.settle g = if (s1.team g).cur ≠ 0 then s1 else
          if ((s1.team g).implicitJoin (s1.team g).stack).2 then s1.setTeam g ((s1.team g).implicitJoin (s1.team g).stack).1
          else if ((s1.team g).implicitJoin (s1.team g).stack).1.run = .pfHandler then s1.pfStop g
          else if isThread g then s1.stopThread g
          else (s1.setTeam g ((s1.team g).implicitJoin (s1.team g).stack).1).endTeam g := if_neg hrun
      rw [hsettle]
      simp only [hg, Bool.false_eq_true, if_false]
      split_ifs
      · exact .inl rfl
      · exact .inr (.inl rfl)
      · exact .inr (.inr (.inl rfl))
      · exact .inr (.inr (.inr rfl))

theorem settle_keeps_dead (hg : isThread g = false) (h : (s.team g).Dead n) : ((s.settle g).team g).Dead n := by
  obtain hs | ⟨s1, h1, hs⟩ := settle_cases (s := s) hg
  · rwa [hs]
  · have hdead : (s1.team g).Dead n := by
      obtain rfl | rfl := h1
      · exact h
      · exact handlerReturn_keeps_dead h
    have hjoin : ((s1.team g).implicitJoin (s1.team g).stack).1.Dead n := by
      rwa [Team.Dead, Team.implicitJoin_live]
    obtain hs | hs | hs | hs := hs
    · rwa [hs]
    · rwa [hs, team_setTeam_self]
    · rw [hs, pfStop, modTeam, team_setTeam_self]
      exact hdead
    · rw [hs, team_endTeam, team_setTeam_self]
      exact hjoin

/-- Leaving a slot brings no lane of a team of a crew back to life. -/
theorem leave_keeps_dead (hg : isThread g = false) (h : (s.team g).Dead n) : ((s.leave g pc .seq).team g).Dead n := by
  cases hbad : (s.team g).sigBad pc with
  | true =>
    rw [leave_bad hbad hg, Team.Dead, (sigmisTeam_facts s g pc).1]
    exact BitVec.zero_and
  | false =>
    rw [leave_good hbad]
    refine settle_keeps_dead hg ?_
    rw [team_setTeam_self, Team.move_seq_rest]
    exact h

/-- The lanes that consumed uncorrectable data at issue die when the wait ends (07 R210). -/
theorem lateDeath_dead (s : State) (g : Nat) {w : Waiting} (hue : w.ue ≠ 0) : ((s.lateDeath g w).team g).Dead w.ue := by
  have hkill : (((s.recordTrap g w.ue .ue (s.team g).pc).killLanes g w.ue .ue).team g).Dead w.ue := by
    rw [killLanes, modTeam, team_setTeam_self]
    exact Team.kill_dead ..
  rw [lateDeath, if_neg hue, ueDeath]
  generalize (s.recordTrap g w.ue .ue (s.team g).pc).killLanes g w.ue .ue = s1 at hkill ⊢
  rw [team_log]
  split
  · exact hkill
  · rwa [team_charge]

end

/-! ## YIELD (07 R199) -/

section
variable {s : State} {g : Nat} {w : Waiting} {a : SArgs}

theorem exec_yieldEnd_over (hw : (s.team g).waiting = some w) (hi : w.instr = .yield a) (ht : w.until_ ≤ s.mcyc g) :
    exec (.yieldEnd g) s =
      .next (((s.setTeam g { s.team g with since := s.mcyc g }).lateDeath g w).leave g (s.team g).pc .seq) := by
  show execYieldEnd g s = _
  simp only [execYieldEnd, hw, hi, ht, if_true]

theorem exec_yieldEnd_early (hw : (s.team g).waiting = some w) (hi : w.instr = .yield a) (ht : s.mcyc g < w.until_) :
    exec (.yieldEnd g) s = .next s := by
  show execYieldEnd g s = _
  simp only [execYieldEnd, hw, hi, Nat.not_le.mpr ht, if_false]

end
end State

/-- Settles O16: the places by the laws of `move`, SIGMIS by the end of a team, YIELD by its wait and what ends it. -/
theorem leavingASlot : Obligations.LeavingASlot := by
  unfold Obligations.LeavingASlot
  refine ⟨fun s g pc => ?place, Team.sigBad_iff, fun s g pc fl hbad hg => ?sigmis, fun s a h => issues_plain h rfl,
    fun s a h => ?yield, fun s g w a hw hi => ⟨fun ht hue => ?clean, fun ht hg hue => ?late, State.exec_yieldEnd_early hw hi⟩⟩
  case place =>
    intro t hcur hbad
    exact ⟨t.move pc .seq, State.leave_running hcur hbad, t.move_seq_rest pc, t.move_seq_folded pc, Team.move_seq_inside,
      Team.move_seq_last⟩
  case sigmis =>
    rw [State.leave_bad hbad hg]
    exact State.sigmisTeam_facts s g pc
  case yield =>
    intro n
    have hn : fnBits a.sfn 0 10 = n := fnBits_low ..
    refine ⟨fun hnone => ?_, fun hT hne hwait => issues_wait h hwait ?_⟩
    · refine issues_plain h ?_
      by_cases hT : s.mask a.g = 0
      · exact once_empty hT
      · exact (once_run hT).trans (if_pos (hn.trans (hnone.resolve_left hT)))
    · rw [once_run hT, hn]
      exact if_neg hne
  case clean =>
    rw [State.exec_yieldEnd_over hw hi ht, State.lateDeath, if_pos hue]
  case late =>
    exact ⟨_, State.exec_yieldEnd_over hw hi ht, State.leave_keeps_dead hg (State.lateDeath_dead _ g hue)⟩

end Sys2Proof.Machine
end

section
/-! PROOFS. One step (06 R136-R141, R165, 07 R186, R187): what loading the block and issuing its word leave, and from these the
statement StepRunsDecodedInstruction. -/
namespace Sys2Proof.Machine

/-! ## The team that issues -/

namespace Team

/-- A team with the block `bs`, on entry to which S is 0 when the block is checked (07 R186). -/
def withBlock (t : Team) (bs : List Byte) : Team :=
  { t with
    block := bs, blockAt := if t.block = [] then blockOf t.pc else t.blockAt
    sig := if t.block = [] ∧ (blockHeader bs).sigx = true ∧ slotOf t.pc = 0 ∧ t.folded = false then 0 else t.sig }

/-- A team at the issue of the word `w`, folded once (07 R187), its waiting time begun again (05 R135). -/
def issuing (t : Team) (w : Word96) (now : Nat) : Team :=
  { t with
    sig := if t.folded then t.sig else foldWord t.sig w, folded := true, since := now, aged := false
    notBefore := if flag w 78 = true then now + 1000 else t.notBefore }

/-- A held block stays as it is. -/
theorem withBlock_held {t : Team} (h : t.block ≠ []) : t.withBlock t.block = t := by
  simp [withBlock, h]

end Team

namespace State
section
variable {s s' s1 : State} {a : Nat} {bs : List Byte}

/-! ## Loading the block -/

theorem loadBlock_held (h : (s.team a).block ≠ []) : s.loadBlock a = (s, true) := by
  rw [loadBlock, if_pos h]

theorem loadBlock_fetched (hblock : (s.team a).block = []) (hwalk : s.fetchWalk a = [])
    (hfetch : (s.takeFetched a).fetch a (s.team a).pc = (s', .ok bs)) (hok : (blockHeader bs).ok = true)
    (hslot : slotOf (s.team a).pc < (blockHeader bs).slots) :
    s.loadBlock a = (s'.setTeam a ((s.team a).withBlock bs), true) := by
  simp [loadBlock, Team.withBlock, hblock, hwalk, hfetch, hok, Nat.not_le.mpr hslot]

/-- Loading a block changes nothing but its team. -/
theorem loadBlock_issues (h : ((s.team a).block = bs ∧ bs ≠ [] ∧ s' = s) ∨ ((s.team a).block = [] ∧ s.fetchWalk a = [] ∧
      (s.takeFetched a).fetch a (s.team a).pc = (s', .ok bs) ∧ (blockHeader bs).ok = true ∧
      slotOf (s.team a).pc < (blockHeader bs).slots)) :
    ∃ s1, s.loadBlock a = (s1, true) ∧ s1.team a = (s.team a).withBlock bs ∧ (∀ b, b ≠ a → s1.team b = s'.team b) ∧
      s1 = { s' with teams := s1.teams } := by
  obtain ⟨rfl, hheld, rfl⟩ | ⟨hblock, hwalk, hfetch, hok, hslot⟩ := h
  · exact ⟨s', loadBlock_held hheld, (Team.withBlock_held hheld).symm, fun _ _ => rfl, rfl⟩
  · exact ⟨_, loadBlock_fetched hblock hwalk hfetch hok hslot, team_setTeam_self .., fun _ hb => team_setTeam_ne _ _ hb, rfl⟩

/-! ## Issuing the word -/

/-- The state in which the word `w` of agent `a` has issued. -/
def issued (s : State) (a : Nat) (w : Word96) : State :=
  ((s.foldPc a w).takeSlot a w).modTeam a (fun t => { t with
    since := ((s.foldPc a w).takeSlot a w).mcyc a, aged := false
    notBefore := if flag w 78 then ((s.foldPc a w).takeSlot a w).mcyc a + 1000 else t.notBefore })

theorem team_foldPc (s : State) (a : Nat) (w : Word96) : (s.foldPc a w).team a =
    { s.team a with sig := if (s.team a).folded then (s.team a).sig else foldWord (s.team a).sig w, folded := true } := by
  rw [foldPc, modTeam, team_setTeam_self]
  cases h : (s.team a).folded
  · rfl
  · rw [if_pos rfl, if_pos rfl, ← h]

theorem team_issued (s : State) (a : Nat) (w : Word96) : (s.issued a w).team a = (s.team a).issuing w (s.mcyc a) := by
  have hslot : ((s.foldPc a w).takeSlot a w).team a = (s.foldPc a w).team a := rfl
  rw [issued, modTeam, team_setTeam_self, hslot, team_foldPc]
  rfl

theorem team_issued_ne (s : State) (w : Word96) {a b : Nat} (h : b ≠ a) : (s.issued a w).team b = s.team b := by
  have hslot : ((s.foldPc a w).takeSlot a w).team b = (s.foldPc a w).team b := rfl
  rw [issued, modTeam, team_setTeam_ne _ _ h, hslot, foldPc, modTeam, team_setTeam_ne _ _ h]

theorem issued_rest (s : State) (a : Nat) (w : Word96) :
    s.issued a w = { s with teams := (s.issued a w).teams, sched := (s.takeSlot a w).sched } := rfl

/-! ## What the agent does next -/

/-- An empty replay goes on at the next slot (16 R422). -/
theorem nextInstr_replayed (h : s.loadBlock a = (s1, true)) (hr : emptyReplay (s1.team a) = true) :
    s.nextInstr a = ((s1.issued a (blockWord (s1.team a).block (slotOf (s1.team a).pc))).leave a (s1.team a).pc .seq, none) := by
  simp only [nextInstr, h, hr, if_true]
  rfl

theorem nextInstr_decoded {i : Instr} (h : s.loadBlock a = (s1, true)) (hr : emptyReplay (s1.team a) = false)
    (hd : decodeWord (blockWord (s1.team a).block (slotOf (s1.team a).pc)) = .ok i) :
    s.nextInstr a = (s1.issued a (blockWord (s1.team a).block (slotOf (s1.team a).pc)), some i) := by
  simp only [nextInstr, h, hr, hd]
  rfl

theorem nextInstr_undecoded {e : DecErr} {w : Word96} (h : s.loadBlock a = (s1, true)) (hr : emptyReplay (s1.team a) = false)
    (hw : blockWord (s1.team a).block (slotOf (s1.team a).pc) = w) (hd : decodeWord w = .error e) :
    s.nextInstr a = (complete a (s1.team a).pc
      { s := s1.issued a w, k := trapAll (s1.team a).width (s1.team a).cur (decodeCause a w e) }, none) := by
  simp only [nextInstr, h, hr, hw, hd]
  rfl

end
end State

/-! ## The step -/

section
variable {s s0 s1 : State} {a : Nat} {idle : State} {i : Instr}

theorem issueOf_stopped (hr : s.ready a = true) (hc : s.chosen a = true) (h : s.nextInstr a = (s1, none)) :
    issueOf s a idle = .next s1 := by
  simp [issueOf, hr, hc, h]

theorem issueOf_runs (hr : s.ready a = true) (hc : s.chosen a = true) (h : s.nextInstr a = (s1, some i)) :
    issueOf s a idle = exec i s1 := by
  simp [issueOf, hr, hc, h]

theorem issueOf_idle (h : s.ready a = false ∨ s.chosen a = false) : issueOf s a idle = .next idle := by
  have hboth : (s.ready a && s.chosen a) = false := by rwa [Bool.and_eq_false_iff]
  simp [issueOf, hboth]

/-- The agenda lets the current agent issue. -/
theorem step_issues (h : (s.agenda = [] ∧ s0 = s) ∨
      ∃ rest, s.agenda = .issue s0.cur :: rest ∧ s0 = { s with agenda := rest, cur := s0.cur }) :
    ∃ idle, step s = issueOf s0 s0.cur idle := by
  obtain ⟨hag, rfl⟩ | ⟨rest, hag, hs0⟩ := h
  · exact ⟨_, by simp only [step, hag]; rfl⟩
  · refine ⟨s0, ?_⟩
    simp only [step, hag, ← hs0]

end

/-- Settles O58: the block by `loadBlock_issues`, its word by `issued`, and the three ways on by the laws of `nextInstr`. -/
theorem stepRunsDecodedInstruction : Obligations.StepRunsDecodedInstruction := by
  unfold Obligations.StepRunsDecodedInstruction
  refine ⟨fun s s0 s' bs => ?issue, fun s i rest hag hop => ?event, fun s ns rest hag => ?elapse, fun s hag hidle => ?idle⟩
  case issue =>
    intro a t k w h sig0 u hag hready hchosen hblock
    obtain ⟨idle, hstep⟩ := step_issues hag
    obtain ⟨s1, hload, hteam, hother, hrest⟩ := State.loadBlock_issues hblock
    have hmcyc : s1.mcyc a = s'.mcyc a := by rw [hrest]; rfl
    have hsched : (s1.takeSlot a w).sched = (s'.takeSlot a w).sched := by rw [hrest]; rfl
    have hpc : (s1.team a).pc = t.pc := by rw [hteam]; rfl
    have hw : blockWord (s1.team a).block (slotOf (s1.team a).pc) = w := by rw [hteam]; rfl
    have hreplay : State.emptyReplay (s1.team a) = State.emptyReplay t := by rw [hteam]; rfl
    refine ⟨s1.issued a w, ?team, fun b hb => (s1.team_issued_ne w hb).trans (hother b hb), ?rest, fun hr => ?empty,
      fun i hr hd => ?decodes, fun e hr hd => ?stops⟩
    case team =>
      rw [State.team_issued, hteam, hmcyc]
      rfl
    case rest =>
      rw [State.issued_rest, hsched]
      rw [hrest]
    case empty =>
      have hnext := State.nextInstr_replayed hload (hreplay.trans hr)
      rw [hw, hpc] at hnext
      rw [hstep, issueOf_stopped hready hchosen hnext]
    case decodes =>
      rw [hstep, issueOf_runs hready hchosen (State.nextInstr_decoded hload (hreplay.trans hr) (by rwa [hw])), hw]
    case stops =>
      rw [hstep, issueOf_stopped hready hchosen (State.nextInstr_undecoded hload (hreplay.trans hr) hw hd), hteam]
      rfl
  case event =>
    simp only [step, hag, hop]
  case elapse =>
    simp only [step, hag]
  case idle =>
    simp only [step, hag]
    exact issueOf_idle hidle

end Sys2Proof.Machine
end

section
/-! PROOFS. Branches, calls, returns, SPLIT, JOIN and EXIT (07 R180-R196): what each body answers, case by case, and from these the
statements BranchesTakeOnePathAtATime, CallsAndReturnsMoveTheWholePath and SplitJoinAndExit. -/
namespace Sys2Proof.Machine

/-! ## Targets (07 R192) -/

/-- A displacement counts blocks of 64 bytes. -/
theorem ofInt_blocks (d : W32) : BitVec.ofInt 64 (64 * d.toInt) = d.signExtend 64 * 64 := by
  rw [BitVec.ofInt_mul, mul_comm]
  rfl

theorem blockTarget_eq (pc : W64) (d : W32) : blockTarget pc d = blockOf pc + d.signExtend 64 * 64 := by
  rw [blockTarget, ofInt_blocks]

theorem regTarget_eq (t : Team) (o : Operand) (d : W32) : regTarget t o d = t.opndU o + d.signExtend 64 * 64 := by
  rw [regTarget, ofInt_blocks]

theorem misaligned_of_ne {p : W64} (h : p.toNat % 64 ≠ 0) : misaligned p = true := bne_iff_ne.mpr h

theorem misaligned_of_eq {p : W64} (h : p.toNat % 64 = 0) : misaligned p = false := by simp [misaligned, h]

/-! ## How an instruction of control ends -/

section
variable {i : Instr} {r : Rule} {s s' : State} {body : Ctx → Res}

theorem issues_jump {p : W64} (h : Issues i r s) (hb : body (s.ctx r) = { s := s', flow := .jump p }) :
    issues i r s body = .next (s'.leave s.cur s.me.pc (.jump p)) := by
  rw [issues, issue_body h, hb, complete_jump]

theorem issues_gone (h : Issues i r s) (hb : body (s.ctx r) = { s := s', flow := .gone }) : issues i r s body = .next s' := by
  rw [issues, issue_body h, hb, complete_gone]

/-- DIVSTK in every active lane (07 R185). -/
theorem issues_divstk (h : Issues i r s) (hb : body (s.ctx r) = (s.ctx r).divstk s) : issues i r s body =
    .next (State.complete s.cur s.me.pc { s := s, k := trapAll s.me.width s.me.cur .divstk }) := by
  rw [issues, issue_body h, hb]
  rfl

end

/-! ## divbranch (07 R182) -/

/-- The lanes of T may join the pending path of the entry. -/
def DivEntry.Takes (e : DivEntry) (target : W64) : Prop := e.st = .opened ∨ (e.st = .pend ∧ e.pp = target)

theorem DivEntry.takes_iff (e : DivEntry) (target : W64) :
    e.Takes target ↔ ¬ (e.st = .switched ∨ (e.st = .pend ∧ e.pp ≠ target)) := by
  cases h : e.st <;> simp [Takes, h]

section
variable {c : Ctx} {s : State} {target : W64}

theorem divBranch_empty (hT : c.all = 0) : divBranch c s target = Res.plain s := if_pos hT

theorem divBranch_misaligned (hT : c.all ≠ 0) (ha : target.toNat % 64 ≠ 0) : divBranch c s target = c.trap s .alignb := by
  rw [divBranch, if_neg hT, if_pos (misaligned_of_ne ha)]

theorem divBranch_whole (hT : c.all ≠ 0) (ha : target.toNat % 64 = 0) (hF : c.f = 0) :
    divBranch c s target = { s := s, flow := .jump target } := by
  simp only [divBranch, hT, misaligned_of_eq ha, hF, if_true, if_false, Bool.false_eq_true]

/-- A path that parts: the top of the stack decides. -/
theorem divBranch_parts (hT : c.all ≠ 0) (ha : target.toNat % 64 = 0) (hF : c.f ≠ 0) : divBranch c s target =
    match c.t.stack with
    | [] => c.divstk s
    | e :: st =>
      if e.st = .switched ∨ (e.st = .pend ∧ e.pp ≠ target) then c.divstk s
      else Res.plain (s.setTeam c.a
        { c.t with active := c.f, stack := { e with pm := e.pm ||| c.all, pp := target, st := .pend } :: st }) := by
  simp only [divBranch, hT, misaligned_of_eq ha, hF, if_false, Bool.false_eq_true]
  rfl

theorem divBranch_pends (hT : c.all ≠ 0) (ha : target.toNat % 64 = 0) (hF : c.f ≠ 0) {e : DivEntry} {st : List DivEntry}
    (hst : c.t.stack = e :: st) (he : e.Takes target) : divBranch c s target = Res.plain (s.setTeam c.a
      { c.t with active := c.f, stack := { e with pm := e.pm ||| c.all, pp := target, st := .pend } :: st }) := by
  rw [divBranch_parts hT ha hF]
  simp only [hst, if_neg ((e.takes_iff target).mp he)]

theorem divBranch_stuck (hT : c.all ≠ 0) (ha : target.toNat % 64 = 0) (hF : c.f ≠ 0)
    (hst : ∀ e st, c.t.stack = e :: st → ¬ e.Takes target) : divBranch c s target = c.divstk s := by
  rw [divBranch_parts hT ha hF]
  cases hs : c.t.stack with
  | nil => rfl
  | cons e st => exact if_pos (not_not.mp (fun h => hst e st hs ((e.takes_iff target).mpr h)))

end

/-- BRA and BRX are a divbranch to their targets. -/
theorem exec_branch {s : State} {a : BArgs} {i : Instr} {r : Rule} {target : W64}
    (h : (i, r, target) ∈ ([(Instr.bra a, { guard := a.g }, blockOf s.me.pc + a.disp.signExtend 64 * 64),
                            (Instr.brx a, { guard := a.g, srcs := [(a.a, 1)] }, s.me.opndU a.a + a.disp.signExtend 64 * 64)]
                           : List (Instr × Rule × W64))) :
    r.guard = a.g ∧ ∃ body, exec i s = issues i r s body ∧ body (s.ctx r) = divBranch (s.ctx r) s target := by
  simp only [List.mem_cons, List.not_mem_nil, or_false, Prod.mk.injEq] at h
  obtain ⟨rfl, rfl, rfl⟩ | ⟨rfl, rfl, rfl⟩ := h
  · exact ⟨rfl, _, rfl, by rw [← blockTarget_eq]⟩
  · exact ⟨rfl, _, rfl, by rw [← regTarget_eq]⟩

/-- Settles O13: both are a divbranch, whose cases are the lemmas above. -/
theorem branchesTakeOnePathAtATime : Obligations.BranchesTakeOnePathAtATime := by
  unfold Obligations.BranchesTakeOnePathAtATime
  intro s a i r target hi h T F pends
  obtain ⟨hg, body, hexec, hbody⟩ := exec_branch hi
  have hT : T = s.mask r.guard := congrArg s.mask hg.symm
  have hF : F = (s.ctx r).f := congrArg (fun m => s.me.cur &&& ~~~ m) hT
  rw [hexec, hF, hT]
  refine ⟨fun h0 => issues_plain h (hbody.trans (divBranch_empty h0)),
    fun h0 ha => issues_trap h (hbody.trans (divBranch_misaligned h0 ha)),
    fun h0 ha hf => issues_jump h (hbody.trans (divBranch_whole h0 ha hf)),
    fun h0 ha hf e st hst he => issues_plain h (hbody.trans (divBranch_pends h0 ha hf hst he)),
    fun h0 ha hf hst => issues_divstk h (hbody.trans (divBranch_stuck h0 ha hf hst))⟩

/-! ## call and ret (07 R193) -/

section
variable {c : Ctx} {s : State} {target : W64} {link : Operand}

theorem wholePath_empty (hT : c.all = 0) : wholePath c s target link = Res.plain s := if_pos hT

theorem wholePath_parted (hT : c.all ≠ 0) (hF : c.f ≠ 0) : wholePath c s target link = c.divstk s := by
  rw [wholePath, if_neg hT, if_pos hF]

theorem wholePath_misaligned (hT : c.all ≠ 0) (hF : c.f = 0) (ha : target.toNat % 64 ≠ 0) :
    wholePath c s target link = c.trap s .alignb := by
  rw [wholePath, if_neg hT, if_neg (not_not.mpr hF), if_pos (misaligned_of_ne ha)]

theorem wholePath_moves (hm : c.m ≠ 0) (hT : c.all ≠ 0) (hF : c.f = 0) (ha : target.toNat % 64 = 0) :
    wholePath c s target link = { s := s.setTeam c.a (c.t.setdU link (blockOf c.pc + 64)), flow := .jump target } := by
  simp only [wholePath, hT, hm, hF, misaligned_of_eq ha, if_false, Bool.false_eq_true, ne_eq, not_true_eq_false]

end

/-- CALL, CALLX and RET move the whole path; RET names no link. -/
theorem exec_wholePath {s : State} {a : BArgs} {i : Instr} {r : Rule} {target : W64} {link : Operand}
    (h : (i, r, target, link) ∈
      ([(Instr.call a, { guard := a.g, ends := true }, blockOf s.me.pc + a.disp.signExtend 64 * 64, a.d),
        (Instr.callx a, { guard := a.g, ends := true, srcs := [(a.a, 1)] },
          s.me.opndU a.a + a.disp.signExtend 64 * 64, a.d),
        (Instr.ret a, { guard := a.g, srcs := [(a.a, 1)] }, s.me.opndU a.a, Operand.vz)]
       : List (Instr × Rule × W64 × Operand))) :
    r.guard = a.g ∧ ∃ body, exec i s = issues i r s body ∧ body (s.ctx r) = wholePath (s.ctx r) s target link := by
  simp only [List.mem_cons, List.not_mem_nil, or_false, Prod.mk.injEq] at h
  obtain ⟨rfl, rfl, rfl, rfl⟩ | ⟨rfl, rfl, rfl, rfl⟩ | ⟨rfl, rfl, rfl, rfl⟩ := h
  · exact ⟨rfl, _, rfl, by rw [← blockTarget_eq]⟩
  · exact ⟨rfl, _, rfl, by rw [← regTarget_eq]⟩
  · exact ⟨rfl, _, rfl, rfl⟩

/-- Settles O14: all three move the whole path, whose cases are the lemmas above. -/
theorem callsAndReturnsMoveTheWholePath : Obligations.CallsAndReturnsMoveTheWholePath := by
  unfold Obligations.CallsAndReturnsMoveTheWholePath
  intro s a i r target link hi h T F
  obtain ⟨hg, body, hexec, hbody⟩ := exec_wholePath hi
  have hT : T = s.mask r.guard := congrArg s.mask hg.symm
  have hF : F = (s.ctx r).f := congrArg (fun m => s.me.cur &&& ~~~ m) hT
  rw [hexec, hF, hT]
  refine ⟨fun h0 => issues_plain h (hbody.trans (wholePath_empty h0)),
    fun h0 hf => issues_divstk h (hbody.trans (wholePath_parted h0 hf)),
    fun h0 hf ha => issues_trap h (hbody.trans (wholePath_misaligned h0 hf ha)),
    fun h0 hf ha => issues_jump h (hbody.trans (wholePath_moves h0 h0 hf ha))⟩

/-! ## SPLIT (07 R194) -/

section
variable {s : State} {a : BArgs}

theorem exec_split_pushes (h : Issues (.split a) { guard := a.g } s) (hroom : s.me.stack.length < 32) :
    exec (.split a) s = .next (s.after (s.setTeam s.cur { s.me with
      stack := { sm := s.me.cur, j := blockOf s.me.pc + a.disp.signExtend 64 * 64, st := .opened, pm := 0, pp := 0, am := 0 }
        :: s.me.stack })) := by
  rw [← blockTarget_eq]
  exact issues_plain h (if_neg (Nat.not_le.mpr hroom))

/-! ## JOIN (07 R183, R195) -/

/-- The bit that JOIN folds into S. -/
theorem crc24_bit (P : Prop) [Decidable P] (x : BitVec 24) : crc24 (if P then 1 else 0) 1 x = crcBit x (decide P) := by
  by_cases h : P <;> simp [crc24, h]

theorem joinTop_pending {t : Team} {e : DivEntry} (st : List DivEntry) (he : e.st = .pend) : joinTop t e st =
    ({ t with sig := crc24 (if t.cur ||| e.pm = t.expect e then 1 else 0) 1 t.sig, active := e.pm
              stack := { e with am := t.cur, pm := 0, st := .switched } :: st }, e.pp) := by
  rw [joinTop, if_pos he, crc24_bit]

theorem joinTop_last {t : Team} {e : DivEntry} (st : List DivEntry) (he : e.st ≠ .pend) : joinTop t e st =
    ({ t with sig := crc24 (if e.am ||| t.cur = t.expect e then 1 else 0) 1 t.sig, active := t.expect e, stack := st }, e.j) := by
  rw [joinTop, if_neg he, crc24_bit]

theorem exec_join_empty (h : Issues (.join a) { guard := a.g, ends := true } s) (hst : s.me.stack = []) :
    exec (.join a) s = .next (State.complete s.cur s.me.pc { s := s, k := trapAll s.me.width s.me.cur .divstk }) :=
  issues_divstk h (by simp only [hst])

theorem exec_join_top (h : Issues (.join a) { guard := a.g, ends := true } s) {e : DivEntry} {st : List DivEntry}
    (hst : s.me.stack = e :: st) {t : Team} {p : W64} (hj : joinTop s.me e st = (t, p)) :
    exec (.join a) s = .next ((s.setTeam s.cur t).leave s.cur s.me.pc (.jump p)) :=
  issues_jump h (by simp only [hst, hj])

/-! ## EXIT (07 R196) -/

theorem exec_exit_team (h : Issues (.exit a) { guard := a.g } s) (hT : s.mask a.g ≠ 0) (hteam : isThread s.cur = false) :
    exec (.exit a) s = .next (s.after (s.setTeam s.cur
      { s.me.remove (s.mask a.g) with exited := s.me.exited ||| s.mask a.g })) := by
  refine issues_plain h ((once_run hT).trans ?_)
  rw [if_neg (by rw [hteam]; exact Bool.false_ne_true)]
  rfl

theorem exec_exit_thread (h : Issues (.exit a) { guard := a.g } s) (hT : s.mask a.g ≠ 0) (hthread : isThread s.cur = true)
    (hsig : s.me.sigBad s.me.pc = false) :
    exec (.exit a) s = .next (if (s.thread s.cur).eid ≠ 0 then s.enexit s.cur else s.stopThread s.cur) := by
  refine issues_gone h ((once_run hT).trans ?_)
  rw [if_pos hthread]
  simp only [hsig, Bool.false_eq_true, if_false]

end

/-- Settles O15: SPLIT by the room on the stack, JOIN by the top entry, EXIT by the kind of agent. -/
theorem splitJoinAndExit : Obligations.SplitJoinAndExit := by
  unfold Obligations.SplitJoinAndExit
  refine ⟨fun s a h => ⟨exec_split_pushes h, fun hfull => issues_divstk h (if_pos hfull)⟩, fun s a h => ?join, fun s a h => ?exit⟩
  case join =>
    intro expect
    exact ⟨exec_join_empty h, fun e st hst he => exec_join_top h hst (joinTop_pending st he),
      fun e st hst he => exec_join_top h hst (joinTop_last st he)⟩
  case exit =>
    intro T
    refine ⟨fun hT => issues_plain h (once_empty hT), exec_exit_team h, fun hT hthread hsig he => ?_, fun hT hthread hsig he => ?_⟩
    · rw [exec_exit_thread h hT hthread hsig, if_neg (not_not.mpr he)]
    · rw [exec_exit_thread h hT hthread hsig, if_pos he]

end Sys2Proof.Machine
end

section
/-! PROOFS. Comparisons and predicate moves (07 R204-R208): the relations and the predicates that each lane writes, and from these
the statement ComparisonsAndPredicateMoves. -/
namespace Sys2Proof.Machine

/-! ## compare (07 R204) -/

/-- The signed or unsigned relation that CMP names (07 R205). -/
theorem relInt_eq (cmp : Nat) (x y : Int) : relInt cmp x y = match cmp with
    | 0 => decide (x = y)
    | 1 => decide (x ≠ y)
    | 2 => decide (x < y)
    | 3 => decide (x ≤ y)
    | 4 => decide (y < x)
    | _ => decide (y ≤ x) := by
  match cmp with
  | 0 => rfl
  | 1 => exact (decide_not (p := x = y)).symm
  | 2 => rfl
  | 3 => rfl
  | 4 => rfl
  | _ + 5 => rfl

/-- A relation combined with PS by BOP. -/
def combined (t : Team) (fn : BitVec 20) (l : Nat) (b : Bool) : Bool :=
  let q := t.predLane (fnBits fn 12 4) l ^^ (fnBits fn 18 1 == 1)
  if fnBits fn 16 2 = 0 then b else if fnBits fn 16 2 = 1 then b && q else if fnBits fn 16 2 = 2 then b || q else b ^^ q

theorem boolOp_eq (bop : Nat) (b q : Bool) :
    boolOp bop b q = if bop = 1 then b && q else if bop = 2 then b || q else b ^^ q := by
  unfold boolOp
  split
  · rfl
  · rfl
  · next h1 h2 => rw [if_neg h1, if_neg h2]

/-- PD1 takes the relation and PD2 its complement, each combined on its own. -/
theorem cmpWrites_eq (t : Team) (fn : BitVec 20) (l : Nat) (b : Bool) :
    cmpWrites t fn l b = [(fnBits fn 4 4, combined t fn l b), (fnBits fn 8 4, combined t fn l (!b))] := by
  simp only [cmpWrites, boolOp_eq, combined]

/-- An operand that can be read goes on to what is done with it. -/
theorem rdData_bind {β : Type} {t : Team} {l : Nat} {wide : Bool} {o : Operand} {x : W64} (h : t.rdData l wide o = .ok x)
    (f : W64 → Except Cause β) : (t.rdData l wide o >>= f) = f x := by
  rw [h]
  rfl

/-- An instruction that reads A and B, computes each lane's result from them and writes no index register. -/
theorem completes_reads2 {i : Instr} {r : Rule} {s : State} {a : RArgs} {d : Operand} {wide : Bool} {x y : Nat → W64}
    {res : Nat → LaneRes} {g : Ctx → Nat → W64 → W64 → LaneRes}
    (hexec : exec i s = issues i r s (fun c => c.perLane s d wide (fun l => do
      let x ← c.t.rdData l a.ty.wide a.a
      let y ← c.t.rdData l a.ty.wide a.b
      .ok (g c l x y))))
    (hx : s.me.ReadsD (s.mask r.guard) a.ty.wide a.a x) (hy : s.me.ReadsD (s.mask r.guard) a.ty.wide a.b y)
    (h : Ready i r s d wide res) (hres : ∀ l, g (s.ctx r) l (x l) (y l) = res l) (hxw : ∀ l, (res l).xw = none) :
    Completes i r s d wide res := by
  refine completes_perLane h hexec (fun l hl => ?_) (fun l _ w hw => ?_)
  · rw [rdData_bind (hx l hl), rdData_bind (hy l hl), hres]
  · rw [hxw] at hw
    exact nomatch hw

/-- CMP 2 to 5 raise IV on a NaN (07 R206). -/
theorem flagIf_quiet (u v : FV) (cmp : Nat) : flagIf ((u.isNan || v.isNan) && 2 ≤ cmp && cmp ≤ 5) fIV =
    if (u.isNan ∨ v.isNan) ∧ 2 ≤ cmp ∧ cmp ≤ 5 then fIV else 0 := by
  simp only [flagIf, Bool.and_eq_true, Bool.or_eq_true, decide_eq_true_eq, and_assoc]

/-! ## PLOG and PMOV (07 R207, R208) -/

/-- The row of the truth table that two predicates select. -/
theorem plogRow_eq (b c : Bool) : (if b then 2 else 0) + (if c then 1 else 0) = 2 * b.toNat + c.toNat := by
  cases b <;> cases c <;> rfl

/-- The bits of a number as the powers of two that they stand for. -/
theorem sum_bits_eq_ofBits (p : Nat → Bool) (n : Nat) :
    ((List.range n).map (fun j => if p j then 2 ^ j else 0)).sum = Nat.ofBits (fun j : Fin n => p j) := by
  induction n generalizing p with
  | zero => rfl
  | succ n ih =>
    have htail : (List.range n).map ((fun j => if p j then 2 ^ j else 0) ∘ Nat.succ) =
        (List.range n).map (fun j => 2 * if p (j + 1) then 2 ^ j else 0) :=
      List.map_congr_left (fun j _ => by simp [pow_succ'])
    have hlow : (if p 0 then 2 ^ 0 else 0) = (p 0).toNat := by cases p 0 <;> rfl
    rw [List.range_succ_eq_map, List.map_cons, List.map_map, List.sum_cons, htail, List.sum_map_mul_left,
      ih (fun j => p (j + 1)), hlow, add_comm, Nat.ofBits_succ]
    rfl

theorem testBit_sum_bits (p : Nat → Bool) (n k : Nat) :
    ((List.range n).map (fun j => if p j then 2 ^ j else 0)).sum.testBit k = (decide (k < n) && p k) := by
  rw [sum_bits_eq_ofBits, Nat.testBit_ofBits]
  by_cases h : k < n <;> simp [h]

/-- The word that PMOV.pack writes is the one with these bits. -/
theorem packed_eq {t : Team} {l : Nat} {q : W32} (hq : ∀ k, q.getLsbD k = (decide (k < 16) && t.predLane k l)) :
    BitVec.ofNat 64 ((List.range 16).map (fun k => if t.predLane k l then 2 ^ k else 0)).sum = q.setWidth 64 := by
  refine BitVec.eq_of_getLsbD_eq (fun k hk => ?_)
  rw [BitVec.getLsbD_ofNat, BitVec.getLsbD_setWidth, testBit_sum_bits (fun k => t.predLane k l), hq]

/-- The bits of MASK are those of FN from 3 up. -/
theorem maskPreds_eq (fn : BitVec 20) :
    maskPreds fn = (List.range 16).filter (fun k => decide (1 ≤ k) && fn.getLsbD (2 + k)) := by
  refine List.filter_congr (fun k hk => ?_)
  have hk16 : k < 16 := List.mem_range.mp hk
  by_cases h1 : 1 ≤ k
  · have hbit : (fnBits fn 3 15).testBit (k - 1) = fn.getLsbD (2 + k) := by
      rw [fnBits, Nat.testBit_mod_two_pow, Nat.testBit_div_two_pow, BitVec.getLsbD, show k - 1 + 3 = 2 + k by omega]
      simp [show k - 1 < 15 by omega]
    rw [hbit]
  · simp [h1]

theorem completes_pmovUnpack {s : State} {a : RArgs} {x : Nat → W32} (hx : s.me.Reads32 (s.mask a.g) a.a x)
    {res : Nat → LaneRes} (h : Ready (.pmovUnpack a) (ruleR a 1 1 1) s .vz false res)
    (hres : ∀ l, res l = { pw := (maskPreds a.fn).map (fun k => (k, (x l).getLsbD k)) }) :
    Completes (.pmovUnpack a) (ruleR a 1 1 1) s .vz false res := by
  refine completes_perLane h rfl (fun l hl => ?_) (fun l _ w hw => ?_)
  · rw [hx l hl, hres]
    rfl
  · rw [hres] at hw
    exact nomatch hw

/-- Settles O10: each instruction's lane results by the lemmas above. -/
theorem comparisonsAndPredicateMoves : Obligations.ComparisonsAndPredicateMoves := by
  unfold Obligations.ComparisonsAndPredicateMoves
  refine ⟨fun s a x y i rel fl => ?compare, fun s a => ?plog, fun s a q => ?pack, fun s a x i f => ?move⟩
  case compare =>
    intro u v hi r bop comb res hx hy h
    simp only [List.mem_cons, List.not_mem_nil, or_false, Prod.mk.injEq] at hi
    obtain ⟨rfl, rfl, rfl⟩ | ⟨rfl, rfl, rfl⟩ := hi
    · refine completes_reads2 rfl hx hy h (fun l => ?_) (fun _ => rfl)
      rw [cmpWrites_eq, relInt_eq]
      rfl
    · refine completes_reads2 rfl hx hy h (fun l => ?_) (fun _ => rfl)
      rw [cmpWrites_eq, flagIf_quiet]
      rfl
  case plog =>
    intro r b res h
    refine completes_perLane h rfl (fun l _ => ?_) (fun _ _ _ hw => nomatch hw)
    rw [plogRow_eq]
  case pack =>
    intro r res hq h
    refine completes_perLane h rfl (fun l _ => ?_) (fun _ _ _ hw => nomatch hw)
    rw [packed_eq (hq l)]
  case move =>
    intro hi r sel res hx h
    simp only [List.mem_cons, List.not_mem_nil, or_false, Prod.mk.injEq] at hi
    obtain ⟨rfl, rfl⟩ | ⟨rfl, rfl⟩ := hi
    · exact completes_pmovUnpack hx h (fun l => by rw [maskPreds_eq])
    · refine completes_perLane h rfl (fun l _ => ?_) (fun _ _ _ hw => nomatch hw)
      rw [maskPreds_eq]

end Sys2Proof.Machine
end

section
/-! PROOFS. REDUX to a uniform register (09 R258): with lanes enabled but none below the team's width the model writes the
combination of no values. By this the statement VotesAndCrossLaneExchange, which lets the register be in that case, fails. -/
namespace Sys2Proof.Machine

/-! ## T without a lane below the width -/

section
variable {s : State} {t : Team} {m : Mask}

/-- A result of no lane leaves the uniform registers. -/
theorem Team.uregAfter_none (h : t.lanesOf m = []) (d : Operand) (wide : Bool) (v : W64) (q : Nat) :
    t.uregAfter m d wide v q = t.ureg q := by
  cases d <;> simp [uregAfter, h]

/-- The agent that leaves its slot keeps its registers. -/
theorem ureg_after (hcur : t.cur ≠ 0) (hsig : t.sigBad s.me.pc = false) (q : Nat) :
    ((s.after (s.setTeam s.cur t)).team s.cur).ureg q = t.ureg q := by
  have hteam : (s.setTeam s.cur t).team s.cur = t := State.team_setTeam_self ..
  rw [State.after, State.leave_running (by rwa [hteam]) (by rwa [hteam]), State.team_setTeam_self, hteam, Team.move_seq_rest]
  rfl

/-- What `Completes` says of a uniform register then: it is as it was. -/
theorem Completes.ureg_kept {i : Instr} {r : Rule} {d : Operand} {wide : Bool} {res : Nat → LaneRes}
    (h : Completes i r s d wide res) (hnone : s.me.lanesOf (s.mask r.guard) = []) (hcur : s.me.cur ≠ 0)
    (hsig : s.me.sigBad s.me.pc = false) (q : Nat) : ∃ u, exec i s = .next u ∧ (u.team s.cur).ureg q = s.me.ureg q := by
  obtain ⟨t', hexec, hwrote⟩ := h
  have hcur' : t'.cur ≠ 0 := by
    rw [hwrote.rest]
    exact hcur
  have hsig' : t'.sigBad s.me.pc = false := by
    rw [hwrote.rest]
    exact hsig
  exact ⟨_, hexec, (ureg_after hcur' hsig' q).trans ((hwrote.uni q).trans (Team.uregAfter_none hnone ..))⟩

theorem reduxUni_none {c : Ctx} {a : RArgs} (hls : c.ls = []) (hfl : (combineRes a []).fl &&& c.t.ten = 0) : reduxUni c s a [] =
    c.done s ((c.t.raise (combineRes a []).fl (combineRes a []).dfl).putUni a.ty.wide a.d (combineRes a []).val, []) := by
  simp only [reduxUni, hls, List.filterMap_nil, hfl, ne_eq, not_true_eq_false, if_false]

/-- What the model does: REDUX writes the combination of no values. -/
theorem ureg_redux_identity {a : RArgs} (h : Issues (.redux a) (ruleR a (nReg a.ty) 1 1) s) {q : BitVec 6} (hd : a.d = .s q)
    (hT : s.mask a.g ≠ 0) (hnone : s.me.lanesOf (s.mask a.g) = []) (hcur : s.me.cur ≠ 0) (hsig : s.me.sigBad s.me.pc = false)
    (hfl : (combineRes a []).fl &&& s.me.ten = 0) :
    ∃ u, exec (.redux a) s = .next u ∧ (u.team s.cur).ureg q.toNat =
      if a.ty.wide then (combineRes a []).val else ((combineRes a []).val.setWidth 32).setWidth 64 := by
  let c := s.ctx (ruleR a (nReg a.ty) 1 1)
  let t' := (s.me.raise (combineRes a []).fl (combineRes a []).dfl).putUni a.ty.wide a.d (combineRes a []).val
  have hls : c.ls = [] := hnone
  have hcs : c.contributors a.ty.wide [] a.a = [] := by rw [Ctx.contributors, hls, List.filterMap_nil]
  have hall : c.all ≠ 0 := hT
  have hexec : exec (.redux a) s = .next (s.after (s.setTeam s.cur t')) := by
    refine issues_plain h ?_
    rw [hcs, if_pos (hd ▸ rfl), if_neg hall, reduxUni_none hls hfl]
    rfl
  have hcur' : t'.cur ≠ 0 := by
    rw [show t' = _ from Team.putUni_rest ..]
    exact hcur
  have hsig' : t'.sigBad s.me.pc = false := by
    rw [show t' = _ from Team.putUni_rest ..]
    exact hsig
  refine ⟨_, hexec, (ureg_after hcur' hsig' q.toNat).trans ?_⟩
  simp only [t', hd, Team.putUni, Team.setU, Team.ureg, tget_tset_self]

end

/-! ## A team that has only such a lane -/

/-- A team of 32 lanes whose one active lane has the number 32; s4 holds 5. -/
def strayTeam : Team :=
  { Team.blank 32 64 with run := .running, active := oneLane 32, live := oneLane 32, u := [(4, 5)] }

/-- The machine after reset with that team as team 0 of crew 0, which issues. -/
def strayState : State := { State.reset.setTeam 128 strayTeam with cur := 128 }

/-- REDUX.add.i32 s4, v1. -/
def strayRedux : RArgs :=
  { g := { neg := false, p := 0 }, yield := false, d := .s 4, a := .v 1, b := .vz, c := .vz, ty := .i32, rnd := .rne,
    ftzi := false, ftzo := false, sat := false, na := false, aa := false, nb := false, ab := false, nc := false,
    ac := false, fn := 0 }

theorem strayState_me : strayState.me = strayTeam := State.team_setTeam_self State.reset 128 strayTeam

theorem strayState_cur : strayState.me.cur = oneLane 32 := by
  rw [strayState_me]
  show oneLane 32 &&& oneLane 32 &&& ~~~0#1024 = _
  rw [BitVec.and_self, BitVec.not_zero, BitVec.and_allOnes]

theorem strayState_mask : strayState.mask strayRedux.g = oneLane 32 := by
  show strayState.me.cur &&& BitVec.allOnes 1024 = _
  rw [BitVec.and_allOnes, strayState_cur]

theorem oneLane_ne_zero {l : Nat} (h : l < 1024) : oneLane l ≠ 0 := by
  intro h0
  have hbit := oneLane_bit l l h
  rw [h0] at hbit
  simp at hbit

theorem strayState_lanes : strayState.me.lanesOf (strayState.mask strayRedux.g) = [] := by
  rw [strayState_mask, strayState_me]
  refine List.filter_eq_nil_iff.mpr (fun l hl => ?_)
  have hlt : l < 32 := List.mem_range.mp hl
  rw [oneLane_bit 32 l (by omega), decide_eq_true_eq]
  omega

theorem strayState_issues : Issues (.redux strayRedux) (ruleR strayRedux (nReg strayRedux.ty) 1 1) strayState :=
  ⟨by decide, by decide, .inl rfl⟩

/-- Refutes O11: at `strayState` T is not empty and no lane of T lies below the width. REDUX writes 0, the sum of no values, over the
5 in s4, which the statement says is unchanged. -/
theorem not_votesAndCrossLaneExchange : ¬ Obligations.VotesAndCrossLaneExchange := by
  unfold Obligations.VotesAndCrossLaneExchange
  rintro ⟨-, -, hredux, -⟩
  have hlane : ∀ l, l ∉ strayState.me.lanesOf (strayState.mask strayRedux.g) := by
    rw [strayState_lanes]
    exact fun _ => List.not_mem_nil
  have hne := oneLane_ne_zero (l := 32) (by omega)
  have hcur : strayState.me.cur ≠ 0 := strayState_cur ▸ hne
  have hcompletes := hredux strayState strayRedux (fun _ => 0) (.redux strayRedux) (fun _ _ => true) (List.mem_cons_self ..)
    (fun l hl => absurd hl (hlane l))
    { toIssues := strayState_issues, dest := fun l hl => absurd hl (hlane l), nofpx := fun l hl => absurd hl (hlane l) }
  obtain ⟨u, hu, hkept⟩ := hcompletes.ureg_kept strayState_lanes hcur rfl 4
  obtain ⟨w, hw, hwritten⟩ := ureg_redux_identity strayState_issues rfl (strayState_mask ▸ hne) strayState_lanes hcur rfl rfl
  obtain rfl : u = w := Host.Outcome.next.inj (hu.symm.trans hw)
  exact absurd (hkept.symm.trans hwritten) (by decide)

end Sys2Proof.Machine
end

section
/-! PROOFS. The retirement of teams and fixtures (07 R184, 18 R448-R453): what a retired team leaves, the bytes of a record, its
failed-item list and its status word, and from these the statement RetirementAndRecords. -/
namespace Sys2Proof.Machine

/-! ## Little-endian fields (00 R4) -/

@[simp] theorem length_leBytes (n v : Nat) : (leBytes n v).length = n := by
  induction n generalizing v with
  | zero => rfl
  | succ n ih => rw [leBytes, List.length_cons, ih]

/-- The lowest byte and the rest of a field of n + 1 bytes. -/
theorem mod_two_pow_bytes (v n : Nat) : v % 2 ^ (8 * (n + 1)) = v % 256 + 256 * (v / 256 % 2 ^ (8 * n)) := by
  rw [Nat.mul_succ, Nat.add_comm, Nat.pow_add]
  exact Nat.mod_mul

theorem leNat_leBytes (n v : Nat) : leNat (leBytes n v) = v % 2 ^ (8 * n) := by
  induction n generalizing v with
  | zero => exact (Nat.mod_one v).symm
  | succ n ih => rw [leBytes, leNat, ih, mod_two_pow_bytes, BitVec.toNat_ofNat]

theorem leNat_leBytes_of_lt {n v : Nat} (h : v < 2 ^ (8 * n)) : leNat (leBytes n v) = v := by
  rw [leNat_leBytes, Nat.mod_eq_of_lt h]

theorem leNat_cons (b : Byte) (bs : List Byte) : leNat (b :: bs) % 256 = b.toNat ∧ leNat (b :: bs) / 256 = leNat bs := by
  have := b.isLt
  rw [leNat]
  omega

theorem leNat_take (n : Nat) (bs : List Byte) : leNat (bs.take n) = leNat bs % 2 ^ (8 * n) := by
  induction n generalizing bs with
  | zero => exact (Nat.mod_one _).symm
  | succ n ih =>
    cases bs with
    | nil => exact (Nat.zero_mod _).symm
    | cons b bs =>
      obtain ⟨hlow, hhigh⟩ := leNat_cons b bs
      rw [List.take_succ_cons, mod_two_pow_bytes, hlow, hhigh, ← ih, leNat]

theorem leNat_drop (n : Nat) (bs : List Byte) : leNat (bs.drop n) = leNat bs / 2 ^ (8 * n) := by
  induction n generalizing bs with
  | zero => exact (Nat.div_one _).symm
  | succ n ih =>
    cases bs with
    | nil => exact (Nat.zero_div _).symm
    | cons b bs =>
      rw [List.drop_succ_cons, ih, ← (leNat_cons b bs).2, Nat.div_div_eq_div_mul, Nat.mul_succ, Nat.add_comm (8 * n), Nat.pow_add]

/-- The lower bytes of a field. -/
theorem bfld_low (b : List Byte) (o n m : Nat) : bfld b o n = bfld b o (n + m) % 2 ^ (8 * n) := by
  rw [bfld, bfld, leNat_take, leNat_take, Nat.mod_mod_of_dvd _ (Nat.pow_dvd_pow 2 (by omega))]

/-- The upper bytes of a field. -/
theorem bfld_high (b : List Byte) (o n m : Nat) : bfld b (o + n) m = bfld b o (n + m) / 2 ^ (8 * n) := by
  rw [bfld, bfld, leNat_take, leNat_take, ← List.drop_drop, leNat_drop, Nat.mul_add, Nat.pow_add, Nat.mod_mul_right_div_self]

/-- Fields of the given numbers of bytes and values, one after another. -/
def fieldBytes (fs : List (Nat × Nat)) : List Byte := fs.flatMap (fun x => leBytes x.1 x.2)

/-- A field of a fieldBytes list stands behind the bytes of those before it. -/
theorem bfld_fieldBytes {fs : List (Nat × Nat)} {i n v : Nat} (h : fs[i]? = some (n, v)) :
    bfld (fieldBytes fs) ((fs.take i).map (fun x => x.1)).sum n = v % 2 ^ (8 * n) := by
  induction fs generalizing i with
  | nil => simp at h
  | cons x fs ih =>
    have hcons : fieldBytes (x :: fs) = leBytes x.1 x.2 ++ fieldBytes fs := rfl
    rw [hcons]
    cases i with
    | zero =>
      obtain rfl : x = (n, v) := by simpa using h
      rw [← leNat_leBytes, List.take_zero, List.map_nil, List.sum_nil, bfld, List.drop_zero]
      exact congrArg leNat (List.take_left' (length_leBytes n v))
    | succ i =>
      rw [← ih (by simpa using h), List.take_succ_cons, List.map_cons, List.sum_cons, bfld, bfld]
      have hskip : ∀ k, (leBytes x.1 x.2 ++ fieldBytes fs).drop (x.1 + k) = (fieldBytes fs).drop k := fun k => by
        rw [← List.drop_drop, List.drop_left' (length_leBytes ..)]
      rw [hskip]

/-! ## The record (18 R449, R450) -/

/-- CAUSE, LANE, TEAM and CREW of a first-trap record (18 R453). -/
def FirstTrap.word (x : FirstTrap) : Nat := x.cause.toNat + x.lane * 2 ^ 8 + x.team * 2 ^ 18 + x.crew * 2 ^ 32

namespace Fixture
variable (f : Fixture) (code tend : Nat)

/-- PC, and the word of the other fields, of the first trap. -/
def firstPc : Nat := (f.first.map (fun x => x.pc.toNat)).getD 0
def firstWord : Nat := (f.first.map FirstTrap.word).getD 0

/-- The fields of the record, from the place of the status word on. -/
def fields : List (Nat × Nat) :=
  let done := f.ncrews - f.fails.length
  [(4, 0), (4, done % 2 ^ 32), (4, f.fails.length % 2 ^ 32), (4, min f.deadLanes.length 0xFFFFFFFF), (8, f.sum.word.toNat),
   (8, f.tacc), (8, f.tstart), (8, tend), (4, f.osa.toNat), (4, done / 2 ^ 32 % 2 + f.fails.length / 2 ^ 32 % 2 * 2),
   (8, if f.written.isEmpty then 0 else f.desc.compl + 0x80), (8, f.firstPc), (8, f.firstWord), (48, 0)]

theorem record_eq : List.replicate 4 0 ++ f.record tend = fieldBytes (f.fields tend) := by
  simp only [fieldBytes, fields, List.flatMap_cons, List.flatMap_nil, List.append_nil, record, List.append_assoc]
  rfl

/-- How many bytes each field takes. -/
def fieldWidths : List Nat := [4, 4, 4, 4, 8, 8, 8, 8, 4, 4, 8, 8, 8, 48]

theorem widths_eq : (f.fields tend).map (fun x => x.1) = fieldWidths := rfl

/-- What stands at the offset of a field of the record. -/
theorem bfld_record {i n v o m : Nat} (h : (f.fields tend)[i]? = some (n, v)) (ho : (fieldWidths.take i).sum = o)
    (hm : 2 ^ (8 * n) = m) : bfld (List.replicate 4 0 ++ f.record tend) o n = v % m := by
  rw [record_eq, ← ho, ← f.widths_eq tend, ← List.map_take, bfld_fieldBytes h, hm]

/-- A value that fits its field stands there itself. -/
theorem bfld_record_fits {i n v o m : Nat} (h : (f.fields tend)[i]? = some (n, v)) (ho : (fieldWidths.take i).sum = o)
    (hm : 2 ^ (8 * n) = m) (hv : v < m) : bfld (List.replicate 4 0 ++ f.record tend) o n = v := by
  rw [f.bfld_record tend h ho hm, Nat.mod_eq_of_lt hv]

theorem length_record : (f.record tend).length = 0x7C := by
  simp only [record, List.length_append, length_leBytes]

theorem firstWord_eq {x : FirstTrap} (h : f.first = some x) : f.firstWord = x.word := by
  rw [firstWord, h, Option.map_some, Option.getD_some]

/-- The first-trap record, a field of which is part of a word of 8 bytes (18 R453). -/
theorem bfld_firstTrap {x : FirstTrap} (h : f.first = some x) (hl : x.lane < 1024) (ht : x.team < 16) :
    let b := List.replicate 4 0 ++ f.record tend
    bfld b 0x48 1 = x.cause.toNat ∧ bfld b 0x48 4 / 2 ^ 8 = x.lane + 2 ^ 10 * x.team ∧ bfld b 0x4C 4 = x.crew % 2 ^ 32 := by
  intro b
  have hword : bfld b 0x48 8 = f.firstWord % 2 ^ 64 := f.bfld_record tend (i := 12) rfl rfl rfl
  rw [f.firstWord_eq h, FirstTrap.word] at hword
  have hc := x.cause.isLt
  refine ⟨?_, ?_, ?_⟩
  · rw [bfld_low b 0x48 1 7, hword]
    omega
  · rw [bfld_low b 0x48 4 4, hword]
    omega
  · rw [bfld_high b 0x48 4 4, hword]
    omega

/-- The status word: CODE, LTRUNC and DONE. -/
theorem leNat_statusWord {code : Nat} (h : code < 3) : leNat (f.statusWord code) =
    code + (if f.written.length < f.entries.length then 2 ^ 8 else 0) + 2 ^ 31 := by
  have hbit : bit (decide (f.written.length < f.entries.length)) * 2 ^ 8 =
      if f.written.length < f.entries.length then 2 ^ 8 else 0 := by
    by_cases hl : f.written.length < f.entries.length <;> simp [hl, bit]
  rw [statusWord, hbit]
  refine leNat_leBytes_of_lt ?_
  split <;> omega

/-! ## The failed-item list (18 R452) -/

theorem mem_entries {x : List Byte} (h : x ∈ f.entries) : x.length = 8 := by
  obtain h | h := List.mem_append.mp h <;> obtain ⟨y, -, rfl⟩ := List.mem_map.mp h <;> exact length_leBytes ..

end Fixture

theorem leNat_listEntry {kind : Nat} (hk : kind ≤ 1) (crew team lane reason detail : Nat) :
    leNat (listEntry crew team lane kind reason detail) =
      crew % 2 ^ 32 + team % 16 * 2 ^ 32 + lane % 1024 * 2 ^ 36 + kind * 2 ^ 47 + reason % 256 * 2 ^ 48 + detail % 256 * 2 ^ 56 :=
  leNat_leBytes_of_lt (by omega)

namespace Fixture
variable (f : Fixture)

/-- The failed crews come first. -/
theorem entries_fail {i : Nat} {x : Nat × CrewFail} (h : f.fails[i]? = some x) : f.entries[i]?.map leNat =
    some (x.1 % 2 ^ 32 + 2 ^ 48 * x.2.reason.toNat + 2 ^ 56 * x.2.detail.toNat) := by
  have hi : i < f.fails.length := (List.getElem?_eq_some_iff.mp h).1
  have hr := x.2.reason.isLt
  have hd := x.2.detail.isLt
  rw [entries, List.getElem?_append_left (by rwa [List.length_map]), List.getElem?_map, h, Option.map_some, Option.map_some,
    leNat_listEntry (by omega)]
  congr 1
  omega

/-- The dead lanes follow. -/
theorem entries_dead {i : Nat} {x : Nat × Cause} (h : f.deadLanes[i]? = some x) :
    f.entries[f.fails.length + i]?.map leNat = some (x.1 / 16384 % 2 ^ 32 + 2 ^ 32 * (x.1 / 1024 % 16) +
      2 ^ 36 * (x.1 % 1024) + 2 ^ 47 + 2 ^ 48 * x.2.code.toNat) := by
  have hc := x.2.code.isLt
  rw [entries, List.getElem?_append_right (by rw [List.length_map]; omega), List.length_map, Nat.add_sub_cancel_left,
    List.getElem?_map, h, Option.map_some, Option.map_some, leNat_listEntry (by omega)]
  congr 1
  omega

end Fixture

/-! ## The writes of a record (18 R448-R450) -/

namespace Fixture
variable (f : Fixture) (code tend : Nat)

theorem writes_last : (f.writes code tend).getLast? = some (f.desc.compl, f.statusWord code) := by
  rw [writes, List.getLast?_append]
  rfl

theorem mem_writes_record : (f.desc.compl + 4, f.record tend) ∈ f.writes code tend :=
  List.mem_append_right _ (List.mem_cons_self ..)

theorem writes_head (h : f.written ≠ []) :
    (f.writes code tend).head? = some (f.desc.compl + 0x80, f.written.flatten) := by
  have hsome : ¬ f.written.isEmpty = true := by rwa [List.isEmpty_iff]
  rw [writes, if_neg hsome]
  rfl

/-- The fields of R449 at their offsets. -/
theorem record_fields : let at4 := fun o n => bfld (List.replicate 4 0 ++ f.record tend) o n
    let done := f.ncrews - f.fails.length
    at4 0x04 4 = done % 2 ^ 32 ∧ at4 0x08 4 = f.fails.length % 2 ^ 32 ∧ at4 0x0C 4 = min f.deadLanes.length 0xFFFFFFFF ∧
    at4 0x10 8 = f.sum.word.toNat ∧ at4 0x18 8 = f.tacc % 2 ^ 64 ∧ at4 0x20 8 = f.tstart % 2 ^ 64 ∧ at4 0x28 8 = tend % 2 ^ 64 ∧
    at4 0x30 4 = f.osa.toNat ∧ at4 0x34 4 = done / 2 ^ 32 % 2 + 2 * (f.fails.length / 2 ^ 32 % 2) ∧
    at4 0x38 8 = (if f.written = [] then 0 else f.desc.compl + 0x80) % 2 ^ 64 ∧ at4 0x50 48 = 0 ∧
    at4 0x40 8 = f.firstPc % 2 ^ 64 ∧ at4 0x48 8 = f.firstWord % 2 ^ 64 := by
  intro at4 done
  have hmod : ∀ x : Nat, x % 2 ^ 32 < 2 ^ 32 := fun x => Nat.mod_lt _ (by omega)
  have hlist : (if f.written.isEmpty then 0 else f.desc.compl + 0x80) = if f.written = [] then 0 else f.desc.compl + 0x80 := by
    simp only [List.isEmpty_iff]
  have hhigh : done / 2 ^ 32 % 2 + f.fails.length / 2 ^ 32 % 2 * 2 = done / 2 ^ 32 % 2 + 2 * (f.fails.length / 2 ^ 32 % 2) := by
    omega
  rw [← hlist, ← hhigh]
  refine ⟨?_, ?_, ?_, ?_, ?_, ?_, ?_, ?_, ?_, ?_, ?_, ?_, ?_⟩
  · exact f.bfld_record_fits tend (i := 1) (m := 2 ^ 32) rfl rfl rfl (hmod _)
  · exact f.bfld_record_fits tend (i := 2) (m := 2 ^ 32) rfl rfl rfl (hmod _)
  · exact f.bfld_record_fits tend (i := 3) (m := 2 ^ 32) rfl rfl rfl (by omega)
  · exact f.bfld_record_fits tend (i := 4) (m := 2 ^ 64) rfl rfl rfl f.sum.word.isLt
  · exact f.bfld_record tend (i := 5) rfl rfl rfl
  · exact f.bfld_record tend (i := 6) rfl rfl rfl
  · exact f.bfld_record tend (i := 7) rfl rfl rfl
  · exact f.bfld_record_fits tend (i := 8) (m := 2 ^ 32) rfl rfl rfl f.osa.isLt
  · exact f.bfld_record_fits tend (i := 9) (m := 2 ^ 32) rfl rfl rfl (by omega)
  · exact f.bfld_record tend (i := 10) rfl rfl rfl
  · exact (f.bfld_record tend (i := 13) rfl rfl rfl).trans (Nat.zero_mod _)
  · exact f.bfld_record tend (i := 11) rfl rfl rfl
  · exact f.bfld_record tend (i := 12) rfl rfl rfl

/-- CODE of a fixture that ran to its end (18 R450). -/
theorem code_cases : (f.fails = [] → f.code = 0) ∧ (f.fails ≠ [] → f.fails.length < f.ncrews → f.code = 1) ∧
    (f.fails ≠ [] → f.ncrews ≤ f.fails.length → f.code = 2) := by
  have hnil : f.fails.length = 0 ↔ f.fails = [] := List.length_eq_zero_iff
  refine ⟨fun h => ?_, fun h hlt => ?_, fun h hle => ?_⟩
  · rw [code, if_pos (hnil.mpr h)]
  · rw [code, if_neg (mt hnil.mp h), if_pos hlt]
  · rw [code, if_neg (mt hnil.mp h), if_neg (Nat.not_lt.mpr hle)]

end Fixture

/-! ## Teams and crews retire (07 R184, 18 R451) -/

namespace State

theorem foldl_modCrew_rest (f : Crew → Crew) (xs : List (Nat × Crew)) (s : State) :
    let t := xs.foldl (fun (s : State) (x : Nat × Crew) => s.modCrew x.1 f) s
    t.teams = s.teams ∧ t.mem = s.mem := by
  induction xs generalizing s with
  | nil => exact ⟨rfl, rfl⟩
  | cons x xs ih => exact ih (s.modCrew x.1 f)

theorem crewOver_frame (s : State) (n : Nat) : (s.crewOver n).teams = s.teams ∧ (s.crewOver n).mem = s.mem := by
  unfold crewOver
  dsimp only
  split
  · exact ⟨rfl, rfl⟩
  · split
    · exact foldl_modCrew_rest vacate _ _
    · exact ⟨rfl, rfl⟩

/-- The end of a crew changes no team and no memory. -/
theorem retireCrew_frame (s : State) (n : Nat) : (s.retireCrew n).teams = s.teams ∧ (s.retireCrew n).mem = s.mem := by
  unfold retireCrew
  dsimp only
  split
  · exact ⟨rfl, rfl⟩
  · rw [lookPart_teams, lookPart_mem]
    exact s.crewOver_frame n

/-- A retired team keeps its live lanes alone. -/
theorem retireTeam_facts (s : State) (g : Nat) : let t := s.retireTeam g
    (t.team g).run = .retired ∧ (t.team g).live = (s.team g).live ∧ t.mem = s.mem ∧ ∀ h, h ≠ g → t.team h = s.team h := by
  intro t
  let c := s.crew (crewNo g)
  let s0 := s.modFixture c.fx (fun f => { f with
    sum := f.sum.merge (s.team g).sum, deadLanes := addDead f.deadLanes c.index (teamNo g) (s.team g) })
  let u : Team := { Team.blank (s.team g).width (s.team g).regs with live := (s.team g).live, active := 0, run := .retired }
  obtain ⟨hteams, hmem⟩ := (s0.setTeam g u).retireCrew_frame (crewNo g)
  have hteam : ∀ h, t.team h = (s0.setTeam g u).team h := fun h => by rw [team, team, ← hteams]; rfl
  rw [hteam, team_setTeam_self]
  refine ⟨rfl, rfl, hmem, fun h hne => ?_⟩
  rw [hteam, team_setTeam_ne _ _ hne]
  rfl

theorem exec_teamRetire_stays {s : State} {g : Nat}
    (h : ¬ (isThread g = false ∧ (s.team g).run = .ended ∧ (s.team g).uwc = [] ∧ s.ownPending g s.eng.nextOp = false)) :
    exec (.teamRetire g) s = .next s := by
  refine congrArg Host.Outcome.next (if_pos ?_)
  by_contra hc
  simp only [Bool.or_eq_true, bne_iff_ne, not_or, not_not, Bool.not_eq_true, and_assoc] at hc
  exact h hc

theorem exec_teamRetire_retires {s : State} {g : Nat}
    (h : isThread g = false ∧ (s.team g).run = .ended ∧ (s.team g).uwc = [] ∧ s.ownPending g s.eng.nextOp = false) :
    exec (.teamRetire g) s = .next (s.retireTeam g) := by
  obtain ⟨hthread, hrun, huwc, hown⟩ := h
  refine congrArg Host.Outcome.next (if_neg ?_)
  simp [hthread, hrun, huwc, hown]

/-! ## Fixtures retire (18 R448) -/

/-- A look at the fixtures retires none and brings none back. -/
theorem retired_lookFixture (s : State) (n m : Nat) : ((s.lookFixture n).fixture m).retired = (s.fixture m).retired := by
  obtain h | ⟨met, elig, h⟩ := s.lookFixture_eq n
  · rw [h]
  · rw [h, fixture_setFixture]
    split
    · next hm => rw [hm]
    · rfl

theorem retired_lookPart (s : State) (p m : Nat) : ((s.lookPart p).fixture m).retired = (s.fixture m).retired := by
  unfold lookPart
  generalize (s.fixtures.filter (fun x => x.2.part == p)).map (fun x => x.1) = ns
  induction ns generalizing s with
  | nil => rfl
  | cons n ns ih => rw [List.foldl_cons, ih, retired_lookFixture]

theorem exec_fixtureRetire_stays {s : State} {fx : Nat} (h : s.fixtureOver fx = false ∨ s.board.power ≠ .on) :
    exec (.fixtureRetire fx) s = .next s := by
  refine congrArg Host.Outcome.next (if_pos ?_)
  obtain h | h := h <;> simp [h]

end State

/-- Settles O50: teams by the frame of their crew's end, fixtures by the writes of the record, and the record field by field. -/
theorem retirementAndRecords : Obligations.RetirementAndRecords := by
  unfold Obligations.RetirementAndRecords
  refine ⟨fun s g => ?team, fun s fx => ?fixture, fun f code tend => ?record, fun f i => ?list, Fixture.code_cases,
    fun s s' r w => ?write⟩
  case team =>
    intro t may
    exact ⟨State.exec_teamRetire_stays, fun h => ⟨_, State.exec_teamRetire_retires h, s.retireTeam_facts g⟩⟩
  case fixture =>
    intro f
    refine ⟨State.exec_fixtureRetire_stays, fun hover hpow => ?_⟩
    intro s1 s2
    refine ⟨congrArg Host.Outcome.next (if_neg ?_), ?_⟩
    · simp [hover, hpow]
    · rw [State.retired_lookPart, State.fixture_setFixture_self]
  case record =>
    obtain ⟨hdone, hfail, hdead, hsum, htacc, htstart, htend, hosa, hhigh, hlist, hzero, hpc, hword⟩ := f.record_fields tend
    refine ⟨f.writes_last code tend, length_leBytes .., f.length_record tend, fun x => f.mem_entries, f.mem_writes_record code tend,
      fun _ => f.writes_head code tend, rfl, f.leNat_statusWord, hdone, hfail, hdead, hsum, htacc, htstart, htend, hosa, hhigh,
      hlist, hzero, fun hnone => ⟨hpc.trans ?_, hword.trans ?_⟩, fun x hx => ⟨hpc.trans ?_, f.bfld_firstTrap tend hx⟩⟩
    · rw [Fixture.firstPc, hnone]; rfl
    · rw [Fixture.firstWord, hnone]; rfl
    · rw [Fixture.firstPc, hx]
      exact Nat.mod_eq_of_lt x.pc.isLt
  case list =>
    refine ⟨?_, fun x => f.entries_fail, fun x => f.entries_dead⟩
    rw [Fixture.entries, List.length_append, List.length_map, List.length_map]
  case write =>
    refine ⟨fun h => ?_, fun h => ?_⟩ <;> rw [recordWrite, h]

end Sys2Proof.Machine
end

section
/-! PROOFS. What runs the lanes of an instruction and sets sr.srseed (08 R222): one form for the integer and the floating
instructions, with the outcome when no lane traps and when lanes trap on their own (08 R230, 09 R236, R240). -/
namespace Sys2Proof.Machine

/-! ## A table written twice at one key -/

section
variable {β : Type}

theorem tdel_eq_self {t : List (Nat × β)} {k : Nat} (h : ∀ x ∈ t, k ≠ x.1) : tdel t k = t := by
  induction t with
  | nil => rfl
  | cons x t ih =>
    obtain ⟨hx, ht⟩ := List.forall_mem_cons.mp h
    rw [tdel, if_neg hx, ih ht]

theorem tdel_ne {t : List (Nat × β)} {k : Nat} : ∀ x ∈ tdel t k, k ≠ x.1 := by
  induction t with
  | nil => exact fun x hx => nomatch hx
  | cons y t ih =>
    rw [tdel]
    split
    · exact ih
    · next hne => exact List.forall_mem_cons.mpr ⟨hne, ih⟩

theorem tdel_tins {t : List (Nat × β)} {k : Nat} (v : β) (h : ∀ x ∈ t, k ≠ x.1) : tdel (tins t k v) k = t := by
  induction t with
  | nil => simp [tins, tdel]
  | cons x t ih =>
    rw [tins]
    split
    · rw [tdel, if_pos rfl, tdel_eq_self h]
    · obtain ⟨hx, ht⟩ := List.forall_mem_cons.mp h
      rw [tdel, if_neg hx, ih ht]

theorem tdel_tset [DecidableEq β] (d : β) (t : List (Nat × β)) (k : Nat) (v : β) : tdel (tset d t k v) k = tdel t k := by
  rw [tset]
  split
  · exact tdel_eq_self tdel_ne
  · exact tdel_tins v tdel_ne

theorem tset_tset [DecidableEq β] (d : β) (t : List (Nat × β)) (k : Nat) (v w : β) : tset d (tset d t k v) k w = tset d t k w := by
  rw [tset, tdel_tset, ← tset]

end

theorem State.setTeam_setTeam (s : State) (g : Nat) (t u : Team) : (s.setTeam g t).setTeam g u = s.setTeam g u := by
  rw [setTeam, setTeam, setTeam, tset_tset]

/-! ## The lanes leave the generator -/

theorem runLane_srseed (t0 : Team) (d : Operand) (wide : Bool) (f : Nat → Except Cause LaneRes) (acc : Team × Traps) (l : Nat) :
    (runLane t0 d wide f acc l).1.srseed = acc.1.srseed := by
  rw [runLane]
  split
  · rfl
  · split
    · rfl
    · dsimp only
      split
      · rfl
      · rw [Team.putSide_rest, Team.putLane_rest]
        rfl

theorem runUniform_srseed (t : Team) (d : Operand) (wide : Bool) (f : Nat → Except Cause LaneRes) (ls : List Nat) :
    (runUniform t d wide f ls).1.srseed = t.srseed := by
  have hside : ∀ (o : LaneRes) (js : List Nat) (u : Team), (js.foldl (fun t l => t.putSide l o) u).srseed = u.srseed := by
    intro o js
    induction js with
    | nil => exact fun _ => rfl
    | cons j js ih =>
      intro u
      rw [List.foldl_cons, ih, Team.putSide_rest]
  cases ls with
  | nil => rfl
  | cons l ls =>
    rw [runUniform]
    split
    · rfl
    · dsimp only
      split
      · rfl
      · rw [hside, Team.putUni_rest]
        rfl

theorem runLanes_srseed (t : Team) (m : Mask) (d : Operand) (wide : Bool) (f : Nat → Except Cause LaneRes) :
    (runLanes t m d wide f).1.srseed = t.srseed := by
  have hfold : ∀ (ls : List Nat) (acc : Team × Traps), (ls.foldl (runLane t d wide f) acc).1.srseed = acc.1.srseed := by
    intro ls
    induction ls with
    | nil => exact fun _ => rfl
    | cons l ls ih =>
      intro acc
      rw [List.foldl_cons, ih, runLane_srseed]
  rw [runLanes]
  split
  · exact runUniform_srseed ..
  · exact hfold ..

/-! ## The lanes and the generator -/

/-- What is left when the lanes of T have run `f` and sr.srseed then holds `seed`. -/
def State.ranLanes (s : State) (g : Guard) (d : Operand) (wide : Bool) (f : Nat → Except Cause LaneRes) (seed : W32) : Res :=
  let x := runLanes s.me (s.mask g) d wide f
  { s := s.setTeam s.cur { x.1 with srseed := seed }, k := x.2 }

/-- `i` runs `f` in the lanes of T, sets sr.srseed to `seed` and completes. -/
def RunsLanes (i : Instr) (s : State) (g : Guard) (d : Operand) (wide : Bool) (f : Nat → Except Cause LaneRes) (seed : W32) :
    Prop :=
  exec i s = .next (State.complete s.cur s.me.pc (s.ranLanes g d wide f seed))

section
variable {i : Instr} {r : Rule} {s : State} {a : RArgs} {d : Operand} {wide : Bool}

theorem issues_runsLanes {body : Ctx → Res} {f : Nat → Except Cause LaneRes} {seed : W32} (h : Issues i r s)
    (hexec : exec i s = issues i r s body) (hbody : body (s.ctx r) = s.ranLanes r.guard d wide f seed) :
    RunsLanes i s r.guard d wide f seed := by
  rw [RunsLanes, hexec, issues, issue_body h, hbody]

theorem perLane_eq_ranLanes (f : Nat → Except Cause LaneRes) :
    (s.ctx r).perLane s d wide f = s.ranLanes r.guard d wide f s.me.srseed := by
  rw [← runLanes_srseed s.me (s.mask r.guard) d wide f]
  rfl

theorem perLane_runsLanes {f : Ctx → Nat → Except Cause LaneRes} (h : Issues i r s)
    (hexec : exec i s = issues i r s (fun c => c.perLane s d wide (f c))) :
    RunsLanes i s r.guard d wide (f (s.ctx r)) s.me.srseed :=
  issues_runsLanes h hexec (perLane_eq_ranLanes _)

/-- Each lane has its controls and its random word, and in mode SR the generator advances once per pass (08 R222). -/
theorem flt_eq_ranLanes (f : Nat → FEnv → Except Cause LaneRes) :
    (s.ctx r).flt s a wide f = s.ranLanes r.guard a.d wide (fun l => f l (s.me.envOf a l)) (s.me.seedAfter a) := by
  by_cases hsr : (controls s.me a.rnd a.ftzi a.ftzo a.sat).md = .sr
  · rw [Ctx.flt, if_pos hsr, Team.seedAfter, if_pos hsr]
    simp only [Ctx.perLane, Ctx.done, State.modTeam, State.setTeam_setTeam, State.team_setTeam_self]
    rfl
  · rw [Ctx.flt, if_neg hsr, Team.seedAfter, if_neg hsr]
    exact perLane_eq_ranLanes _

theorem flt_runsLanes {f : Ctx → Nat → FEnv → Except Cause LaneRes} (h : Issues i r s)
    (hexec : exec i s = issues i r s (fun c => c.flt s a wide (f c))) :
    RunsLanes i s r.guard a.d wide (fun l => f (s.ctx r) l (s.me.envOf a l)) (s.me.seedAfter a) :=
  issues_runsLanes h hexec (flt_eq_ranLanes _)

/-! ## No lane traps -/

theorem ranLanes_plain {g : Guard} {f : Nat → Except Cause LaneRes} (hnone : (runLanes s.me (s.mask g) d wide f).2 = [])
    (seed : W32) : s.ranLanes g d wide f seed =
      Res.plain (s.setTeam s.cur { (runLanes s.me (s.mask g) d wide f).1 with srseed := seed }) := by
  rw [State.ranLanes, hnone, Res.plain]

/-- A floating instruction in which no lane traps completes. -/
theorem completesF_flt {res : Nat → LaneRes} {f : Ctx → Nat → FEnv → Except Cause LaneRes} (h : Ready i r s a.d wide res)
    (hexec : exec i s = issues i r s (fun c => c.flt s a wide (f c)))
    (hf : ∀ l ∈ s.me.lanesOf (s.mask r.guard), f (s.ctx r) l (s.me.envOf a l) = .ok (res l))
    (hxw : ∀ l, (res l).xw = none) : CompletesF i r s a a.d wide res := by
  obtain ⟨hnone, hwrote⟩ := runLanes_wrote h.dest hf h.nofpx (fun l _ w hw => nomatch (hxw l).symm.trans hw)
  refine ⟨_, (flt_runsLanes h.toIssues hexec).trans ?_, hwrote⟩
  rw [ranLanes_plain hnone, complete_plain]

end

end Sys2Proof.Machine
end

section
/-! PROOFS. Floating arithmetic (10 R262-R274): the processed sources, the function that each instruction rounds, the rounding of
a value that the format has (08 R217), and from these the statement FloatArithmetic. -/
namespace Sys2Proof.Machine

/-! ## Sources (10 R262) -/

section
variable {a : RArgs} {t : Team} {l x y : Nat}

theorem srcA1_of_opP (v : FEnv) (h : t.opP l a.ty a.a = .ok x) : srcA1 a t v l = .ok (fsrc a.ty v.fi a.na a.aa x) :=
  congrArg (Except.map _) h

theorem srcB1_of_opP (v : FEnv) (h : t.opP l a.ty a.b = .ok x) : srcB1 a t v l = .ok (fsrc a.ty v.fi a.nb a.ab x) :=
  congrArg (Except.map _) h

theorem srcC1_of_opP (v : FEnv) (h : t.opP l a.ty a.c = .ok x) : srcC1 a t v l = .ok (fsrc a.ty v.fi a.nc a.ac x) :=
  congrArg (Except.map _) h

/-! ## Two sources -/

/-- The result `f` of two processed sources, with the flags of both. -/
def float2Res (f : FEnv → FOut → FOut → FOut) (v : FEnv) (p q : FOut) : LaneRes :=
  { val := BitVec.ofNat 64 (f v p q).pat, fl := (f v p q).fl ||| p.fl ||| q.fl }

/-- One lane of an instruction of two sources. -/
def float2Lane (a : RArgs) (f : FEnv → FOut → FOut → FOut) (t : Team) (l : Nat) (v : FEnv) : Except Cause LaneRes := do
  let p ← srcA1 a t v l
  let q ← srcB1 a t v l
  .ok (float2Res f v p q)

theorem float2Lane_of_opP (f : FEnv → FOut → FOut → FOut) (v : FEnv) (hx : t.opP l a.ty a.a = .ok x)
    (hy : t.opP l a.ty a.b = .ok y) :
    float2Lane a f t l v = .ok (float2Res f v (fsrc a.ty v.fi a.na a.aa x) (fsrc a.ty v.fi a.nb a.ab y)) := by
  rw [float2Lane, srcA1_of_opP v hx, srcB1_of_opP v hy]
  rfl

end

/-- The instructions of two sources, each with its result of the processed sources (10 R267-R269). -/
def float2Instrs (a : RArgs) : List (Instr × (FEnv → FOut → FOut → FOut)) :=
  let v : FOut → FV := fun o => Ty.val a.ty o.pat
  [(.fadd a, fun e p q => rnd a.ty e (sumX e.md [some (v p), some (v q)])),
   (.dadd a, fun e p q => rnd a.ty e (sumX e.md [some (v p), some (v q)])),
   (.fsub a, fun e p q => rnd a.ty e (sumX e.md [some (v p), some (v q).neg])),
   (.fmul a, fun e p q => rnd a.ty e (mulX (v p) (v q))),
   (.dmul a, fun e p q => rnd a.ty e (mulX (v p) (v q))),
   (.fdiv a, fun e p q => { pat := (rnd a.ty e (divX (v p) (v q)).1).pat,
                            fl := (rnd a.ty e (divX (v p) (v q)).1).fl ||| flagIf (divX (v p) (v q)).2 fDZ }),
   (.fmin a, fun _ p q => minmaxF a.ty false p.pat q.pat),
   (.fmax a, fun _ p q => minmaxF a.ty true p.pat q.pat)]

theorem exec_float2_of {a : RArgs} {i : Instr} {s : State} {f : FEnv → FOut → FOut → FOut} {g : FEnv → FOut → FOut → LaneRes}
    (hexec : exec i s = issues i (ruleR a (nReg a.ty) (nReg a.ty) 1) s (fun c => c.flt s a a.ty.wide (fun l v => do
      let p ← srcA1 a c.t v l
      let q ← srcB1 a c.t v l
      .ok (g v p q))))
    (hg : ∀ v p q, g v p q = float2Res f v p q) :
    exec i s = issues i (ruleR a (nReg a.ty) (nReg a.ty) 1) s (fun c => c.flt s a a.ty.wide (float2Lane a f c.t)) := by
  obtain rfl : g = float2Res f := by
    funext v p q
    exact hg v p q
  exact hexec

theorem fltRes_or (o : FOut) (x y : W32) : fltRes o (x ||| y) = { val := BitVec.ofNat 64 o.pat, fl := o.fl ||| x ||| y } := by
  rw [fltRes, BitVec.or_assoc]

theorem fltRes_or_or (o : FOut) (x y z : W32) :
    fltRes o (x ||| y ||| z) = { val := BitVec.ofNat 64 o.pat, fl := o.fl ||| x ||| y ||| z } := by
  rw [fltRes_or, BitVec.or_assoc o.fl x y]

/-- The last flag may stand with those of the rounding. -/
theorem fltRes_or_last (o : FOut) (x y z : W32) :
    fltRes o (x ||| y ||| z) = { val := BitVec.ofNat 64 o.pat, fl := o.fl ||| z ||| x ||| y } := by
  rw [BitVec.or_comm (x ||| y) z, ← BitVec.or_assoc, fltRes_or_or]

theorem exec_float2 {a : RArgs} {i : Instr} {f : FEnv → FOut → FOut → FOut} (hi : (i, f) ∈ float2Instrs a) (s : State) :
    exec i s = issues i (ruleR a (nReg a.ty) (nReg a.ty) 1) s (fun c => c.flt s a a.ty.wide (float2Lane a f c.t)) := by
  simp only [float2Instrs, List.mem_cons, List.not_mem_nil, or_false, Prod.mk.injEq] at hi
  obtain ⟨rfl, rfl⟩ | ⟨rfl, rfl⟩ | ⟨rfl, rfl⟩ | ⟨rfl, rfl⟩ | ⟨rfl, rfl⟩ | ⟨rfl, rfl⟩ | ⟨rfl, rfl⟩ | ⟨rfl, rfl⟩ := hi
  case inr.inr.inr.inr.inr.inl =>
    exact exec_float2_of rfl (fun v p q => fltRes_or_last _ _ _ _)
  all_goals exact exec_float2_of rfl (fun v p q => fltRes_or _ _ _)

/-! ## A value of the format rounds to its pattern (08 R217) -/

theorem log2_mul_two_pow {n : Nat} (h : n ≠ 0) (k : Nat) : (n * 2 ^ k).log2 = n.log2 + k := by
  rw [Nat.log2_eq_iff (by positivity), add_right_comm, pow_add, pow_add]
  exact ⟨Nat.mul_le_mul_right _ (Nat.log2_self_le h), Nat.mul_lt_mul_of_pos_right Nat.lt_log2_self (by positivity)⟩

/-- The exponent of n · 2^e. -/
theorem floorLog2_ofFin {n : Nat} (h : n ≠ 0) (e : Int) : floorLog2 (n * 2 ^ e.toNat) (2 ^ (-e).toNat) = n.log2 + e := by
  have hl : ((n * 2 ^ e.toNat).log2 : Int) - ((2 ^ (-e).toNat).log2 : Nat) = n.log2 + e := by
    rw [log2_mul_two_pow h, Nat.log2_two_pow]
    omega
  have hle : 2 ^ (-e).toNat * 2 ^ ((n.log2 : Int) + e).toNat ≤ n * 2 ^ e.toNat * 2 ^ (-((n.log2 : Int) + e)).toNat := by
    rw [← pow_add, mul_assoc, ← pow_add,
      show (-e).toNat + ((n.log2 : Int) + e).toNat = n.log2 + (e.toNat + (-((n.log2 : Int) + e)).toNat) by omega, pow_add]
    exact Nat.mul_le_mul_right _ (Nat.log2_self_le h)
  rw [floorLog2, hl]
  exact if_pos hle

/-- Nothing is left to round, so no mode rounds up. -/
theorem choose_exact (md : Rnd) (w : W32) (neg : Bool) {den : Nat} (h : 0 < den) (odd : Bool) :
    choose md w neg 0 den false odd = false := by
  cases md <;> simp [choose, h.ne, h.ne']

/-- n · 2^e where 2^e is the spacing. -/
theorem rndFin_exact {t : Ty} {v : FEnv} {n k : Nat} {e : Int} (neg : Bool) (hn : n ≠ 0)
    (hk : max ((n.log2 : Int) + e) (Ty.emin t) = Ty.emin t + k) (he : Ty.emin t + k - Ty.mb t = e)
    (hmax : k * 2 ^ Ty.mb t + n ≤ Ty.maxMag t) (hfo : v.fo = false) :
    rndFin t v neg (n * 2 ^ e.toNat) (2 ^ (-e).toNat) false = { pat := Ty.sgn t neg (k * 2 ^ Ty.mb t + n), fl := 0 } := by
  have hpos : 0 < 2 ^ (-e).toNat * 2 ^ e.toNat := by positivity
  have hnum : n * 2 ^ e.toNat * 2 ^ (-e).toNat = n * (2 ^ (-e).toNat * 2 ^ e.toNat) := by ring
  have hmag : (Ty.emin t + (k : Int) - Ty.emin t).toNat = k := by omega
  rw [rndFin, floorLog2_ofFin hn, hk, he, hnum, Nat.mul_mod_left, Nat.mul_div_cancel _ hpos, choose_exact _ _ _ hpos, hmag]
  simp [hfo, Nat.not_lt.mpr hmax, flagIf]

/-- A pattern is its sign and its magnitude. -/
theorem sgn_negP_magP {t : Ty} {p : Nat} (hbits : t.bits ≠ 0) (hp : p < 2 ^ t.bits) :
    Ty.sgn t (Ty.negP t p) (Ty.magP t p) = p := by
  have hW : 2 ^ t.bits = Ty.signW t * 2 := by rw [Ty.signW, ← pow_succ, Nat.sub_add_cancel (Nat.pos_of_ne_zero hbits)]
  have hq : p / Ty.signW t < 2 := Nat.div_lt_of_lt_mul (hW ▸ hp)
  have hdiv := Nat.div_add_mod p (Ty.signW t)
  obtain h | h := Nat.le_one_iff_eq_zero_or_eq_one.mp (Nat.lt_succ_iff.mp hq)
  all_goals
    rw [h] at hdiv
    simp only [Ty.sgn, Ty.negP, Ty.magP, h]
    simpa using hdiv

/-- The formats that keep infinity and NaN apart above every finite magnitude (08 R211, R212). -/
def ieeeTys : List Ty := [.f16, .bf16, .f32, .f64]

theorem isNaN_of_ieee {t : Ty} (ht : t ∈ ieeeTys) (p : Nat) : Ty.isNaN t p = decide (Ty.infMag t < Ty.magP t p) := by
  unfold ieeeTys at ht
  fin_cases ht <;> rfl

theorem isInf_of_ieee {t : Ty} (ht : t ∈ ieeeTys) (p : Nat) : Ty.isInf t p = decide (Ty.magP t p = Ty.infMag t) := by
  unfold ieeeTys at ht
  fin_cases ht <;> rfl

theorem maxMag_of_ieee {t : Ty} (ht : t ∈ ieeeTys) : Ty.maxMag t = Ty.infMag t - 1 := by
  unfold ieeeTys at ht
  fin_cases ht <;> rfl

/-- A finite pattern below the normal ones, and a normal one (08 R212). -/
theorem val_of_ieee {t : Ty} (ht : t ∈ ieeeTys) {p : Nat} (hfin : Ty.magP t p < Ty.infMag t) :
    Ty.val t p = if Ty.magP t p / 2 ^ Ty.mb t = 0 then .fin (Ty.negP t p) (Ty.magP t p % 2 ^ Ty.mb t) (Ty.emin t - Ty.mb t)
      else .fin (Ty.negP t p) (2 ^ Ty.mb t + Ty.magP t p % 2 ^ Ty.mb t)
        (Ty.emin t - Ty.mb t + ((Ty.magP t p / 2 ^ Ty.mb t : Nat) - 1)) := by
  rw [Ty.val, isNaN_of_ieee ht, isInf_of_ieee ht, decide_eq_false (by omega), decide_eq_false (by omega)]
  rfl

theorem rnd_ofFin {t : Ty} (ht : t ≠ .e8) (v : FEnv) (neg : Bool) {n : Nat} (hn : n ≠ 0) (e : Int) :
    rnd t v (.ofFin neg n e) = rndFin t v neg (n * 2 ^ e.toNat) (2 ^ (-e).toNat) false := by
  have hnum : n * 2 ^ e.toNat ≠ 0 := by positivity
  rw [XR.ofFin, rnd, if_neg ht, if_neg hnum]

/-- Rounding keeps a value of the format, whatever the mode and the random word. -/
theorem rnd_val {t : Ty} (ht : t ∈ ieeeTys) {v : FEnv} (hfo : v.fo = false) {p : Nat} (hp : p < 2 ^ t.bits)
    (hfin : Ty.magP t p < Ty.infMag t) : rnd t v (Ty.val t p).toX = { pat := p, fl := 0 } := by
  have he8 : t ≠ .e8 := fun h => absurd (h ▸ ht) (by decide)
  have hbits : t.bits ≠ 0 := by
    intro h
    unfold ieeeTys at ht
    fin_cases ht <;> exact absurd h (by decide)
  have hmax : Ty.magP t p ≤ Ty.maxMag t := by rw [maxMag_of_ieee ht]; omega
  have hparts := Nat.div_add_mod (Ty.magP t p) (2 ^ Ty.mb t)
  rw [val_of_ieee ht hfin]
  split
  · next hsub =>
    have hmod : Ty.magP t p % 2 ^ Ty.mb t = Ty.magP t p := by rw [hsub] at hparts; omega
    rw [hmod, FV.toX]
    by_cases hzero : Ty.magP t p = 0
    · have hsgn := sgn_negP_magP hbits hp
      rw [hzero] at hsgn ⊢
      rw [XR.ofFin, rnd, if_neg he8, if_pos (Nat.zero_mul _), hsgn]
    · have hlog : (Ty.magP t p).log2 < Ty.mb t := by
        rw [Nat.log2_lt hzero, ← hmod]
        exact Nat.mod_lt _ (by positivity)
      rw [rnd_ofFin he8 _ _ hzero, rndFin_exact (k := 0) _ hzero (by omega) (by omega) (by omega) hfo, Nat.zero_mul,
        Nat.zero_add, sgn_negP_magP hbits hp]
  · next hnorm =>
    have hfr : Ty.magP t p % 2 ^ Ty.mb t < 2 ^ Ty.mb t := Nat.mod_lt _ (by positivity)
    obtain ⟨k, hk⟩ := Nat.exists_eq_succ_of_ne_zero hnorm
    have hn : 2 ^ Ty.mb t + Ty.magP t p % 2 ^ Ty.mb t ≠ 0 := by omega
    have hlog : (2 ^ Ty.mb t + Ty.magP t p % 2 ^ Ty.mb t).log2 = Ty.mb t := by
      rw [Nat.log2_eq_iff hn, pow_succ]
      omega
    have hmag : k * 2 ^ Ty.mb t + (2 ^ Ty.mb t + Ty.magP t p % 2 ^ Ty.mb t) = Ty.magP t p := by
      rw [hk, Nat.mul_succ, mul_comm] at hparts
      omega
    rw [FV.toX, rnd_ofFin he8 _ _ hn, rndFin_exact (k := k) _ hn (by omega) (by omega) (hmag.le.trans hmax) hfo, hmag,
      sgn_negP_magP hbits hp]

/-- Settles O7: the instructions of two sources by `exec_float2`, the others by their processed sources, and a value of the format
by `rnd_val`. -/
theorem floatArithmetic : Obligations.FloatArithmetic := by
  unfold Obligations.FloatArithmetic
  refine ⟨fun s a x y i f => ?two, fun s a x y z i hi => ?fused, fun s a x b i f => ?one, fun t v p ht hfo => rnd_val ht hfo⟩
  case two =>
    intro v hi r p q o res hx hy h
    exact completesF_flt h (exec_float2 hi s) (fun l hl => float2Lane_of_opP f _ (hx l hl) (hy l hl)) (fun _ => rfl)
  case fused =>
    intro v r p q w o res hx hy hz h
    have hexec : exec i s = flt3 i a s := by
      simp only [List.mem_cons, List.not_mem_nil, or_false] at hi
      obtain rfl | rfl := hi <;> rfl
    refine completesF_flt h hexec (fun l hl => ?_) (fun _ => rfl)
    rw [srcA1_of_opP _ (hx l hl), srcB1_of_opP _ (hy l hl), srcC1_of_opP _ (hz l hl)]
    exact congrArg Except.ok (fltRes_or_or ..)
  case one =>
    intro hi r p o res hx hb h
    simp only [List.mem_cons, List.not_mem_nil, or_false, Prod.mk.injEq] at hi
    obtain ⟨rfl, rfl⟩ | ⟨rfl, rfl⟩ | ⟨rfl, rfl⟩ := hi
    all_goals refine completesF_flt h rfl (fun l hl => ?_) (fun _ => rfl)
    · rw [srcA1_of_opP _ (hx l hl)]
      rfl
    · rw [srcA1_of_opP _ (hx l hl)]
      rfl
    · rw [srcA1_of_opP _ (hx l hl), hb l hl]
      rfl

end Sys2Proof.Machine
end

section
/-! PROOFS. Lanes that trap on their own (08 R230, 09 R236, R240, 16 R400): what each lane of a per-lane destination leaves, the flags
of the lanes that write nothing else, and from these the statement LanesTrapOnTheirOwn. -/
namespace Sys2Proof.Machine

/-! ## Flags of lanes that write nothing else -/

namespace Team

theorem raise_zero (t : Team) : t.raise 0 0 = t := by
  simp [raise]

theorem raise_raise (t : Team) (f d f' d' : W32) : (t.raise f d).raise f' d' = t.raise (f ||| f') (d ||| d') := by
  simp only [raise, BitVec.or_assoc]

theorem setPredLane_raise (t : Team) (f d : W32) (k l : Nat) (b : Bool) :
    (t.raise f d).setPredLane k l b = (t.setPredLane k l b).raise f d := by
  unfold setPredLane setPred
  split <;> rfl

theorem putSide_raise (t : Team) (f d : W32) (l : Nat) (o : LaneRes) :
    (t.raise f d).putSide l o = (t.putSide l o).raise f d := by
  have hfold : ∀ (ws : List (Nat × Bool)) (t : Team),
      ws.foldl (fun t (kb : Nat × Bool) => t.setPredLane kb.1 l kb.2) (t.raise f d) =
        (ws.foldl (fun t (kb : Nat × Bool) => t.setPredLane kb.1 l kb.2) t).raise f d := by
    intro ws
    induction ws with
    | nil => exact fun _ => rfl
    | cons w ws ih =>
      intro t
      rw [List.foldl_cons, List.foldl_cons, setPredLane_raise, ih]
  unfold putSide
  dsimp only
  rw [hfold]
  cases o.xw <;> rfl

theorem putLane_raise (t : Team) (f d : W32) (l : Nat) (wide : Bool) (q : Option Nat) (v : W64) :
    (t.raise f d).putLane l wide q v = (t.putLane l wide q v).raise f d := by
  cases q with
  | none => rfl
  | some q => cases wide <;> rfl

end Team

/-- The flags of other lanes may be raised before or after a lane's writes. -/
theorem laneStep_raise (t0 : Team) (d : Operand) (wide : Bool) (res : Nat → LaneRes) (t : Team) (f e : W32) (l : Nat) :
    laneStep t0 d wide res (t.raise f e) l = (laneStep t0 d wide res t l).raise f e := by
  have hcomm : (t.raise f e).raise (res l).fl (res l).dfl = (t.raise (res l).fl (res l).dfl).raise f e := by
    rw [Team.raise_raise, Team.raise_raise, BitVec.or_comm f, BitVec.or_comm e]
  rw [laneStep, laneStep, hcomm, Team.putLane_raise, Team.putSide_raise]

theorem orAll_cons_eq (l : Nat) (ls : List Nat) (f : Nat → W32) : orAll (l :: ls) f = f l ||| orAll ls f := by
  simpa using or_orAll_cons l ls f 0

/-! ## Lanes as a mask -/

theorem getLsbD_maskOf (ls : List Nat) {j : Nat} (h : j < 1024) : (maskOf ls).getLsbD j = decide (j ∈ ls) := by
  have hfold : ∀ (ls : List Nat) (m : Mask),
      (ls.foldl (fun m l => m ||| oneLane l) m).getLsbD j = (m.getLsbD j || decide (j ∈ ls)) := by
    intro ls
    induction ls with
    | nil => intro m; simp
    | cons l ls ih =>
      intro m
      rw [List.foldl_cons, ih, BitVec.getLsbD_or, oneLane_bit l j h, Bool.or_assoc]
      simp
  rw [maskOf, hfold]
  simp

/-- Some of the lanes of T, put into a mask, are read back in their order. -/
theorem lanes_maskOf_filter (w : Nat) (m : Mask) (p : Nat → Bool) :
    lanes w (maskOf ((lanes w m).filter p)) = (lanes w m).filter p := by
  have hsub : (lanes w m).filter p = (List.range w).filter (fun j => p j && m.getLsbD j) := by
    rw [lanes, List.filter_filter]
  refine Eq.trans (List.filter_congr (fun j hj => ?_)) hsub.symm
  by_cases h : j < 1024
  · rw [getLsbD_maskOf _ h, hsub]
    simp [List.mem_range.mp hj]
  · rw [BitVec.getLsbD_of_ge _ _ (by omega), BitVec.getLsbD_of_ge _ _ (by omega), Bool.and_false]

/-! ## Registers that a lane does not have (09 R240) -/

namespace Team

theorem regOf_error {t : Team} {l n al : Nat} {o : Operand} (h : (t.regOf l n al o).isOk = false) :
    t.regOf l n al o = .error .regidx := by
  cases o with
  | v r =>
    rw [regOf] at h ⊢
    split
    · next hr => rw [if_pos hr] at h; cases h
    · next hr =>
      rw [if_neg hr] at h
      split
      · next hn => rw [if_pos hn] at h; cases h
      · rfl
  | idx k c =>
    rw [regOf] at h ⊢
    split
    · rfl
    · next hr => rw [if_neg hr] at h; cases h
  | s r => cases h
  | imm c => cases h

theorem map_error {α β : Type} {x : Except Cause α} (g : α → β) (hx : x.isOk = false → x = .error .regidx)
    (h : (x.map g).isOk = false) : x.map g = .error .regidx := by
  cases x with
  | error c => rw [hx rfl]; rfl
  | ok v => cases h

theorem rdData_error {t : Team} {l : Nat} {wide : Bool} {o : Operand} (h : (t.rdData l wide o).isOk = false) :
    t.rdData l wide o = .error .regidx := by
  cases wide with
  | false =>
    refine map_error _ (fun h32 => ?_) h
    cases o with
    | v r => exact map_error _ regOf_error h32
    | idx k c => exact map_error _ regOf_error h32
    | s r => cases h32
    | imm c => cases h32
  | true =>
    cases o with
    | v r => exact map_error _ regOf_error h
    | idx k c => exact map_error _ regOf_error h
    | s r => cases h
    | imm c => cases h

/-- Lane `l` names a register that the team does not have, as source A or B. -/
def lacksSource (t : Team) (a : RArgs) (l : Nat) : Bool := !(t.rdData l a.ty.wide a.a).isOk || !(t.rdData l a.ty.wide a.b).isOk

theorem badLane_eq (t : Team) (a : RArgs) (l : Nat) :
    t.badLane a l = (!(t.regOf l (nReg a.ty) (nReg a.ty) a.d).isOk || t.lacksSource a l) :=
  Bool.or_assoc ..

end Team

/-! ## Per-lane destinations -/

section
variable {t : Team} {a : RArgs} {f : Nat → Except Cause LaneRes} {res : Nat → LaneRes}

/-- A lane without one of its sources takes REGIDX, any other has its result. -/
def Team.Computes (t : Team) (a : RArgs) (f : Nat → Except Cause LaneRes) (res : Nat → LaneRes) : Prop :=
  ∀ l, f l = if t.lacksSource a l then .error .regidx else .ok (res l)

/-- Lane `l` raises a flag whose trap is enabled: it is one of `Team.fpxLanes`. -/
def Team.takesFpx (t : Team) (a : RArgs) (res : Nat → LaneRes) (l : Nat) : Bool :=
  !t.badLane a l && decide ((res l).fl &&& t.ten ≠ 0)

/-- Lane `l` completes: it is one of `Team.goodLanes`. -/
def Team.laneOk (t : Team) (a : RArgs) (res : Nat → LaneRes) (l : Nat) : Bool :=
  !t.badLane a l && decide ((res l).fl &&& t.ten = 0)

/-- The trap of lane `l` in `Team.laneTraps`. -/
def Team.laneTrap (t : Team) (a : RArgs) (res : Nat → LaneRes) (l : Nat) : Option (Nat × Cause) :=
  if t.badLane a l then some (l, .regidx) else if (res l).fl &&& t.ten ≠ 0 then some (l, .fpx) else none

/-- What one lane leaves: nothing with REGIDX, its flags with FPX, and its writes when it completes. -/
theorem runLane_cases (hf : t.Computes a f res) (acc : Team × Traps) (l : Nat) : runLane t a.d a.ty.wide f acc l =
    if t.badLane a l then (acc.1, acc.2 ++ [(l, .regidx)])
    else if (res l).fl &&& t.ten ≠ 0 then (acc.1.raise (res l).fl (res l).dfl, acc.2 ++ [(l, .fpx)])
    else (laneStep t a.d a.ty.wide res acc.1 l, acc.2) := by
  have hn : nReg a.ty = if a.ty.wide then 2 else 1 := rfl
  rw [Team.badLane_eq, hn]
  cases hreg : t.regOf l (if a.ty.wide then 2 else 1) (if a.ty.wide then 2 else 1) a.d with
  | error c =>
    obtain rfl : c = .regidx := Except.error.inj (hreg.symm.trans (Team.regOf_error (hreg ▸ rfl)))
    rw [runLane, hreg]
    rfl
  | ok q =>
    cases hsrc : t.lacksSource a l with
    | true =>
      rw [runLane, hreg, hf, hsrc]
      rfl
    | false =>
      have hfl : f l = .ok (res l) := by rw [hf, hsrc]; rfl
      by_cases hfpx : (res l).fl &&& t.ten = 0
      · rw [runLane_ok hreg hfl hfpx, laneStep, Team.destReg, hreg]
        simp [hfpx, Except.toOption, Except.isOk, Except.toBool]
      · rw [runLane, hreg, hfl]
        simp only [ne_eq, hfpx, not_false_eq_true]
        rfl

/-- What the lanes leave: the flags of those that take FPX, the writes of those that complete, and the traps in lane order. -/
theorem foldl_runLane (hf : t.Computes a f res) (ls : List Nat) (acc : Team × Traps) :
    ls.foldl (runLane t a.d a.ty.wide f) acc =
      ((ls.filter (t.laneOk a res)).foldl (laneStep t a.d a.ty.wide res)
        (acc.1.raise (orAll (ls.filter (t.takesFpx a res)) (fun l => (res l).fl))
          (orAll (ls.filter (t.takesFpx a res)) (fun l => (res l).dfl))),
       acc.2 ++ ls.filterMap (t.laneTrap a res)) := by
  induction ls generalizing acc with
  | nil => exact Prod.ext (Team.raise_zero acc.1).symm (List.append_nil _).symm
  | cons l ls ih =>
    rw [List.foldl_cons, ih, runLane_cases hf]
    by_cases hbad : t.badLane a l = true
    · simp [hbad, Team.laneOk, Team.takesFpx, Team.laneTrap]
    · by_cases hfpx : (res l).fl &&& t.ten = 0#32
      · simp [hbad, hfpx, Team.laneOk, Team.takesFpx, Team.laneTrap, laneStep_raise]
      · simp [hbad, hfpx, Team.laneOk, Team.takesFpx, Team.laneTrap, orAll_cons_eq, Team.raise_raise]

end

section
variable {i : Instr} {s : State} {a : RArgs} {f : Nat → Except Cause LaneRes} {res : Nat → LaneRes} {seed : W32}

theorem of_mem_goodLanes {t : Team} {m : Mask} {l : Nat} (h : l ∈ t.goodLanes m a res) :
    (t.regOf l (nReg a.ty) (nReg a.ty) a.d).isOk = true ∧ t.lacksSource a l = false ∧ (res l).fl &&& t.ten = 0 := by
  have hok := (List.mem_filter.mp h).2
  rw [Bool.and_eq_true, Bool.not_eq_true', decide_eq_true_eq, Team.badLane_eq, Bool.or_eq_false_iff, Bool.not_eq_false'] at hok
  exact and_assoc.mp hok

/-- The lanes that complete write as `runLanes` does with them alone, after the flags of those that take FPX. -/
theorem RunsLanes.splits (h : RunsLanes i s a.g a.d a.ty.wide f seed) (hf : s.me.Computes a f res) (hxw : ∀ l, (res l).xw = none)
    (hd : a.d.isUni = false) : Splits i s a res seed := by
  let t := s.me
  let m := s.mask a.g
  let fpx := t.fpxLanes m a res
  let good := t.goodLanes m a res
  let u := t.raise (orAll fpx (fun l => (res l).fl)) (orAll fpx (fun l => (res l).dfl))
  have hgood : u.lanesOf (maskOf good) = good := lanes_maskOf_filter ..
  have hdest : ∀ l ∈ good, (t.regOf l (nReg a.ty) (nReg a.ty) a.d).isOk = true := fun l hl => (of_mem_goodLanes hl).1
  have hres : ∀ l ∈ good, f l = .ok (res l) := fun l hl => (hf l).trans (if_neg (by rw [(of_mem_goodLanes hl).2.1]; decide))
  have hnofpx : ∀ l ∈ good, (res l).fl &&& t.ten = 0 := fun l hl => (of_mem_goodLanes hl).2.2
  have hmem : ∀ l ∈ u.lanesOf (maskOf good), l ∈ good := fun l hl => hgood ▸ hl
  obtain ⟨-, hwrote⟩ := runLanes_wrote (t := u) (d := a.d) (w := a.ty.wide) (fun l hl => hdest l (hmem l hl))
    (fun l hl => hres l (hmem l hl)) (fun l hl => hnofpx l (hmem l hl)) (fun l _ w hw => nomatch (hxw l).symm.trans hw)
  have hrun : runLanes u (maskOf good) a.d a.ty.wide f = (good.foldl (laneStep t a.d a.ty.wide res) u, []) := by
    rw [runLanes, hd, if_neg Bool.false_ne_true, show lanes u.width (maskOf good) = good from hgood]
    exact runLane_fold good hdest hres hnofpx _
  have hall : runLanes t m a.d a.ty.wide f = (good.foldl (laneStep t a.d a.ty.wide res) u, t.laneTraps m a res) := by
    rw [runLanes, hd, if_neg Bool.false_ne_true, foldl_runLane hf]
    rfl
  rw [hrun] at hwrote
  refine ⟨_, h.trans ?_, hwrote⟩
  rw [State.ranLanes, hall]

theorem RunsLanes.splitsUni (h : RunsLanes i s a.g a.d a.ty.wide f seed) (hf : s.me.Computes a f res) (hd : a.d.isUni = true)
    (hne : s.me.lanesOf (s.mask a.g) ≠ []) (hgood : s.me.badLane a (s.me.giver (s.mask a.g) a.d 0) = false)
    (hfpx : (res (s.me.giver (s.mask a.g) a.d 0)).fl &&& s.me.ten ≠ 0) :
    SplitsUni i s a (res (s.me.giver (s.mask a.g) a.d 0)) seed := by
  obtain ⟨l, ls, hls⟩ := List.exists_cons_of_ne_nil hne
  have hgiver : s.me.giver (s.mask a.g) a.d 0 = l := by rw [Team.giver, if_pos hd, hls]; rfl
  rw [hgiver] at hgood hfpx ⊢
  rw [Team.badLane_eq, Bool.or_eq_false_iff] at hgood
  have hfl : f l = .ok (res l) := by rw [hf, hgood.2]; rfl
  have hrun : runLanes s.me (s.mask a.g) a.d a.ty.wide f =
      (s.me.raise (res l).fl (res l).dfl, trapAll s.me.width (s.mask a.g) .fpx) := by
    rw [runLanes, if_pos hd, trapAll, show lanes s.me.width (s.mask a.g) = l :: ls from hls, runUniform, hfl]
    exact if_pos hfpx
  rw [SplitsUni, h, State.ranLanes, hrun]

end

/-! ## Lanes that read A and B -/

theorem isOk_map {α β : Type} (g : α → β) (x : Except Cause α) : (x.map g).isOk = x.isOk := by
  cases x <;> rfl

theorem eq_ok_of_isOk {α : Type} {x : Except Cause α} (h : x.isOk = true) (d : α) : x = .ok (x.toOption.getD d) := by
  cases x with
  | error c => cases h
  | ok v => rfl

section
variable {t : Team} {a : RArgs} {l : Nat}

theorem lacksSource_eq_false : t.lacksSource a l = false ↔
    (t.rdData l a.ty.wide a.a).isOk = true ∧ (t.rdData l a.ty.wide a.b).isOk = true := by
  rw [Team.lacksSource, Bool.or_eq_false_iff, Bool.not_eq_false', Bool.not_eq_false']

/-- Whatever is made of A and B, the first that the lane does not have stops it. -/
theorem bind_of_lacksSource {α β : Type} (h : t.lacksSource a l = true) (g : W64 → α) (g' : W64 → β)
    (k : α → β → Except Cause LaneRes) :
    (do let x ← (t.rdData l a.ty.wide a.a).map g
        let y ← (t.rdData l a.ty.wide a.b).map g'
        k x y) = .error .regidx := by
  cases hA : t.rdData l a.ty.wide a.a with
  | error c =>
    obtain rfl : c = .regidx := Except.error.inj (hA.symm.trans (Team.rdData_error (hA ▸ rfl)))
    rfl
  | ok v =>
    have hB : (t.rdData l a.ty.wide a.b).isOk = false := by
      simpa [Team.lacksSource, hA, Except.isOk, Except.toBool] using h
    rw [Team.rdData_error hB]
    rfl

theorem opI_getD {o : Operand} (h : (t.rdData l a.ty.wide o).isOk = true) :
    t.opI l a.ty o = .ok ((t.opI l a.ty o).toOption.getD 0) :=
  eq_ok_of_isOk ((isOk_map ..).trans h) 0

theorem opP_getD {o : Operand} (h : (t.rdData l a.ty.wide o).isOk = true) :
    t.opP l a.ty o = .ok ((t.opP l a.ty o).toOption.getD 0) :=
  eq_ok_of_isOk ((isOk_map ..).trans h) 0

end

/-! ## Integer instructions (09 R243-R245) -/

/-- The integer instructions with each lane's result of A and B. -/
def int2Instrs (s : State) (a : RArgs) : List (Instr × ((Nat → Int) → (Nat → Int) → Nat → LaneRes)) :=
  let n := a.ty.bits
  let ci : Nat → Int := fun l => if fnBits a.fn 8 1 = 1 ∧ s.me.predLane (fnBits a.fn 4 4) l = true then 1 else 0
  [(.iadd a, fun x y l => { intRes a.ty a.sat (x l + y l + ci l) with
      pw := [(fnBits a.fn 0 4, decide (2 ^ n ≤ x l % 2 ^ n + y l % 2 ^ n + ci l))] }),
   (.isub a, fun x y l => { intRes a.ty a.sat (x l - y l - ci l) with
      pw := [(fnBits a.fn 0 4, decide (x l % 2 ^ n < y l % 2 ^ n + ci l))] }),
   (.imul a, fun x y l => intRes a.ty a.sat (x l * y l)),
   (.imulh a, fun x y l => intRes a.ty false (x l * y l / 2 ^ n)),
   (.imin a, fun x y l => intRes a.ty false (if x l ≤ y l then x l else y l)),
   (.imax a, fun x y l => intRes a.ty false (if x l ≤ y l then y l else x l))]

/-- One lane of an integer instruction of two sources. -/
def int2Lane (a : RArgs) (f : (Nat → Int) → (Nat → Int) → Nat → LaneRes) (t : Team) (l : Nat) : Except Cause LaneRes := do
  let x ← t.opI l a.ty a.a
  let y ← t.opI l a.ty a.b
  .ok (f (fun _ => x) (fun _ => y) l)

/-- A lane's result takes its own A and B alone and writes no index register. -/
theorem int2Instrs_lane {s : State} {a : RArgs} {i : Instr} {f : (Nat → Int) → (Nat → Int) → Nat → LaneRes}
    (hi : (i, f) ∈ int2Instrs s a) (x y : Nat → Int) (l : Nat) :
    f x y l = f (fun _ => x l) (fun _ => y l) l ∧ (f x y l).xw = none := by
  simp only [int2Instrs, List.mem_cons, List.not_mem_nil, or_false, Prod.mk.injEq] at hi
  obtain ⟨rfl, rfl⟩ | ⟨rfl, rfl⟩ | ⟨rfl, rfl⟩ | ⟨rfl, rfl⟩ | ⟨rfl, rfl⟩ | ⟨rfl, rfl⟩ := hi
  all_goals exact ⟨rfl, rfl⟩

theorem int2Lane_computes {s : State} {a : RArgs} {i : Instr} {f : (Nat → Int) → (Nat → Int) → Nat → LaneRes}
    (hi : (i, f) ∈ int2Instrs s a) : s.me.Computes a (int2Lane a f s.me)
      (f (fun l => (s.me.opI l a.ty a.a).toOption.getD 0) (fun l => (s.me.opI l a.ty a.b).toOption.getD 0)) := by
  intro l
  cases h : s.me.lacksSource a l with
  | true => exact bind_of_lacksSource h _ _ _
  | false =>
    obtain ⟨hA, hB⟩ := lacksSource_eq_false.mp h
    rw [int2Lane, opI_getD hA, opI_getD hB, (int2Instrs_lane hi _ _ l).1]
    rfl

/-- n bits of an integer as an integer. -/
theorem cast_wrapI (x : Int) (n : Nat) : ((wrapI x n : Nat) : Int) = x % 2 ^ n :=
  Int.toNat_of_nonneg (Int.emod_nonneg x (by positivity))

/-- IADD and ISUB, which read the carry-in of the lowest lane alone for a uniform destination, ask no more than their `ruleR`. -/
theorem Issues.withFirst {i : Instr} {r : Rule} {s : State} (h : Issues i r s) (hr : r.first = false) (b : Bool) :
    Issues i { r with first := b } s := by
  obtain ⟨hcheck, hclean, hallowed⟩ := h
  refine ⟨hcheck, ?_, hallowed⟩
  unfold Team.ueLanes at hclean ⊢
  split
  · rfl
  · next hsound =>
    rw [if_neg hsound] at hclean
    dsimp only at hclean ⊢
    split
    · next hbad => rwa [if_pos hbad] at hclean
    · next hbad =>
      rw [if_neg hbad, List.filter_eq_nil_iff] at hclean
      refine List.filter_eq_nil_iff.mpr (fun l hl hue => hclean l hl ?_)
      rw [hr]
      simp only [Bool.or_eq_true, Bool.and_eq_true] at hue ⊢
      exact hue.imp_right (fun ⟨_, hown⟩ => ⟨.inl rfl, hown⟩)

/-- A lane of IADD or ISUB: the sum or difference with the carry-in, and the carry or borrow (09 R243). -/
theorem addSubLane_eq (sub : Bool) (a : RArgs) (t : Team) : addSubLane sub a t =
    let ci : Nat → Int := fun l => if fnBits a.fn 8 1 = 1 ∧ t.predLane (fnBits a.fn 4 4) l = true then 1 else 0
    let n := a.ty.bits
    int2Lane a (fun x y l => { intRes a.ty a.sat (if sub then x l - y l - ci l else x l + y l + ci l) with
      pw := [(fnBits a.fn 0 4, if sub then decide (x l % 2 ^ n < y l % 2 ^ n + ci l)
        else decide (2 ^ n ≤ x l % 2 ^ n + y l % 2 ^ n + ci l))] }) t := by
  funext l
  cases sub <;> simp only [addSubLane, int2Lane, addSub, cast_wrapI] <;> rfl

/-- Each of them runs `int2Lane` of its function and leaves the generator. -/
theorem int2_runsLanes {s : State} {a : RArgs} {i : Instr} {f : (Nat → Int) → (Nat → Int) → Nat → LaneRes}
    (hi : (i, f) ∈ int2Instrs s a) (h : Issues i (ruleR a (nReg a.ty) (nReg a.ty) 1) s) :
    RunsLanes i s a.g a.d a.ty.wide (int2Lane a f s.me) s.me.srseed := by
  simp only [int2Instrs, List.mem_cons, List.not_mem_nil, or_false, Prod.mk.injEq] at hi
  obtain ⟨rfl, rfl⟩ | ⟨rfl, rfl⟩ | ⟨rfl, rfl⟩ | ⟨rfl, rfl⟩ | ⟨rfl, rfl⟩ | ⟨rfl, rfl⟩ := hi
  case inl =>
    have hrun := perLane_runsLanes (f := fun c => addSubLane false a c.t) (h.withFirst rfl _) rfl
    rwa [addSubLane_eq] at hrun
  case inr.inl =>
    have hrun := perLane_runsLanes (f := fun c => addSubLane true a c.t) (h.withFirst rfl _) rfl
    rwa [addSubLane_eq] at hrun
  all_goals exact perLane_runsLanes (r := ruleR a (nReg a.ty) (nReg a.ty) 1) (f := fun c => int2Lane a _ c.t) h rfl

/-! ## Floating instructions (10 R267-R269) -/

theorem srcA1_eq (a : RArgs) (t : Team) (v : FEnv) (l : Nat) : srcA1 a t v l =
    (t.rdData l a.ty.wide a.a).map (fun w => fsrc a.ty v.fi a.na a.aa (w.toNat % 2 ^ a.ty.bits)) := by
  rw [srcA1, Team.fpat]
  cases t.rdData l a.ty.wide a.a <;> rfl

theorem srcB1_eq (a : RArgs) (t : Team) (v : FEnv) (l : Nat) : srcB1 a t v l =
    (t.rdData l a.ty.wide a.b).map (fun w => fsrc a.ty v.fi a.nb a.ab (w.toNat % 2 ^ a.ty.bits)) := by
  rw [srcB1, Team.fpat]
  cases t.rdData l a.ty.wide a.b <;> rfl

theorem float2Lane_computes (t : Team) (a : RArgs) (f : FEnv → FOut → FOut → FOut) :
    t.Computes a (fun l => float2Lane a f t l (t.envOf a l)) (fun l => float2Res f (t.envOf a l)
      (fsrc a.ty (t.envOf a l).fi a.na a.aa ((t.opP l a.ty a.a).toOption.getD 0))
      (fsrc a.ty (t.envOf a l).fi a.nb a.ab ((t.opP l a.ty a.b).toOption.getD 0))) := by
  intro l
  cases h : t.lacksSource a l with
  | true =>
    show float2Lane a f t l _ = .error .regidx
    rw [float2Lane, srcA1_eq, srcB1_eq]
    exact bind_of_lacksSource h _ _ _
  | false =>
    obtain ⟨hA, hB⟩ := lacksSource_eq_false.mp h
    exact float2Lane_of_opP f _ (opP_getD hA) (opP_getD hB)

/-- Settles O12: the integer instructions and the floating ones each run their lanes, which trap on their own. -/
theorem lanesTrapOnTheirOwn : Obligations.LanesTrapOnTheirOwn := by
  unfold Obligations.LanesTrapOnTheirOwn
  refine ⟨fun s a i f => ?int, fun s a i f => ?float⟩
  case int =>
    intro n ci hi res l0 h
    have hrun := int2_runsLanes hi h
    have hlanes := int2Lane_computes hi
    exact ⟨hrun.splits hlanes (fun l => (int2Instrs_lane hi _ _ l).2), hrun.splitsUni hlanes⟩
  case float =>
    intro v hi p q o res l0 h
    have hrun := flt_runsLanes h (exec_float2 hi s)
    have hlanes := float2Lane_computes s.me a f
    exact ⟨hrun.splits hlanes (fun _ => rfl), hrun.splitsUni hlanes⟩

end Sys2Proof.Machine
end

section
/-! PROOFS. Integer arithmetic (09 R243-R246): the form that reads A and B and computes each lane's result, the all-ones
result of a division by zero and the lanes that trap at one, and from these the statements IntegerAddAndSubtract,
IntegerMultiplyAndCompare and IntegerDivision. -/
namespace Sys2Proof.Machine

/-! ## Instructions that compute each lane's result from A and B -/

/-- A source that is read goes on to what is done with it. -/
theorem ok_bind {α β : Type} {e : Except Cause α} {x : α} (h : e = .ok x) (f : α → Except Cause β) : (e >>= f) = f x := by
  rw [h]
  rfl

section
variable {i : Instr} {r : Rule} {s : State} {a : RArgs} {d : Operand} {wide : Bool} {res : Nat → LaneRes}

/-- `completes_perLane` where no lane writes an index register. -/
theorem completes_noIndex {f : Ctx → Nat → Except Cause LaneRes} (h : Ready i r s d wide res)
    (hexec : exec i s = issues i r s (fun c => c.perLane s d wide (f c)))
    (hf : ∀ l ∈ s.me.lanesOf (s.mask r.guard), f (s.ctx r) l = .ok (res l)) (hxw : ∀ l, (res l).xw = none) :
    Completes i r s d wide res :=
  completes_perLane h hexec hf (fun l _ _ hw => nomatch (hxw l).symm.trans hw)

/-- The lanes of `int2`. -/
theorem int2_lane {t : Team} {l : Nat} {x y : Int} (hx : t.opI l a.ty a.a = .ok x) (hy : t.opI l a.ty a.b = .ok y)
    (f : Int → Int → Except Cause LaneRes) : (do f (← t.opI l a.ty a.a) (← t.opI l a.ty a.b)) = f x y :=
  (ok_bind hx _).trans (ok_bind hy _)

theorem completes_int2 {x y : Nat → Int} {f : Int → Int → Except Cause LaneRes} (hx : s.me.ReadsI (s.mask a.g) a.ty a.a x)
    (hy : s.me.ReadsI (s.mask a.g) a.ty a.b y) (h : Ready i (ruleR a (nReg a.ty) (nReg a.ty) 1) s a.d a.ty.wide res)
    (hexec : exec i s = int2 i a s f) (hf : ∀ l ∈ s.me.lanesOf (s.mask a.g), f (x l) (y l) = .ok (res l))
    (hxw : ∀ l, (res l).xw = none) : Completes i (ruleR a (nReg a.ty) (nReg a.ty) 1) s a.d a.ty.wide res :=
  completes_noIndex h hexec (fun l hl => (int2_lane (hx l hl) (hy l hl) f).trans (hf l hl)) hxw

/-! ## IADD and ISUB (09 R243) -/

/-- `Ready` under a rule that reads for the lowest lane of T alone. -/
theorem Ready.withFirst (h : Ready i r s d wide res) (hr : r.first = false) (b : Bool) :
    Ready i { r with first := b } s d wide res :=
  { toIssues := h.toIssues.withFirst hr b, dest := h.dest, nofpx := h.nofpx }

/-- A lane's sum or difference with the carry-in, and the carry or borrow. -/
def addSubRes (sub : Bool) (a : RArgs) (t : Team) (x y : Nat → Int) (l : Nat) : LaneRes :=
  let ci : Int := if fnBits a.fn 8 1 = 1 ∧ t.predLane (fnBits a.fn 4 4) l = true then 1 else 0
  let n := a.ty.bits
  { intRes a.ty a.sat (if sub then x l - y l - ci else x l + y l + ci) with
    pw := [(fnBits a.fn 0 4, if sub then decide (x l % 2 ^ n < y l % 2 ^ n + ci)
      else decide (2 ^ n ≤ x l % 2 ^ n + y l % 2 ^ n + ci))] }

theorem completes_addSub {x y : Nat → Int} {sub : Bool} (hx : s.me.ReadsI (s.mask a.g) a.ty a.a x)
    (hy : s.me.ReadsI (s.mask a.g) a.ty a.b y)
    (h : Ready i (ruleR a (nReg a.ty) (nReg a.ty) 1) s a.d a.ty.wide (addSubRes sub a s.me x y))
    (hexec : exec i s = issues i (ruleAdd a) s (fun c => c.perLane s a.d a.ty.wide (addSubLane sub a c.t))) :
    Completes i (ruleR a (nReg a.ty) (nReg a.ty) 1) s a.d a.ty.wide (addSubRes sub a s.me x y) := by
  refine completes_noIndex (r := ruleAdd a) (h.withFirst rfl _) hexec (fun l hl => ?_) (fun _ => rfl)
  rw [addSubLane_eq]
  exact int2_lane (hx l hl) (hy l hl) (fun _ _ => .ok _)

/-- Settles O1: both run `addSubLane`, under a rule that asks no more of the place than the statement's. -/
theorem integerAddAndSubtract : Obligations.IntegerAddAndSubtract := by
  unfold Obligations.IntegerAddAndSubtract
  intro s a x y i sub hi r n ci res hx hy h
  simp only [List.mem_cons, List.not_mem_nil, or_false, Prod.mk.injEq] at hi
  obtain ⟨rfl, rfl⟩ | ⟨rfl, rfl⟩ := hi
  · exact completes_addSub hx hy h rfl
  · exact completes_addSub hx hy h rfl

/-! ## IMUL, IMULH, IMAD, IMIN, IMAX and IABS (09 R244, R245) -/

/-- Settles O2: the instructions of two sources by their form, IMAD and IABS by what their lanes read. -/
theorem integerMultiplyAndCompare : Obligations.IntegerMultiplyAndCompare := by
  unfold Obligations.IntegerMultiplyAndCompare
  refine ⟨fun s a x y i sat e => ?two, fun s a x y z => ?imad, fun s a x => ?iabs⟩
  case two =>
    intro hi r res hx hy h
    have hexec : exec i s = int2 i a s (fun x y => .ok (intRes a.ty sat (e x y))) := by
      simp only [List.mem_cons, List.not_mem_nil, or_false, Prod.mk.injEq] at hi
      obtain ⟨rfl, rfl, rfl⟩ | ⟨rfl, rfl, rfl⟩ | ⟨rfl, rfl, rfl⟩ | ⟨rfl, rfl, rfl⟩ := hi <;> rfl
    exact completes_int2 hx hy h hexec (fun _ _ => rfl) (fun _ => rfl)
  case imad =>
    intro cty r res hx hy hz h
    refine completes_noIndex h rfl (fun l hl => ?_) (fun _ => rfl)
    rw [ok_bind (hx l hl), ok_bind (hy l hl)]
    exact ok_bind (hz l hl) _
  case iabs =>
    intro r res hx h
    refine completes_noIndex h rfl (fun l hl => (ok_bind (hx l hl) _).trans ?_) (fun _ => rfl)
    show Except.ok (intRes a.ty a.sat ((x l).natAbs : Int)) = _
    rw [← Int.abs_eq_natAbs]

/-! ## IDIV and IREM (09 R246) -/

theorem wrapI_neg_one (n : Nat) : wrapI (-1) n = 2 ^ n - 1 := by
  have hpos : (0 : Int) < 2 ^ n := by positivity
  have hcast : ((2 ^ n : Nat) : Int) = 2 ^ n := by push_cast; rfl
  have hwrap := cast_wrapI (-1) n
  rw [← Int.add_emod_right, Int.emod_eq_of_lt (by omega) (by omega)] at hwrap
  omega

/-- A lane's result when a zero divisor does not trap: the all-ones pattern and DIV0 for it, else the remainder or the quotient. -/
def divRes (isRem : Bool) (a : RArgs) (x y : Int) : LaneRes :=
  if y = 0 then { val := Ty.extend a.ty (2 ^ a.ty.bits - 1), dfl := dDIV0 }
  else if isRem then intRes a.ty false (x - y * x.tdiv y) else intRes a.ty a.sat (x.tdiv y)

theorem divRes_xw (isRem : Bool) (a : RArgs) (x y : Int) : (divRes isRem a x y).xw = none := by
  rw [divRes]
  split
  · rfl
  · split <;> rfl

/-- What a lane of IDIV or IREM computes. -/
def divLane (isRem : Bool) (a : RArgs) (t : Team) (x y : Int) : Except Cause LaneRes :=
  if y = 0 then divZero t a.ty else .ok (if isRem then intRes a.ty false (x - y * x.tdiv y) else intRes a.ty a.sat (x.tdiv y))

theorem exec_div {isRem : Bool} (hi : (i, isRem) ∈ [(Instr.idiv a, false), (Instr.irem a, true)]) (s : State) :
    exec i s = int2 i a s (divLane isRem a s.me) := by
  simp only [List.mem_cons, List.not_mem_nil, or_false, Prod.mk.injEq] at hi
  obtain ⟨rfl, rfl⟩ | ⟨rfl, rfl⟩ := hi <;> rfl

theorem divLane_eq_ok {t : Team} (isRem : Bool) (x : Int) {y : Int} (h : y = 0 → t.idze = false) :
    divLane isRem a t x y = .ok (divRes isRem a x y) := by
  rw [divLane, divRes]
  split
  · next hy =>
    rw [divZero, h hy, intRes, narrow, if_neg Bool.false_ne_true, if_neg Bool.false_ne_true, wrapI_neg_one]
  · rfl

theorem divLane_zero {t : Team} (isRem : Bool) (x : Int) (h : t.idze = true) : divLane isRem a t x 0 = .error .idiv0 := by
  rw [divLane, if_pos rfl, divZero, if_pos h]

end

/-! ## Lanes of which some trap with one cause -/

section
variable {t : Team} {m : Mask} {d : Operand} {wide : Bool} {f : Nat → Except Cause LaneRes} {res : Nat → LaneRes} {c : Cause}
  {p : Nat → Bool}

/-- The lanes that `p` does not hold for write, the others are recorded, in lane order. -/
theorem foldl_runLane_traps (ls : List Nat)
    (hd : ∀ l ∈ ls, (t.regOf l (if wide then 2 else 1) (if wide then 2 else 1) d).isOk = true)
    (htrap : ∀ l ∈ ls, p l = true → f l = .error c) (hok : ∀ l ∈ ls, p l = false → f l = .ok (res l))
    (hfl : ∀ l ∈ ls, p l = false → (res l).fl &&& t.ten = 0) (acc : Team × Traps) :
    ls.foldl (runLane t d wide f) acc =
      ((ls.filter (fun l => !p l)).foldl (laneStep t d wide res) acc.1, acc.2 ++ (ls.filter p).map (fun l => (l, c))) := by
  induction ls generalizing acc with
  | nil => exact Prod.ext rfl (List.append_nil _).symm
  | cons l ls ih =>
    simp only [List.forall_mem_cons] at hd htrap hok hfl
    rw [List.foldl_cons, ih hd.2 htrap.2 hok.2 hfl.2]
    obtain ⟨q, hq⟩ : ∃ q, t.regOf l (if wide then 2 else 1) (if wide then 2 else 1) d = .ok q :=
      ⟨_, eq_ok_of_isOk hd.1 none⟩
    cases hp : p l with
    | true => simp [runLane, hq, htrap.1 hp, hp]
    | false => simp [runLane_ok hq (hok.1 hp) (hfl.1 hp), hp, laneStep, Team.destReg, hq, Except.toOption]

/-- T without the lanes that `p` holds for. -/
abbrev Team.without (t : Team) (m : Mask) (p : Nat → Bool) : Mask := m &&& ~~~maskOf ((t.lanesOf m).filter p)

theorem lanesOf_without (t : Team) (m : Mask) (p : Nat → Bool) :
    t.lanesOf (t.without m p) = (t.lanesOf m).filter (fun l => !p l) := by
  have hkeep : (t.lanesOf m).filter (fun l => !p l) = (List.range t.width).filter (fun l => !p l && m.getLsbD l) :=
    List.filter_filter
  refine Eq.trans (List.filter_congr (fun j hj => ?_)) hkeep.symm
  by_cases h : j < 1024
  · have hmem : j ∈ t.lanesOf m ↔ m.getLsbD j = true := by simp [lanes, List.mem_range.mp hj]
    rw [BitVec.getLsbD_and, BitVec.getLsbD_not, getLsbD_maskOf _ h]
    simp only [h, decide_true, Bool.true_and, List.mem_filter, hmem]
    cases m.getLsbD j <;> simp
  · rw [BitVec.getLsbD_of_ge _ _ (by omega), BitVec.getLsbD_of_ge _ _ (by omega), Bool.and_false]

/-- A per-lane destination of which some lanes trap with one cause: they are recorded, and the others write. -/
theorem runLanes_traps (hu : d.isUni = false) (hd : t.DestOk m d wide)
    (htrap : ∀ l ∈ t.lanesOf m, p l = true → f l = .error c)
    (hok : ∀ l ∈ t.lanesOf m, p l = false → f l = .ok (res l)) (hfl : t.NoFpx (t.without m p) res)
    (hxw : ∀ l, (res l).xw = none) :
    ∃ t', runLanes t m d wide f = (t', trapAll t.width (maskOf ((t.lanesOf m).filter p)) c) ∧
      Wrote t t' (t.without m p) d wide res := by
  have hgood := lanesOf_without t m p
  have hmem : ∀ {l}, l ∈ t.lanesOf (t.without m p) ↔ l ∈ t.lanesOf m ∧ p l = false := by simp [hgood]
  have hd' : t.DestOk (t.without m p) d wide := fun l hl => hd l (hmem.mp hl).1
  have hok' : ∀ l ∈ t.lanesOf (t.without m p), f l = .ok (res l) := fun l hl => hok l (hmem.mp hl).1 (hmem.mp hl).2
  obtain ⟨-, hwrote⟩ := runLanes_wrote hd' hok' hfl (fun l _ _ hw => nomatch (hxw l).symm.trans hw)
  have hall := foldl_runLane_traps (t.lanesOf m) hd htrap hok (fun l hl hp => hfl l (hmem.mpr ⟨hl, hp⟩)) (t, [])
  have hpart := runLane_fold (t.lanesOf (t.without m p)) hd' hok' hfl (t, [])
  rw [runLanes, hu, if_neg Bool.false_ne_true, hpart, hgood] at hwrote
  rw [runLanes, hu, if_neg Bool.false_ne_true, hall, trapAll, lanes_maskOf_filter]
  exact ⟨_, rfl, hwrote⟩

/-- A uniform destination whose one computation traps: every lane of T is recorded (09 R236). -/
theorem runLanes_uniformTrap (hu : d.isUni = true) (htrap : ∀ l ∈ t.lanesOf m, l = t.giver m d 0 → f l = .error c) :
    runLanes t m d wide f = (t, trapAll t.width m c) := by
  rw [runLanes, if_pos hu, trapAll]
  cases hls : lanes t.width m with
  | nil => rfl
  | cons l ls =>
    have hT : t.lanesOf m = l :: ls := hls
    have hgiver : t.giver m d 0 = l := by rw [Team.giver, if_pos hu, hT]; rfl
    rw [runUniform, htrap l (hT ▸ List.mem_cons_self ..) hgiver.symm]

end

/-- An instruction that computes each lane's result completes with what its lanes leave and the traps they take. -/
theorem exec_perLane {i : Instr} {r : Rule} {s : State} {d : Operand} {wide : Bool} {f : Ctx → Nat → Except Cause LaneRes}
    (h : Issues i r s) (hexec : exec i s = issues i r s (fun c => c.perLane s d wide (f c))) {t' : Team} {k : Traps}
    (hrun : runLanes s.me (s.mask r.guard) d wide (f (s.ctx r)) = (t', k)) :
    exec i s = .next (State.complete s.cur s.me.pc { s := s.setTeam s.cur t', k := k }) := by
  rw [hexec, issues, issue_body h, Ctx.perLane, Ctx.done, hrun]

/-- Settles O3: each lane is a `divLane`, which has its result or traps at a zero divisor. -/
theorem integerDivision : Obligations.IntegerDivision := by
  unfold Obligations.IntegerDivision
  intro s a x y i isRem hi r res hx hy
  have hexec := exec_div hi s
  have hlane : ∀ l ∈ s.me.lanesOf (s.mask a.g), _ = divLane isRem a s.me (x l) (y l) := fun l hl =>
    int2_lane (hx l hl) (hy l hl) (divLane isRem a s.me)
  refine ⟨fun hdiv h => ?completes, fun hidze h hd => ⟨fun hu hzero => ?uniform, fun hu => ?lanes⟩⟩
  case completes => exact completes_int2 hx hy h hexec (fun l hl => divLane_eq_ok isRem (x l) (hdiv l hl)) (fun l => divRes_xw ..)
  case uniform =>
    refine exec_perLane h hexec (runLanes_uniformTrap hu (fun l hl hl0 => (hlane l hl).trans ?_))
    rw [show y l = 0 from hl0 ▸ hzero, divLane_zero isRem _ hidze]
  case lanes =>
    intro zero hnofpx
    obtain ⟨t', hrun, hwrote⟩ := runLanes_traps (p := fun l => y l == 0) hu hd
      (fun l hl hp => (hlane l hl).trans (by rw [beq_iff_eq.mp hp, divLane_zero isRem _ hidze]))
      (fun l hl hp => (hlane l hl).trans (divLane_eq_ok isRem (x l) (fun hy0 => by simp [hy0] at hp))) hnofpx
      (fun l => divRes_xw ..)
    exact ⟨t', exec_perLane h hexec hrun, hwrote⟩

end Sys2Proof.Machine
end

section
/-! PROOFS. Shifts, rotates, logic and bit fields (09 R247-R254): the model's arithmetic on patterns as the bit vectors' operations
and bit by bit, and from these the statements ShiftsAndRotates and BitwiseLogic. -/
namespace Sys2Proof.Machine

/-! ## Patterns -/

theorem opP_lt {t : Team} {l : Nat} {ty : Ty} {o : Operand} {x : Nat} (h : t.opP l ty o = .ok x) : x < 2 ^ ty.bits := by
  unfold Team.opP at h
  cases hrd : t.rdData l ty.wide o with
  | error c => rw [hrd] at h; cases h
  | ok v =>
    rw [hrd] at h
    obtain rfl : v.toNat % 2 ^ ty.bits = x := Except.ok.inj h
    exact Nat.mod_lt _ (by positivity)

/-- A 32-bit word as a pattern. -/
theorem opP_b32_of_rd32 {t : Team} {l : Nat} {o : Operand} {w : W32} (h : t.rd32 l o = .ok w) : t.opP l .b32 o = .ok w.toNat := by
  have hrd : t.opP l .b32 o = .ok ((w.setWidth 64).toNat % 2 ^ 32) := by
    show ((t.rd32 l o).map _).map _ = _
    rw [h]
    rfl
  rw [hrd, BitVec.toNat_setWidth, Nat.mod_eq_of_lt (a := w.toNat) (by omega), Nat.mod_eq_of_lt w.isLt]

theorem bits_pos (ty : Ty) : 0 < ty.bits := by
  cases ty <;> decide

theorem toNat_ofNat_of_lt {n x : Nat} (h : x < 2 ^ n) : (BitVec.ofNat n x).toNat = x := by
  rw [BitVec.toNat_ofNat, Nat.mod_eq_of_lt h]

/-- sext(x, n) is the bit vector's own reading. -/
theorem sextI_eq_toInt {n : Nat} (hn : 0 < n) (x : Nat) : sextI x n = (BitVec.ofNat n x).toInt := by
  have hW : 2 ^ n = 2 * 2 ^ (n - 1) := by rw [← pow_succ', Nat.sub_add_cancel hn]
  rw [sextI, BitVec.toInt_eq_toNat_cond, BitVec.toNat_ofNat]
  refine if_congr (by omega) rfl ?_
  push_cast
  rfl

theorem wrapI_eq_toNat (e : Int) (n : Nat) : wrapI e n = (BitVec.ofInt n e).toNat := by
  rw [wrapI, BitVec.toNat_ofInt]
  push_cast
  rfl

theorem msb_ofNat {n : Nat} (hn : 0 < n) (x : Nat) : (BitVec.ofNat n x).msb = x.testBit (n - 1) := by
  rw [BitVec.msb_eq_getLsbD_last, BitVec.getLsbD_ofNat, decide_eq_true (by omega), Bool.true_and]

theorem testBit_ofBits (n : Nat) (f : Nat → Bool) (k : Nat) : (ofBits n f).testBit k = (decide (k < n) && f k) :=
  testBit_sum_bits f n k

/-! ## Instructions of one pattern and a control word, and of two patterns -/

section
variable {i : Instr} {s : State} {a : RArgs} {x y : Nat → Nat} {res : Nat → LaneRes}

theorem completes_bit1 {f : Nat → Nat} (hx : s.me.ReadsP (s.mask a.g) a.ty a.a x)
    (h : Ready i (ruleR a (nReg a.ty) 1 1) s a.d a.ty.wide res) (hexec : exec i s = bit1 i a s f)
    (hres : ∀ l, x l < 2 ^ a.ty.bits → patRes a.ty (f (x l)) = res l) (hxw : ∀ l, (res l).xw = none) :
    Completes i (ruleR a (nReg a.ty) 1 1) s a.d a.ty.wide res :=
  completes_noIndex h hexec
    (fun l hl => (ok_bind (hx l hl) _).trans (congrArg Except.ok (hres l (opP_lt (hx l hl))))) hxw

theorem completes_bit2 {f : Nat → Nat → Nat} {b : Nat → W32} (hx : s.me.ReadsP (s.mask a.g) a.ty a.a x)
    (hb : s.me.Reads32 (s.mask a.g) a.b b) (h : Ready i (ruleR a (nReg a.ty) 1 1) s a.d a.ty.wide res)
    (hexec : exec i s = bit2 i a s f) (hres : ∀ l, x l < 2 ^ a.ty.bits → patRes a.ty (f (x l) (b l).toNat) = res l)
    (hxw : ∀ l, (res l).xw = none) : Completes i (ruleR a (nReg a.ty) 1 1) s a.d a.ty.wide res :=
  completes_noIndex h hexec (fun l hl => (ok_bind (hx l hl) _).trans
    ((ok_bind (hb l hl) _).trans (congrArg Except.ok (hres l (opP_lt (hx l hl)))))) hxw

theorem completes_log2 {f : Nat → Nat → Nat} (hx : s.me.ReadsP (s.mask a.g) a.ty a.a x)
    (hy : s.me.ReadsP (s.mask a.g) a.ty a.b y) (h : Ready i (ruleR a (nReg a.ty) (nReg a.ty) 1) s a.d a.ty.wide res) (hexec : exec i s = log2 i a s f)
    (hres : ∀ l, x l < 2 ^ a.ty.bits → y l < 2 ^ a.ty.bits → patRes a.ty (f (x l) (y l)) = res l)
    (hxw : ∀ l, (res l).xw = none) : Completes i (ruleR a (nReg a.ty) (nReg a.ty) 1) s a.d a.ty.wide res :=
  completes_noIndex h hexec (fun l hl => (ok_bind (hx l hl) _).trans
    ((ok_bind (hy l hl) _).trans (congrArg Except.ok (hres l (opP_lt (hx l hl)) (opP_lt (hy l hl)))))) hxw

end

/-! ## SHL, SHR, SAR and ROTL (09 R249) -/

/-- The amount that is shifted by: B[31:0], modulo n with MODA. -/
def shiftBy (n modA sh : Nat) : Nat := if modA = 1 then sh % n else sh

section
variable {n x : Nat} (modA sh : Nat)

/-- The amounts that are clamped. -/
theorem shiftAmt_eq : shiftAmt n modA sh = if modA = 1 ∨ sh < n then some (shiftBy n modA sh) else none := by
  unfold shiftAmt shiftBy
  by_cases hmod : modA = 1
  · simp [hmod]
  · by_cases hsh : sh < n <;> simp [hmod, hsh, Nat.not_le.mpr, Nat.not_lt.mp]

/-- A clamped amount is n or more. -/
theorem le_shiftBy (h : ¬ (modA = 1 ∨ sh < n)) : n ≤ shiftBy n modA sh := by
  rw [not_or] at h
  rw [shiftBy, if_neg h.1]
  exact Nat.not_lt.mp h.2

theorem shl_eq_toNat (hx : x < 2 ^ n) : shl n modA x sh = (BitVec.ofNat n x <<< shiftBy n modA sh).toNat := by
  rw [shl, shiftAmt_eq, BitVec.toNat_shiftLeft, toNat_ofNat_of_lt hx, Nat.shiftLeft_eq]
  by_cases h : modA = 1 ∨ sh < n
  · rw [if_pos h]
  · rw [if_neg h]
    exact (Nat.mod_eq_zero_of_dvd ((Nat.pow_dvd_pow 2 (le_shiftBy _ _ h)).mul_left x)).symm

theorem shr_eq_toNat (hx : x < 2 ^ n) : shr n modA x sh = (BitVec.ofNat n x >>> shiftBy n modA sh).toNat := by
  rw [shr, shiftAmt_eq, BitVec.toNat_ushiftRight, toNat_ofNat_of_lt hx]
  by_cases h : modA = 1 ∨ sh < n
  · rw [if_pos h, Nat.shiftRight_eq_div_pow]
  · rw [if_neg h]
    exact (Nat.shiftRight_eq_zero _ _ (hx.trans_le (Nat.pow_le_pow_right Nat.two_pos (le_shiftBy _ _ h)))).symm

theorem sar_eq_toNat (hn : 0 < n) (hx : x < 2 ^ n) :
    sar n modA x sh = ((BitVec.ofNat n x).sshiftRight (shiftBy n modA sh)).toNat := by
  rw [sar, shiftAmt_eq]
  by_cases h : modA = 1 ∨ sh < n
  · rw [if_pos h, BitVec.sshiftRight_eq, ← wrapI_eq_toNat, ← sextI_eq_toInt hn, Int.shiftRight_eq_div_pow]
    push_cast
    rfl
  · have hle : 2 ^ n ≤ 2 ^ shiftBy n modA sh := Nat.pow_le_pow_right Nat.two_pos (le_shiftBy _ _ h)
    rw [if_neg h, BitVec.toNat_sshiftRight, msb_ofNat hn, toNat_ofNat_of_lt hx, Nat.shiftRight_eq_zero x _ (hx.trans_le hle),
      Nat.shiftRight_eq_zero (2 ^ n - 1 - x) _ (by omega)]
    rfl

/-- The two parts of a rotated pattern have no bit in common. -/
theorem rotlN_eq_toNat (hn : 0 < n) (hx : x < 2 ^ n) : rotlN n x sh = ((BitVec.ofNat n x).rotateLeft sh).toNat := by
  have hr : sh % n < n := Nat.mod_lt _ hn
  have hW : 2 ^ n = 2 ^ (n - sh % n) * 2 ^ (sh % n) := by rw [← pow_add, Nat.sub_add_cancel hr.le]
  have hhigh : x <<< (sh % n) % 2 ^ n = (x % 2 ^ (n - sh % n)) <<< (sh % n) := by
    rw [Nat.shiftLeft_eq, Nat.shiftLeft_eq, hW, Nat.mul_mod_mul_right]
  have hlow : x >>> (n - sh % n) < 2 ^ (sh % n) := by
    rw [Nat.shiftRight_eq_div_pow]
    exact Nat.div_lt_of_lt_mul (hW ▸ hx)
  rw [BitVec.toNat_rotateLeft, toNat_ofNat_of_lt hx, hhigh, ← Nat.shiftLeft_add_eq_or_of_lt hlow, ← hhigh, rotlN,
    Nat.shiftLeft_eq, Nat.shiftRight_eq_div_pow]

/-- A rotation does not see whether its amount was taken modulo n. -/
theorem rotateLeft_shiftBy (v : BitVec n) : v.rotateLeft (shiftBy n modA sh) = v.rotateLeft sh := by
  rw [shiftBy]
  split
  · exact BitVec.rotateLeft_mod_eq_rotateLeft
  · rfl

end

/-- Settles O4: each instruction by the law of its arithmetic. -/
theorem shiftsAndRotates : Obligations.ShiftsAndRotates := by
  unfold Obligations.ShiftsAndRotates
  intro s a x y i f hi r n amt res hx hy h
  have hn : 0 < n := bits_pos a.ty
  simp only [List.mem_cons, List.not_mem_nil, or_false, Prod.mk.injEq] at hi
  obtain ⟨rfl, rfl⟩ | ⟨rfl, rfl⟩ | ⟨rfl, rfl⟩ | ⟨rfl, rfl⟩ := hi
  · exact completes_bit2 hx hy h rfl (fun l hl => congrArg _ (shl_eq_toNat _ _ hl)) (fun _ => rfl)
  · exact completes_bit2 hx hy h rfl (fun l hl => congrArg _ (shr_eq_toNat _ _ hl)) (fun _ => rfl)
  · exact completes_bit2 hx hy h rfl (fun l hl => congrArg _ (sar_eq_toNat _ _ hn hl)) (fun _ => rfl)
  · refine completes_bit2 hx hy h rfl (fun l hl => congrArg _ ?_) (fun _ => rfl)
    exact (rotlN_eq_toNat _ hn hl).trans (congrArg BitVec.toNat (rotateLeft_shiftBy (fnBits a.fn 0 1) _ _).symm)

/-! ## NOT, BREV, POPC and CLZ (09 R248, R252) -/

section
variable {n x : Nat}

theorem sub_eq_toNat_not (hx : x < 2 ^ n) : 2 ^ n - 1 - x = (~~~BitVec.ofNat n x).toNat := by
  rw [BitVec.toNat_not, toNat_ofNat_of_lt hx]

theorem ofBits_eq_toNat_reverse (n x : Nat) :
    ofBits n (fun i => x.testBit (n - 1 - i)) = (BitVec.ofNat n x).reverse.toNat := by
  refine Nat.eq_of_testBit_eq (fun k => ?_)
  rw [testBit_ofBits, BitVec.testBit_toNat, BitVec.getLsbD_reverse, BitVec.getMsbD_eq_getLsbD, BitVec.getLsbD_ofNat]
  by_cases hk : k < n
  · rw [decide_eq_true hk, decide_eq_true (show n - 1 - k < n by omega), Bool.true_and, Bool.true_and]
  · rw [decide_eq_false hk, Bool.false_and, Bool.false_and]

/-- The set bits below bit `k` are counted one by one. -/
theorem length_filter_testBit (n x k : Nat) (hk : k ≤ n) :
    ((List.range k).filter (fun i => x.testBit i)).length = (BitVec.ofNat n x).cpopNatRec k 0 := by
  induction k with
  | zero => rfl
  | succ k ih =>
    rw [List.range_succ, List.filter_append, List.length_append, ih (by omega), BitVec.cpopNatRec_succ,
      BitVec.cpopNatRec_eq (0 + _), BitVec.getLsbD_ofNat, decide_eq_true (by omega), Bool.true_and]
    cases hbit : x.testBit k <;> simp [hbit]

theorem popc_eq_toNat (n x : Nat) :
    ((List.range n).filter (fun i => x.testBit i)).length = (BitVec.ofNat n x).cpop.toNat := by
  rw [BitVec.toNat_cpop, length_filter_testBit n x n le_rfl]

theorem ofNat_ne_zero (hx : x < 2 ^ n) (hzero : x ≠ 0) : BitVec.ofNat n x ≠ 0#n := fun h =>
  hzero ((toNat_ofNat_of_lt hx).symm.trans ((congrArg BitVec.toNat h).trans BitVec.toNat_zero))

theorem toNat_ofNat_self (n : Nat) : (BitVec.ofNat n n).toNat = n := toNat_ofNat_of_lt Nat.lt_two_pow_self

theorem toNat_clz_lt (hx : x < 2 ^ n) (hzero : x ≠ 0) : (BitVec.ofNat n x).clz.toNat < n := by
  have hlt := BitVec.lt_def.mp (BitVec.clz_lt_iff_ne_zero.mpr (ofNat_ne_zero hx hzero))
  rwa [BitVec.natCast_eq_ofNat, toNat_ofNat_self] at hlt

/-- The highest set bit is the one that the leading zeros leave. -/
theorem log2_eq_sub_clz (hn : 0 < n) (hx : x < 2 ^ n) (hzero : x ≠ 0) : x.log2 = n - 1 - (BitVec.ofNat n x).clz.toNat := by
  have hlt := toNat_clz_lt hx hzero
  have hlow := BitVec.two_pow_sub_clz_le_toNat_of_ne_zero hn (ofNat_ne_zero hx hzero)
  have hhigh := BitVec.toNat_lt_two_pow_sub_clz (x := BitVec.ofNat n x)
  rw [toNat_ofNat_of_lt hx] at hlow hhigh
  rw [Nat.log2_eq_iff hzero, show n - 1 - (BitVec.ofNat n x).clz.toNat + 1 = n - (BitVec.ofNat n x).clz.toNat by omega]
  exact ⟨hlow, hhigh⟩

theorem clz_eq_toNat (hn : 0 < n) (hx : x < 2 ^ n) :
    (if x = 0 then n else n - 1 - x.log2) = (BitVec.ofNat n x).clz.toNat := by
  by_cases hzero : x = 0
  · rw [if_pos hzero, BitVec.clz_eq_iff_eq_zero.mpr (hzero ▸ rfl), BitVec.natCast_eq_ofNat, toNat_ofNat_self]
  · have hlt := toNat_clz_lt hx hzero
    rw [if_neg hzero, log2_eq_sub_clz hn hx hzero]
    omega

end

/-! ## LOP3, BFX and BFI (09 R248, R251) -/

theorem testBit_lop3 (lut n x y z k : Nat) : (lop3 lut n x y z).testBit k = (decide (k < n) && lut.testBit
    ((if x.testBit k then 1 else 0) + (if y.testBit k then 2 else 0) + (if z.testBit k then 4 else 0))) :=
  testBit_ofBits ..

theorem testBit_bfi (n x base ctl k : Nat) :
    let p := ctl % 256
    let w := min (ctl / 256 % 256) n
    (bfi n x base ctl).testBit k =
      (decide (k < n) && (if p ≤ k ∧ k < p + w then x.testBit (k - p) else base.testBit k)) := by
  simp only [bfi, testBit_ofBits, Bool.and_eq_true, decide_eq_true_eq]

/-- A sign-extended field. -/
theorem testBit_wrapI_sextI {w : Nat} (hw : 0 < w) (f n k : Nat) :
    (wrapI (sextI f w) n).testBit k = (decide (k < n) && (if k < w then f.testBit k else f.testBit (w - 1))) := by
  rw [sextI_eq_toInt hw, wrapI_eq_toNat, ← BitVec.signExtend, BitVec.testBit_toNat, BitVec.getLsbD_signExtend, msb_ofNat hw,
    BitVec.getLsbD_ofNat]
  by_cases hk : k < w <;> simp [hk]

/-- Bit `i` of the field that BFX takes from bit `p` up: past the word it is the sign or 0. -/
def fieldBit (signed : Bool) (n x p i : Nat) : Bool := if p + i < n then x.testBit (p + i) else signed && x.testBit (n - 1)

/-- The `w` bits of the field, extended to `n` bits. -/
def bitField (signed : Bool) (n x p w : Nat) : Nat :=
  if w = 0 then 0
  else if signed then wrapI (sextI (ofBits w (fieldBit signed n x p)) w) n
  else ofBits w (fieldBit signed n x p)

theorem bfx_eq_bitField (signed : Bool) (n x ctl : Nat) :
    bfx signed n x ctl = bitField signed n x (ctl % 256) (min (ctl / 256 % 256) n) := rfl

/-- The field's own top bit. -/
theorem fieldBit_top {w : Nat} (hw : 0 < w) (n x p : Nat) :
    fieldBit true n x p (w - 1) = x.testBit (if p + w ≤ n then p + w - 1 else n - 1) := by
  rw [fieldBit, Bool.true_and, ← Nat.add_sub_assoc hw, apply_ite x.testBit]
  exact if_congr (by omega) rfl rfl

theorem testBit_bitField (signed : Bool) {n w : Nat} (hwn : w ≤ n) (x p k : Nat) :
    (bitField signed n x p w).testBit k = (decide (k < n ∧ 0 < w) && (if k < w then fieldBit signed n x p k
      else signed && x.testBit (if p + w ≤ n then p + w - 1 else n - 1))) := by
  rw [bitField]
  by_cases hw : w = 0
  · simp [hw]
  · have hpos : 0 < w := Nat.pos_of_ne_zero hw
    rw [if_neg hw]
    cases signed with
    | false =>
      rw [if_neg Bool.false_ne_true, testBit_ofBits]
      by_cases hk : k < w
      · simp [hk, hpos, hk.trans_le hwn]
      · simp [hk]
    | true =>
      rw [if_pos rfl, testBit_wrapI_sextI hpos, testBit_ofBits, testBit_ofBits, fieldBit_top hpos]
      by_cases hk : k < w <;> simp [hk, hpos]

/-! ## PRMT and FUNSH (09 R250, R253) -/

theorem sum_range_four (g : Nat → Nat) : ((List.range 4).map g).sum = g 0 + g 1 + g 2 + g 3 := by
  have hrange : List.range 4 = [0, 1, 2, 3] := rfl
  rw [hrange]
  simp [add_assoc]

/-- The four bytes of PRMT's result. -/
theorem prmt_sum (x y ctl : Nat) : ((List.range 4).map (fun j => prmtByte x y ctl j * 256 ^ j)).sum =
    prmtByte x y ctl 0 + prmtByte x y ctl 1 * 2 ^ 8 + prmtByte x y ctl 2 * 2 ^ 16 + prmtByte x y ctl 3 * 2 ^ 24 := by
  rw [sum_range_four, pow_zero, mul_one, show 256 ^ 1 = 2 ^ 8 from rfl, show 256 ^ 2 = 2 ^ 16 from rfl,
    show 256 ^ 3 = 2 ^ 24 from rfl]

/-- The signed amount of FUNSH. -/
def funshBy (clampB : Bool) (z : W32) : Int := if clampB then max (-64) (min 64 z.toInt) else (z.setWidth 7).toInt

theorem toNat_append_words (x y : W32) : (y ++ x).toNat = y.toNat * 2 ^ 32 + x.toNat := by
  rw [BitVec.toNat_append, ← Nat.shiftLeft_add_eq_or_of_lt x.isLt, Nat.shiftLeft_eq]

/-- The 64-bit value that FUNSH takes a half of. -/
def funshed (k : Int) (x y : W32) : W64 := if 0 ≤ k then (y ++ x) >>> k.toNat else (y ++ x) <<< (-k).toNat

theorem toNat_funshed (k : Int) (x y : W32) : (funshed k x y).toNat =
    if 0 ≤ k then (y.toNat * 2 ^ 32 + x.toNat) / 2 ^ k.toNat else (y.toNat * 2 ^ 32 + x.toNat) * 2 ^ (-k).toNat % 2 ^ 64 := by
  rw [funshed]
  split
  · rw [BitVec.toNat_ushiftRight, toNat_append_words, Nat.shiftRight_eq_div_pow]
  · rw [BitVec.toNat_shiftLeft, toNat_append_words, Nat.shiftLeft_eq]

/-- The half that FUNSH returns. -/
def funshHalf (half : Bool) (v : W64) : W32 := if half then v.extractLsb' 32 32 else v.setWidth 32

theorem toNat_funshHalf (half : Bool) (v : W64) :
    (funshHalf half v).toNat = if half then v.toNat / 2 ^ 32 else v.toNat % 2 ^ 32 := by
  cases half with
  | false => rfl
  | true =>
    have hv := v.isLt
    rw [funshHalf, if_pos rfl, if_pos rfl, BitVec.extractLsb'_toNat, Nat.shiftRight_eq_div_pow, Nat.mod_eq_of_lt]
    omega

theorem funsh_eq_toNat (half clampB : Bool) (x y z : W32) :
    funsh half clampB x.toNat y.toNat z.toNat = (funshHalf half (funshed (funshBy clampB z) x y)).toNat := by
  have h7 : sextI z.toNat 7 = (z.setWidth 7).toInt := by rw [sextI_eq_toInt (by omega), BitVec.ofNat_toNat]
  have h32 : sextI z.toNat 32 = z.toInt := by rw [sextI_eq_toInt (by omega), BitVec.ofNat_toNat, BitVec.setWidth_eq]
  rw [toNat_funshHalf, toNat_funshed, funshBy, ← h7, ← h32]
  rfl

/-- A 32-bit word as a lane's result. -/
theorem patRes_b32 (w : W32) : patRes .b32 w.toNat = { val := w.setWidth 64 } := by
  have hval : BitVec.ofNat 64 (w.toNat % 2 ^ 32) = w.setWidth 64 := by
    rw [Nat.mod_eq_of_lt w.isLt, BitVec.ofNat_toNat]
  rw [← hval]
  rfl

/-- Settles O5: each instruction by the law of its arithmetic, those with a pattern `q` given by its bits bit by bit. -/
theorem bitwiseLogic : Obligations.BitwiseLogic := by
  unfold Obligations.BitwiseLogic
  refine ⟨⟨fun s a x y i f => ?two, fun s a x i wide f => ?one, fun s a x y z q => ?lop3, fun s a x y z => ?prmt,
    fun s a x y z => ?idot4⟩, fun s a x y z => ?funsh, fun s a x y q => ?bfx, fun s a x y z q => ?bfi⟩
  case two =>
    intro hi r res hx hy h
    simp only [List.mem_cons, List.not_mem_nil, or_false, Prod.mk.injEq] at hi
    obtain ⟨rfl, rfl⟩ | ⟨rfl, rfl⟩ | ⟨rfl, rfl⟩ := hi
    all_goals refine completes_log2 hx hy h rfl (fun l hxl hyl => congrArg _ ?_) (fun _ => rfl)
    · rw [BitVec.toNat_and, toNat_ofNat_of_lt hxl, toNat_ofNat_of_lt hyl]
    · rw [BitVec.toNat_or, toNat_ofNat_of_lt hxl, toNat_ofNat_of_lt hyl]
    · rw [BitVec.toNat_xor, toNat_ofNat_of_lt hxl, toNat_ofNat_of_lt hyl]
  case one =>
    intro hi r res hx h
    simp only [List.mem_cons, List.not_mem_nil, or_false, Prod.mk.injEq] at hi
    obtain ⟨rfl, rfl, rfl⟩ | ⟨rfl, rfl, rfl⟩ | ⟨rfl, rfl, rfl⟩ | ⟨rfl, rfl, rfl⟩ := hi
    · exact completes_bit1 hx h rfl (fun l hl => congrArg _ (sub_eq_toNat_not hl)) (fun _ => rfl)
    · exact completes_bit1 hx h rfl (fun l _ => congrArg _ (ofBits_eq_toNat_reverse ..)) (fun _ => rfl)
    · refine completes_noIndex h rfl (fun l hl => ?_) (fun _ => rfl)
      rw [ok_bind (hx l hl), popc_eq_toNat]
    · refine completes_noIndex h rfl (fun l hl => ?_) (fun _ => rfl)
      rw [ok_bind (hx l hl), clz_eq_toNat (bits_pos _) (opP_lt (hx l hl))]
  case lop3 =>
    intro r res hq hx hy hz h
    refine completes_noIndex h rfl (fun l hl => ?_) (fun _ => rfl)
    rw [ok_bind (hx l hl), ok_bind (hy l hl), ok_bind (hz l hl),
      Nat.eq_of_testBit_eq (fun k => (testBit_lop3 ..).trans (hq l k).symm)]
  case prmt =>
    intro r res hx hy hz h
    refine completes_noIndex h rfl (fun l hl => ?_) (fun _ => rfl)
    rw [ok_bind (hx l hl), ok_bind (hy l hl), ok_bind (hz l hl), prmt_sum]
  case idot4 =>
    intro r res hx hy hz h
    refine completes_noIndex h rfl (fun l hl => ?_) (fun _ => rfl)
    rw [ok_bind (hx l hl), ok_bind (hy l hl), ok_bind (hz l hl)]
  case funsh =>
    intro r k v res hx hy hz h
    refine completes_noIndex h rfl (fun l hl => ?_) (fun _ => rfl)
    rw [ok_bind (opP_b32_of_rd32 (hx l hl)), ok_bind (opP_b32_of_rd32 (hy l hl)), ok_bind (hz l hl), funsh_eq_toNat,
      patRes_b32]
    simp only [funshBy, funshHalf, beq_iff_eq]
    rfl
  case bfx =>
    intro r p w top res hq hx hy h
    refine completes_bit2 hx hy h rfl (fun l _ => congrArg _ ?_) (fun _ => rfl)
    rw [bfx_eq_bitField]
    exact Nat.eq_of_testBit_eq (fun k => (testBit_bitField _ (Nat.min_le_right ..) ..).trans (hq l k).symm)
  case bfi =>
    intro r p w res hq hx hy hz h
    refine completes_noIndex h rfl (fun l hl => ?_) (fun _ => rfl)
    rw [ok_bind (hx l hl), ok_bind (hy l hl), ok_bind (hz l hl),
      Nat.eq_of_testBit_eq (fun k => (testBit_bfi ..).trans (hq l k).symm)]

end Sys2Proof.Machine
end

section
/-! PROOFS. Moves, selection and index registers (09 R241, R255): the write that keeps the low half's error marks, the narrowed
16-bit value, and from these the statement MoveSelectAndIndex. -/
namespace Sys2Proof.Machine

/-! ## MOVI.hi (09 R241) -/

/-- `Wrote` does not say which registers hold uncorrectable data. -/
theorem Wrote.keepLow {t t' : Team} {m : Mask} {d : Operand} {wide : Bool} {res : Nat → LaneRes} (h : Wrote t t' m d wide res)
    (t0 : Team) (ls : List Nat) (o : Operand) : Wrote t (t'.keepLow t0 ls o) m d wide res where
  lane := h.lane
  uni := h.uni
  pred := h.pred
  index := h.index
  fpflags := h.fpflags
  devflags := h.devflags
  sum := h.sum
  rest := by
    rw [Team.keepLow, h.rest]

/-- What a lane of MOVI.hi computes: the immediate above the old low half. -/
def moviHiLane (a : IArgs) (t : Team) (l : Nat) : Except Cause LaneRes := do
  let old ← t.rd64 l a.d
  .ok { val := a.imm ++ old.setWidth 32 }

/-- A body that answers a team and no trapped lanes. -/
theorem done_plain {s : State} {r : Rule} {t' : Team} {k : Traps} (h : k = []) :
    (s.ctx r).done s (t', k) = Res.plain (s.setTeam s.cur t') := by
  rw [h]
  rfl

/-- MOVI.hi completes, and its lanes' writes keep the error marks of the low halves. -/
theorem completes_moviHi {s : State} {a : IArgs} {x : Nat → W64} (hx : s.me.ReadsD (s.mask a.g) true a.d x)
    (h : Ready (.moviHi a) { guard := a.g, scalar := a.d.isScalar } s a.d true (fun l => { val := a.imm ++ (x l).setWidth 32 })) :
    Completes (.moviHi a) { guard := a.g, scalar := a.d.isScalar } s a.d true
      (fun l => { val := a.imm ++ (x l).setWidth 32 }) := by
  obtain ⟨hnone, hwrote⟩ := runLanes_wrote (f := moviHiLane a s.me) h.dest (fun l hl => ok_bind (hx l hl) _) h.nofpx
    (fun _ _ _ hw => nomatch hw)
  exact ⟨_, issues_plain h.toIssues (done_plain hnone), hwrote.keepLow s.me (s.me.lanesOf (s.mask a.g)) a.d⟩

/-! ## XSET and XADD (09 R255) -/

theorem clampI_i16 (e : Int) : clampI .i16 e = max (-32768) (min 32767 e) := rfl

theorem flagIf_clampI_i16 (e : Int) : flagIf (clampI .i16 e != e) fSAT = if e < -32768 ∨ 32767 < e then fSAT else 0 := by
  have hout : clampI .i16 e ≠ e ↔ e < -32768 ∨ 32767 < e := by rw [clampI_i16]; omega
  simp only [flagIf, bne_iff_ne, hout]

theorem ofNat_wrapI (e : Int) (n : Nat) : BitVec.ofNat n (wrapI e n) = BitVec.ofInt n e := by
  rw [wrapI_eq_toNat, BitVec.ofNat_toNat, BitVec.setWidth_eq]

theorem xRes_eq (a : RArgs) (e : Int) : xRes a e =
    { xw := some (fnBits a.fn 0 3, BitVec.ofInt 16 (if a.sat then max (-32768) (min 32767 e) else e)),
      fl := if a.sat ∧ (e < -32768 ∨ 32767 < e) then fSAT else 0 } := by
  rw [xRes, narrow]
  cases a.sat with
  | false =>
    simp only [Bool.false_eq_true, if_false, false_and]
    rw [← ofNat_wrapI]
    rfl
  | true =>
    simp only [if_true, true_and, flagIf_clampI_i16]
    rw [← clampI_i16, ← ofNat_wrapI]
    rfl

/-- An index register's number has three bits. -/
theorem fnBits_three_lt (fn : BitVec 20) (lo : Nat) : fnBits fn lo 3 < 8 := Nat.mod_lt _ (by decide)

theorem exec_xwrite {a : RArgs} {i : Instr} {add : Bool} (hi : (i, add) ∈ [(Instr.xset a, false), (Instr.xadd a, true)])
    (s : State) : exec i s = issues i (ruleR a 1 1 1) s (fun c => c.perLane s .vz false (fun l => do
      let x ← c.t.rd32 l a.a
      .ok (xRes a ((if add then (c.t.xreg l (fnBits a.fn 0 3)).toInt else 0) + x.toInt)))) := by
  simp only [List.mem_cons, List.not_mem_nil, or_false, Prod.mk.injEq] at hi
  obtain ⟨rfl, rfl⟩ | ⟨rfl, rfl⟩ := hi
  · simp only [Bool.false_eq_true, if_false, Int.zero_add]
    rfl
  · rfl

/-- Settles O6: each instruction's lane result; MOVI.hi by `completes_moviHi`. -/
theorem moveSelectAndIndex : Obligations.MoveSelectAndIndex := by
  unfold Obligations.MoveSelectAndIndex
  refine ⟨fun s a x => ?mov, fun s a => ?movi, fun s a x => ?moviHi, fun s a x y => ?sel, fun s a x i add => ?xwrite,
    fun s a => ?xget⟩
  case mov =>
    intro r res hx h
    exact completes_noIndex h rfl (fun l hl => ok_bind (hx l hl) _) (fun _ => rfl)
  case movi =>
    intro r res h
    exact completes_noIndex h rfl (fun _ _ => rfl) (fun _ => rfl)
  case moviHi =>
    intro r res hx h
    exact completes_moviHi hx h
  case sel =>
    intro r res hx hy h
    refine completes_noIndex h rfl (fun l hl => ?_) (fun _ => rfl)
    rw [ok_bind (hx l hl), ok_bind (hy l hl)]
    simp only [bne_iff_ne, ite_not]
    rfl
  case xwrite =>
    intro hi r k e res hx h
    refine completes_perLane h (exec_xwrite hi s) (fun l hl => ?_) (fun l _ w hw => ?_)
    · rw [ok_bind (hx l hl), xRes_eq]
    · obtain rfl := Option.some.inj hw
      exact fnBits_three_lt a.fn 0
  case xget =>
    intro r res h
    exact completes_noIndex h rfl (fun _ _ => rfl) (fun _ => rfl)

end Sys2Proof.Machine
end
